-- ==== Sys2Proof/Word.lean ====
section
/-!
DEFINITION. The word types of the model: the byte, the 32-bit register word and the 64-bit quantity of
spec/00_scope.md R11 and R12. Every bit-field, byte-order and arithmetic helper stands in Sys2Proof/Machine/Bits.lean.
-/

namespace Sys2Proof

/-- A byte of memory. -/
abbrev Byte := BitVec 8

/-- A 32-bit register or lane value. -/
abbrev Word := BitVec 32

/-- A 64-bit quantity: a descriptor word, a register pair, a line-time value. -/
abbrev DWord := BitVec 64

end Sys2Proof
end

