-- ==== Sys2Proof/Syntax.lean ====
section
/-!
DEFINITION. The commands: one constructor of Instr per row of spec/opcode_table.json, with the operands that the
row's rule gives it. The operand records stand before it.
-/

namespace Sys2Proof

/-- The access paths to a register pair (R20): the host link and the SPI target. -/
inductive Path where
  | host
  | spit
deriving DecidableEq, Repr

/-- The name of a descriptor: its ring, its SEQ, and which enable of the ring its stream began with (R112). -/
structure DescId where
  ring : Nat
  seq : Nat
  stream : Nat := 0
deriving DecidableEq, Repr

/-- What a host write or configuration write unmasks (R100). -/
inductive MsixUnmask where
  /-- The mask bit of one vector's table entry. -/
  | vector (v : Fin 128)
  /-- The function mask. -/
  | function
  /-- MSI-X Enable and Bus Master Enable are both set. -/
  | enables
deriving DecidableEq, Repr

/-- A dword of a capability that a configuration request reads (R85). The spec places no capability at an offset, so
capabilities are named. -/
inductive CfgCap where
  /-- PCI Express: device capabilities, device control and status, link capabilities, link control and status, device
  capabilities 2 and device control 2. -/
  | deviceCap
  | deviceControl
  | linkCap
  | linkControl
  | deviceCap2
  | deviceControl2
  /-- Power management: capabilities, control and status. -/
  | pmCap
  | pmControl
  /-- MSI-X: message control, table, PBA. -/
  | msixControl
  | msixTable
  | msixPba
  /-- AER: uncorrectable status, capabilities and control, header log. -/
  | aerStatus
  | aerControl
  | aerHeader (i : Fin 4)
  /-- Device Serial Number, low or high half. -/
  | serial (hi : Bool)
  /-- Resizable BAR: capability, control. -/
  | rbarCap
  | rbarControl
deriving DecidableEq, Repr

/-- A configuration request (R85 to R88, R108). -/
inductive CfgReq where
  /-- A read of dword dw of the configuration header. -/
  | readHeader (dw : Fin 16)
  /-- A read of a capability's dword. -/
  | readCap (c : CfgCap)
  /-- A write of the command register: Memory Space Enable and Bus Master Enable. -/
  | command (memSpace busMaster : Bool)
  /-- A write of MSI-X message control. -/
  | msixControl (enable funcMask : Bool)
  /-- A write of device control: Max Payload Size and Max Read Request codes, 128 bytes times a power of 2. -/
  | devControl (mps mrrs : Fin 8)
  /-- A write of device control 2: 10-bit tags as requester. -/
  | devControl2 (tag10 : Bool)
  /-- A write of link control: ASPM L1. -/
  | linkControl (aspmL1 : Bool)
  /-- A write of AER uncorrectable status: the bits written 1. -/
  | aerClear (v : Word)
  /-- A write of AER control: ECRC generation and ECRC check. -/
  | aerEcrc (generate check : Bool)
  /-- A write of power management control: D3hot, PME enable, and the PME status clear. -/
  | pmControl (d3hot pmeEn clearPme : Bool)
  /-- A write of BAR0, BAR2 or BAR4, both halves. -/
  | bar (i : Fin 3) (v : DWord)
deriving DecidableEq, Repr

/-- Which side of the LP5 arbiter a request comes from, and whether a shared request is urgent (R524). -/
inductive BurstSide where
  | scanout
  | capture
  | shared (urgent : Bool)
deriving DecidableEq, Repr

/-- A request that waits at an LP5 channel for a burst of 64 bytes (R524, R525). -/
structure BurstReq where
  side : BurstSide
  addr : BitVec 48
  write : Bool
deriving DecidableEq, Repr

/-- What the ECC of a CSI-2 packet header shows (R486). -/
inductive HdrEcc where
  | ok
  | corrected
  | uncorrectable
deriving DecidableEq, Repr

/-- A CSI-2 packet header as it arrives: its virtual channel and its ECC. -/
structure CsiHdr where
  vc : Fin 4
  ecc : HdrEcc
deriving DecidableEq, Repr

/-- The outbound read that fails (R103): the fetch of a ring entry, or an engine's read for a descriptor, with its VA,
its bus address and its first-dword byte enables. -/
inductive OutReq where
  | ringFetch (ring : Fin 64)
  | engine (ring : Fin 64) (seq : Word) (va : BitVec 48) (bus : BitVec 46) (be : BitVec 4)
deriving DecidableEq, Repr

/-- A read of one dword of BAR0: the dword's offset and the byte enables (R18). -/
structure DwordRead where
  off : BitVec 25
  be : BitVec 4
deriving DecidableEq, Repr

/-- A read TLP (R91): the offset of its first dword, and each dword's byte enables. -/
structure ReadTlp where
  off : BitVec 32
  bes : List (BitVec 4)
deriving DecidableEq, Repr

/-- What a poisoned write TLP carries beside its address: the byte enables of its first dword, and its header (R85, R103). -/
structure PoisonedTlp where
  be : BitVec 4
  hdr : BitVec 128
deriving DecidableEq, Repr

/-- How a flit arrives: the slots of NULL flits that passed since the last flit received, and the bits that the lanes
carried (R570). -/
structure RxSlot where
  gap : Nat
  wire : BitVec 256
deriving DecidableEq, Repr

/-- How the PCI Express link came up: its rate, and the data-link replays and receiver errors since it was last up (R102, R106). -/
structure LinkStart where
  rate : Fin 5
  replays : Nat
  rxErrs : Nat
deriving DecidableEq, Repr

/-- What a training port has found (R571, R572). -/
inductive TrainEvent where
  /-- Training words of the peer while DOWN, or signal on all four lanes while in DETECT. -/
  | signal
  /-- SYNC on all lanes for 64 words: the lanes that arrive inverted, and which lane each one carries. -/
  | locked (inverted : BitVec 4) (order : List (Fin 4))
  /-- The offset of each lane in UI. -/
  | aligned (offsets : List Nat)
  /-- Two TS2: the peer's ID, port letter and NEXT_SEQ. -/
  | config (id : BitVec 7) (port : Fin 4) (nextSeq : BitVec 10)
  /-- Eight echoes: their round trips in 1/256 REF cycle, less the 64 fabric cycles. -/
  | echoes (trips : List Nat)
deriving DecidableEq, Repr

/-- What the regulator answers in one millisecond (R638, R650): VOUT_MODE, and the words of READ_VOUT and READ_IOUT of
VDD_CORE and VDD_SRAM. -/
structure PmbusSample where
  mode : Byte
  vCore : BitVec 16
  iCore : BitVec 16
  vSram : BitVec 16
  iSram : BitVec 16
deriving DecidableEq, Repr

/-- How an I2C target answered (R676): the byte that got no acknowledgement, 0 for the address, and the bytes read. -/
structure I2cReply where
  nackAt : Option (Fin 9)
  bytes : List Byte
deriving DecidableEq, Repr

/-- The commands of the block: one constructor per row of spec/opcode_table.json, those with operands first. -/
inductive Instr where
  /-- REGISTER_WRITE (R42): A BAR0 write to a register that has no row of its own takes effect in HIU order, under its field's access code. The operands are one write TLP (R91): the offset of its first dword, and each dword's byte enables and data; same says that it takes effect in the cycle of the hardware events of the command before it (R21). -/
  | registerWrite (off : BitVec 25) (dws : List (BitVec 4 × Word)) (same : Bool)
  /-- PAIR_LOW_READ (R20): A read of the low half of a 64-bit pair captures the whole value on that access path. -/
  | pairLowRead (path : Path) (r : DwordRead)
  /-- PAIR_HIGH_READ (R20): A read of the high half returns the captured high half and releases the capture, or returns the live high half when nothing is captured. -/
  | pairHighRead (path : Path) (r : DwordRead)
  /-- PAIR_LOW_WRITE (R19): A write of the low half of a 64-bit pair is staged on its access path. -/
  | pairLowWrite (path : Path) (off : BitVec 25) (be : BitVec 4) (data : Word)
  /-- PAIR_HIGH_WRITE (R19): A write of the high half stores it, together with any staged low half, in one cycle. -/
  | pairHighWrite (path : Path) (off : BitVec 25) (be : BitVec 4) (data : Word)
  /-- BROADCAST_WRITE (R39): A write to the CLU broadcast range is applied at the same offset in every cluster in service. -/
  | broadcastWrite (off : BitVec 20) (be : BitVec 4) (data : Word)
  /-- BAR4_WRITE (R89): An inbound BAR4 write reaches device physical memory through the L2 at HIU_BAR4_BASE plus its offset. -/
  | bar4Write (off : BitVec 32) (bytes : List (Option Byte))
  /-- BAR4_READ (R93): An inbound BAR4 read returns device memory through the L2, and bytes beyond usable DRAM read as 0. -/
  | bar4Read (off : BitVec 32) (len : Fin 4097)
  /-- POISONED_WRITE (R103): A poisoned inbound write is discarded, POISONED is flagged and AER is reported, with the TLP's header. -/
  | poisonedWrite (space : Fin 3) (off : BitVec 32) (tlp : PoisonedTlp)
  /-- CPL_ERROR (R103): An outbound read completes with UR or CA; its data is discarded and the requesting engine receives an error. -/
  | cplError (r : OutReq)
  /-- CPL_TIMEOUT (R103): An outbound read times out; its data is discarded and the requesting engine faults its context. -/
  | cplTimeout (r : OutReq)
  /-- MSIX_UNMASK (R100): Unmasking a vector or the function, or setting MSI-X Enable and Bus Master Enable, sends the messages that wait in the PBA. -/
  | msixUnmask (what : MsixUnmask)
  /-- HIU_IRQ_ACK (R100): Writing 1 to an outstanding bit clears it, and a new message follows if the cause is still 1. -/
  | hiuIrqAck (k : Fin 4) (v : Word)
  /-- HIU_SWINT (R102): A write names a software vector from 80 to 127 and sets its cause. -/
  | hiuSwint (v : Word)
  /-- RESIZABLE_BAR (R88): A Resizable BAR control write sets the BAR4 size that takes effect when Memory Space Enable is next set. -/
  | resizableBar (log2 : Fin 64)
  /-- LINE_EVENT (R52): A line event of the active source starts a new line of LT. -/
  | lineEvent (src : Fin 11)
  /-- FRAME_EVENT (R52): A frame event of the active source starts a new frame of LT. -/
  | frameEvent (src : Fin 11)
  /-- SYNTHESISED_LINE_EVENT (R57): The elapsed time t reaches P with no line event from the source, and the LTB synthesises one. -/
  | synthesisedLineEvent (pos : Option (Fin 11))
  /-- LTB_SRC_WRITE (R75): A write of LTB_SRC starts, replaces or withdraws a source switch, or changes the other source fields. -/
  | ltbSrcWrite (v : Word)
  /-- LTB_ENABLE (R712): A write of LTB_CTRL.ENABLE holds LT, or restarts loss detection and waits for the next frame event. -/
  | ltbEnable (v : Word)
  /-- SQ_DOORBELL (R115): A 32-bit write to a doorbell page sets SQ_TAIL when the value is in range, and is discarded otherwise. The operands are one write TLP to the page (R92): its first dword, and each dword's byte enables and data. -/
  | sqDoorbell (ring : Fin 64) (dw : Fin 1024) (dws : List (BitVec 4 × Word))
  /-- CQ_RELEASE (R116): A 32-bit write to offset 4 of a doorbell page sets CQ_HEAD when the value is in range. -/
  | cqRelease (ring : Fin 64) (be : BitVec 4) (v : Word)
  /-- RING_ENABLE (R139): Writing ENABLE from 0 to 1 checks the ring configuration, then zeroes the counts and SEQ, or refuses. -/
  | ringEnable (ring : Fin 64) (v : Word)
  /-- RING_DISABLE (R140): Writing ENABLE from 1 to 0 stops fetch and ends an active chain. -/
  | ringDisable (ring : Fin 64) (v : Word)
  /-- WAIT (R157): A WAIT descriptor holds its stream until the object's counter reaches its value. -/
  | wait (ring : Fin 64) (seq : Word)
  /-- COMMIT (R472): A COMMIT reads its list, writes the shadow registers of its output and arms. -/
  | commit (m : Fin 4)
  /-- SCALER_LOAD (R475): A SCALER_LOAD reads a coefficient table into a staging bank. -/
  | scalerLoad (m : Fin 5)
  /-- POISON_WALK (R159): The CTX poisons the lost slot's signal range, four objects per fabric cycle. -/
  | poisonWalk (c : Fin 128)
  /-- CANCEL_STOP (R165): A cancelled descriptor stops at its unit's next progress point and retires CONTEXT_LOST. -/
  | cancelStop (ring : Fin 64) (seq : Word) (units : Nat)
  /-- WATCHDOG (R153): A dispatched descriptor's line count reaches WATCHDOG, and it retires FAULT_WATCHDOG. -/
  | watchdog (ring : Fin 64) (seq : Word)
  /-- CTX0_LOAD (R168): A write of CTX0_CTRL.LOAD loads, updates or reloads slot 0 from the CTX0 registers. -/
  | ctx0Load (v : Word)
  /-- SYNC_INIT (R169): A write of CTX_SYNC_INIT with GO sets an object's entry and evaluates its pending waits. -/
  | syncInit (v : Word)
  /-- WAIT_SATISFIED (R157): A pending WAIT found satisfied is presented for dispatch within 64 fabric cycles. -/
  | waitSatisfied (obj : BitVec 16)
  /-- L2C_SETWAY (R205): A write of L2C_SETWAY starts one clean or invalidate operation on one named cache line. -/
  | l2cSetway (v : Word)
  /-- MMU_INV (R206): A write of MMU_INV with GO invalidates translations of a slot, whole or by range. -/
  | mmuInv (v : Word)
  /-- SHEET_STREAM_APPLY (R212): A written SHEET_CFG.STREAM takes effect in the first cycle the work area holds no window. -/
  | sheetStreamApply (c : Fin 16)
  /-- LIFT_COMPLETE (R200): A lift move writes its last unit and completes. -/
  | liftComplete (c : Fin 16)
  /-- LIFT_STOP (R325): A lift told to stop reaches its next progress point, records progress and parks or is discarded. -/
  | liftStop (c : Fin 16)
  /-- LP5_BURST (R525): A channel grants its next burst to scanout, capture, urgent or oldest traffic in turn. -/
  | lp5Burst (ch : Fin 16) (ready : List Nat)
  /-- REFRESH (R175): The MEM controller refreshes DRAM ahead of all other bursts. -/
  | refresh (ch : Fin 16) (derate : Bool)
  /-- BLOCK_PLACE (R244): A core places the top-ranked candidate block once it fits, and zeroes its registers and block memory. -/
  | blockPlace (core : Fin 64)
  /-- BLOCK_END (R245): A block's last heat ends and its memory operations are accepted, freeing its resources. -/
  | blockEnd (core : Fin 64)
  /-- PREEMPTION (R256): A GATED candidate at high urgency that does not fit preempts the fewest lower-class blocks. -/
  | preemption (core : Fin 64)
  /-- PREEMPT_SAVE_COMPLETE (R257): A preempted block's state is saved, its resources are freed and the candidate is placed. -/
  | preemptSaveComplete (core : Fin 64)
  /-- BLOCK_RESTORE (R258): A saved block is restored to its core once it fits, and resumes its heats. -/
  | blockRestore (core : Fin 64)
  /-- CLU_CONFIG_APPLY (R262): A written CLU_SAVE_BASE or CLU_PREEMPT takes effect once no core of the cluster holds saved blocks. -/
  | cluConfigApply (c : Fin 16)
  /-- VARIABLE_RESULT_WRITE (R280): A variable-latency instruction completes, writes its result and decrements its token. -/
  | variableResultWrite (core : Fin 64) (heat num : Nat)
  /-- ILLEGAL_INSTRUCTION (R285): An illegal encoding next to issue faults FAULT_ILLEGAL_INSTRUCTION and loses the context. -/
  | illegalInstruction (core : Fin 64) (heat : Nat)
  /-- ICACHE_FILL (R328): An instruction-cache miss fills one whole 128-byte line from the L2. -/
  | icacheFill (core : Fin 64) (heat : Nat)
  /-- NOP_INSTRUCTION (R272): Kamir NOP has no effect. -/
  | nopInstruction (core : Fin 64) (heat : Nat)
  /-- BRA (R309): Branch to TARGET. -/
  | bra (core : Fin 64) (heat : Nat)
  /-- BRX (R309): Branch to the code offset in a scalar. -/
  | brx (core : Fin 64) (heat : Nat)
  /-- CALL (R309): Write the return offset to a scalar and branch. -/
  | call (core : Fin 64) (heat : Nat)
  /-- RET (R309): Branch to the code offset in a scalar. -/
  | ret (core : Fin 64) (heat : Nat)
  /-- EXIT (R310): Remove the executing lanes from LM and AM, then pop or end the heat. -/
  | exit (core : Fin 64) (heat : Nat)
  /-- BAR (R253): A heat arrives at the block barrier and waits. -/
  | bar (core : Fin 64) (heat : Nat)
  /-- DPUSH (R250): Push AM and a reconvergence address onto the divergence stack. -/
  | dpush (core : Fin 64) (heat : Nat)
  /-- DSPLIT (R250): Push the reconvergence and alternative entries, and narrow AM to p. -/
  | dsplit (core : Fin 64) (heat : Nat)
  /-- DNEXT (R250): Pop the top divergence-stack entry. -/
  | dnext (core : Fin 64) (heat : Nat)
  /-- DMASK (R250): Remove p's lanes from AM. -/
  | dmask (core : Fin 64) (heat : Nat)
  /-- DSPILL (R250): Write eight stack entries to block memory. -/
  | dspill (core : Fin 64) (heat : Nat)
  /-- DFILL (R250): Read eight stack entries back from block memory. -/
  | dfill (core : Fin 64) (heat : Nat)
  /-- SADD (R288): Scalar add modulo 2^32. -/
  | sadd (core : Fin 64) (heat : Nat)
  /-- SSUB (R288): Scalar subtract. -/
  | ssub (core : Fin 64) (heat : Nat)
  /-- SMUL (R288): Scalar multiply, low 32 bits. -/
  | smul (core : Fin 64) (heat : Nat)
  /-- SAND (R296): Scalar bitwise AND. -/
  | sand (core : Fin 64) (heat : Nat)
  /-- SOR (R296): Scalar bitwise OR. -/
  | sor (core : Fin 64) (heat : Nat)
  /-- SXOR (R296): Scalar bitwise XOR. -/
  | sxor (core : Fin 64) (heat : Nat)
  /-- SSHL (R288): Scalar shift left. -/
  | sshl (core : Fin 64) (heat : Nat)
  /-- SSHR (R288): Scalar logical shift right. -/
  | sshr (core : Fin 64) (heat : Nat)
  /-- SSRA (R288): Scalar arithmetic shift right. -/
  | ssra (core : Fin 64) (heat : Nat)
  /-- SMIN (R296): Scalar signed minimum. -/
  | smin (core : Fin 64) (heat : Nat)
  /-- SMAX (R296): Scalar signed maximum. -/
  | smax (core : Fin 64) (heat : Nat)
  /-- SMINU (R296): Scalar unsigned minimum. -/
  | sminu (core : Fin 64) (heat : Nat)
  /-- SMAXU (R296): Scalar unsigned maximum. -/
  | smaxu (core : Fin 64) (heat : Nat)
  /-- SMOV (R296): Scalar move. -/
  | smov (core : Fin 64) (heat : Nat)
  /-- SADD64 (R288): Add to a scalar pair modulo 2^64. -/
  | sadd64 (core : Fin 64) (heat : Nat)
  /-- SMOVS (R270): Read a special register into a scalar. -/
  | smovs (core : Fin 64) (heat : Nat)
  /-- PAND (R296): Predicate AND. -/
  | pand (core : Fin 64) (heat : Nat)
  /-- POR (R296): Predicate OR. -/
  | por (core : Fin 64) (heat : Nat)
  /-- PXOR (R296): Predicate XOR. -/
  | pxor (core : Fin 64) (heat : Nat)
  /-- PNOT (R296): Predicate NOT. -/
  | pnot (core : Fin 64) (heat : Nat)
  /-- SMOVP (R296): Copy a predicate into a scalar. -/
  | smovp (core : Fin 64) (heat : Nat)
  /-- PMOVS (R296): Copy a scalar into a predicate. -/
  | pmovs (core : Fin 64) (heat : Nat)
  /-- FADD (R289): FP32 add, rounded under RND. -/
  | fadd (core : Fin 64) (heat : Nat)
  /-- FMUL (R289): FP32 multiply. -/
  | fmul (core : Fin 64) (heat : Nat)
  /-- FFMA (R290): FP32 fused multiply-add with one rounding. -/
  | ffma (core : Fin 64) (heat : Nat)
  /-- FMIN (R290): IEEE minimumNumber. -/
  | fmin (core : Fin 64) (heat : Nat)
  /-- FMAX (R290): IEEE maximumNumber. -/
  | fmax (core : Fin 64) (heat : Nat)
  /-- FSUB (R290): FP32 subtract. -/
  | fsub (core : Fin 64) (heat : Nat)
  /-- FRND (R290): Round to an integral value. -/
  | frnd (core : Fin 64) (heat : Nat)
  /-- IADD (R288): Integer add. -/
  | iadd (core : Fin 64) (heat : Nat)
  /-- ISUB (R288): Integer subtract. -/
  | isub (core : Fin 64) (heat : Nat)
  /-- IMUL (R288): Integer multiply, low 32 bits. -/
  | imul (core : Fin 64) (heat : Nat)
  /-- IMULH (R288): High 32 bits of the 64-bit product. -/
  | imulh (core : Fin 64) (heat : Nat)
  /-- IMAD (R288): Low 32 bits of A × B + C. -/
  | imad (core : Fin 64) (heat : Nat)
  /-- AND (R288): Vector bitwise AND. -/
  | and (core : Fin 64) (heat : Nat)
  /-- OR (R288): Vector bitwise OR. -/
  | or (core : Fin 64) (heat : Nat)
  /-- XOR (R288): Vector bitwise XOR. -/
  | xor (core : Fin 64) (heat : Nat)
  /-- SHL (R288): Vector shift left. -/
  | shl (core : Fin 64) (heat : Nat)
  /-- SHR (R288): Vector logical shift right. -/
  | shr (core : Fin 64) (heat : Nat)
  /-- SRA (R288): Vector arithmetic shift right. -/
  | sra (core : Fin 64) (heat : Nat)
  /-- IMIN (R288): Integer minimum, signed or unsigned. -/
  | imin (core : Fin 64) (heat : Nat)
  /-- IMAX (R288): Integer maximum, signed or unsigned. -/
  | imax (core : Fin 64) (heat : Nat)
  /-- POPC (R288): Population count. -/
  | popc (core : Fin 64) (heat : Nat)
  /-- CLZ (R288): Count leading zeros. -/
  | clz (core : Fin 64) (heat : Nat)
  /-- BREV (R288): Bit reverse. -/
  | brev (core : Fin 64) (heat : Nat)
  /-- MOV (R286): Vector move. -/
  | mov (core : Fin 64) (heat : Nat)
  /-- SEL (R294): Select A or B per lane by a predicate. -/
  | sel (core : Fin 64) (heat : Nat)
  /-- F2I (R291): FP32 to signed integer, saturating. -/
  | f2i (core : Fin 64) (heat : Nat)
  /-- F2U (R291): FP32 to unsigned integer, saturating. -/
  | f2u (core : Fin 64) (heat : Nat)
  /-- I2F (R291): Signed integer to FP32. -/
  | i2f (core : Fin 64) (heat : Nat)
  /-- U2F (R291): Unsigned integer to FP32. -/
  | u2f (core : Fin 64) (heat : Nat)
  /-- F2H (R291): Pack two FP32 values as FP16. -/
  | f2h (core : Fin 64) (heat : Nat)
  /-- H2F (R291): Convert an FP16 half to FP32. -/
  | h2f (core : Fin 64) (heat : Nat)
  /-- F2BF (R291): Pack two FP32 values as BF16. -/
  | f2bf (core : Fin 64) (heat : Nat)
  /-- BF2F (R291): Convert a BF16 half to FP32. -/
  | bf2f (core : Fin 64) (heat : Nat)
  /-- RCP (R292): Reciprocal, correctly rounded. -/
  | rcp (core : Fin 64) (heat : Nat)
  /-- RSQ (R292): Reciprocal square root. -/
  | rsq (core : Fin 64) (heat : Nat)
  /-- SQRT (R292): Square root. -/
  | sqrt (core : Fin 64) (heat : Nat)
  /-- EXP2 (R292): Base-2 exponential. -/
  | exp2 (core : Fin 64) (heat : Nat)
  /-- LOG2 (R292): Base-2 logarithm. -/
  | log2 (core : Fin 64) (heat : Nat)
  /-- SIN (R292): Sine of an argument in turns. -/
  | sin (core : Fin 64) (heat : Nat)
  /-- COS (R292): Cosine of an argument in turns. -/
  | cos (core : Fin 64) (heat : Nat)
  /-- FCMP (R293): Float compare into a predicate. -/
  | fcmp (core : Fin 64) (heat : Nat)
  /-- ICMP (R293): Signed compare into a predicate. -/
  | icmp (core : Fin 64) (heat : Nat)
  /-- UCMP (R293): Unsigned compare into a predicate. -/
  | ucmp (core : Fin 64) (heat : Nat)
  /-- SHFL (R294): Read register A from another lane. -/
  | shfl (core : Fin 64) (heat : Nat)
  /-- VTOS (R294): Move one lane's value to a scalar. -/
  | vtos (core : Fin 64) (heat : Nat)
  /-- FREDADD (R295): Float sum over EM by a fixed tree. -/
  | fredadd (core : Fin 64) (heat : Nat)
  /-- IREDADD (R295): Integer sum over EM by a fixed tree. -/
  | iredadd (core : Fin 64) (heat : Nat)
  /-- LD (R297): Per-lane load from virtual, block or sheet memory. -/
  | ld (core : Fin 64) (heat : Nat)
  /-- ST (R297): Per-lane store to virtual, block or sheet memory. -/
  | st (core : Fin 64) (heat : Nat)
  /-- LDS (R299): One load for the heat into scalars. -/
  | lds (core : Fin 64) (heat : Nat)
  /-- AADD (R301): Atomic add. -/
  | aadd (core : Fin 64) (heat : Nat)
  /-- AMIN (R301): Atomic signed minimum. -/
  | amin (core : Fin 64) (heat : Nat)
  /-- AMAX (R301): Atomic signed maximum. -/
  | amax (core : Fin 64) (heat : Nat)
  /-- AMINU (R301): Atomic unsigned minimum. -/
  | aminu (core : Fin 64) (heat : Nat)
  /-- AMAXU (R301): Atomic unsigned maximum. -/
  | amaxu (core : Fin 64) (heat : Nat)
  /-- AAND (R301): Atomic AND. -/
  | aand (core : Fin 64) (heat : Nat)
  /-- AOR (R301): Atomic OR. -/
  | aor (core : Fin 64) (heat : Nat)
  /-- AXOR (R301): Atomic XOR. -/
  | axor (core : Fin 64) (heat : Nat)
  /-- AXCHG (R301): Atomic exchange. -/
  | axchg (core : Fin 64) (heat : Nat)
  /-- ACAS (R301): Atomic compare and swap. -/
  | acas (core : Fin 64) (heat : Nat)
  /-- AFADD (R301): Atomic FP32 add. -/
  | afadd (core : Fin 64) (heat : Nat)
  /-- FENCE (R304): Acquire, release or both at a scope. -/
  | fence (core : Fin 64) (heat : Nat)
  /-- SIG (R306): Release, then signal a local or remote sync object. -/
  | sig (core : Fin 64) (heat : Nat)
  /-- SWAIT (R307): Wait until a local object's counter reaches a value. -/
  | swait (core : Fin 64) (heat : Nat)
  /-- SWAIT_SATISFIED (R307): The object satisfies a waiting SWAIT, which acquires and completes. -/
  | swaitSatisfied (core : Fin 64) (heat : Nat)
  /-- ALLOC (R217): Allocate a block from the context's heap reserve. -/
  | alloc (core : Fin 64) (heat : Nat)
  /-- FREE (R219): Return a block to its unit, or report BAD_FREE. -/
  | free (core : Fin 64) (heat : Nat)
  /-- TEX (R312): Filtered texture sample. -/
  | tex (core : Fin 64) (heat : Nat)
  /-- TLD (R318): Unfiltered integer texel fetch. -/
  | tld (core : Fin 64) (heat : Nat)
  /-- TMMA (R320): Tensor matrix multiply-accumulate into an accumulator tile. -/
  | tmma (core : Fin 64) (heat : Nat)
  /-- TOUT (R351): Convert a tile to an output format. -/
  | tout (core : Fin 64) (heat : Nat)
  /-- TCLR (R322): Zero an accumulator tile. -/
  | tclr (core : Fin 64) (heat : Nat)
  /-- LIFT_INSTRUCTION (R323): Kamir LIFT sends a move to the cluster's lift engine. -/
  | liftInstruction (core : Fin 64) (heat : Nat)
  /-- TNS_BEGIN (R319): A queued TNS instruction begins once the one before it has completed or stopped. -/
  | tnsBegin (core : Fin 64)
  /-- TMMA_COMPLETE (R321): A TMMA writes back its tile and completes. -/
  | tmmaComplete (core : Fin 64)
  /-- TMMA_STOP (R325): A TMMA told to stop reaches a multiple of 64 K-steps, writes its partial tile back and parks. -/
  | tmmaStop (core : Fin 64) (groups : Nat)
  /-- TOUT_COMPLETE (R355): A TOUT writes its outputs and status word and completes. -/
  | toutComplete (core : Fin 64)
  /-- TCLR_COMPLETE (R322): A TCLR has zeroed its tile and completes. -/
  | tclrComplete (core : Fin 64)
  /-- STEP_START (R372): A layer step starts once its queue, dependencies, camera lines, unit and schedulers allow. -/
  | stepStart (c : Fin 16) (queue : Fin 5)
  /-- VERTEX_BATCH_LAUNCH (R387): A batch of fetched vertices launches as one heat of the vertex program. -/
  | vertexBatchLaunch (core : Fin 64)
  /-- VERTEX_BATCH_END (R388): The vertex heat ends and the GEO reads its positions and varyings. -/
  | vertexBatchEnd (core : Fin 64)
  /-- TILE_JOB_PLACE (R416): A tile job is placed on its core once its slot and window fit, and its targets are loaded. -/
  | tileJobPlace (core : Fin 64)
  /-- FRAGMENT_HEAT_LAUNCH (R421): Up to 8 covered quads of a primitive launch as one fragment heat. -/
  | fragmentHeatLaunch (core : Fin 64)
  /-- FRAGMENT_HEAT_END (R423): A fragment heat's outputs are tested, blended and written in submission order. -/
  | fragmentHeatEnd (core : Fin 64)
  /-- TILE_STORE (R417): After the list is shaded, the tile's store operations are performed. -/
  | tileStore (core : Fin 64)
  /-- TILE_JOB_END (R417): Every store of a tile job is accepted, and its resources are freed. -/
  | tileJobEnd (core : Fin 64)
  /-- SRING_ENABLE (R437): Enabling a strip ring checks its configuration, then frees every slot or refuses. -/
  | sringEnable (ring : Fin 16) (v : Word)
  /-- SRING_DISABLE (R438): Disabling a strip ring stops its reads and substitutes undecided strips. -/
  | sringDisable (ring : Fin 16) (v : Word)
  /-- STRIP_DEADLINE (R443): At the start of a strip's read window, the DSP decides whether it is shown or substituted. -/
  | stripDeadline (ring : Fin 16)
  /-- DSP_PLANE_MAP (R452): A write maps planes to outputs, changing only fields whose plane is idle. -/
  | dspPlaneMap (k : Fin 2) (v : Word)
  /-- DSP_SCALER_MAP (R452): A write maps scalers to outputs, changing only fields of unused scalers. -/
  | dspScalerMap (v : Word)
  /-- COMMIT_LATCH (R473): At the output's commit line, shadows are copied to active state and planes are judged. -/
  | commitLatch (m : Fin 4)
  /-- SCALER_BANK_COPY (R475): A staged coefficient table is copied into the shadow bank once no COMMIT of its output is armed. -/
  | scalerBankCopy (scaler : Fin 8)
  /-- SCANOUT_LINE_FETCH (R459): The DSP fetches the source data of an output line two lines ahead. -/
  | scanoutLineFetch (m : Fin 4) (plane : Fin 16)
  /-- TG_ENABLE (R479): Enabling a timing generator checks its timing and bandwidth, and starts its PLL or refuses. -/
  | tgEnable (m : Fin 4) (v : Word)
  /-- TG_PLL_LOCK (R480): The pixel PLL locks, and TG_m starts at the first VFP line. -/
  | tgPllLock (m : Fin 4)
  /-- TG_DISABLE (R480): Disabling TG_m completes the packet in flight and holds the lanes in LP-11. -/
  | tgDisable (m : Fin 4) (v : Word)
  /-- TG_LINE_START (R477): A new line of TG_m begins and its DSI packets are sent in line order. -/
  | tgLineStart (m : Fin 4)
  /-- TG_FRAME_EVENT (R48): TG_m reaches the first pixel of its first active line, a frame event of its source position. -/
  | tgFrameEvent (m : Fin 4)
  /-- CSI_ENABLE (R495): Enabling a camera port checks its set-up, then starts capture at the next Frame Start or refuses. -/
  | csiEnable (port : Fin 4) (v : Word)
  /-- CSI_DISABLE (R495): Disabling a camera port stops capture and events in the next cycle. -/
  | csiDisable (port : Fin 4) (v : Word)
  /-- FRAME_START (R487): A Frame Start packet of the port's VC is a frame event of the camera source position. -/
  | frameStart (port : Fin 4) (h : CsiHdr)
  /-- LINE_START (R487): A Line Start packet, or first long packet, is a line event of the camera source position. -/
  | lineStart (port : Fin 4) (h : CsiHdr) (long : Bool)
  /-- FRAME_END (R492): A Frame End closes the frame and signals FE_SIGNAL once the frame is stored. -/
  | frameEnd (port : Fin 4) (h : CsiHdr)
  /-- LONG_PACKET (R489): A long packet of the port's VC and format is stored into the line window or DRAM buffer. -/
  | longPacket (port : Fin 4) (h : CsiHdr) (dt : Fin 64) (crcOk : Bool) (bytes : List Byte) (accepted : Bool)
  /-- CSI_EVENT_RELEASE (R488): A held camera event takes effect once every earlier captured byte has been accepted. -/
  | csiEventRelease (port : Fin 4)
  /-- CMP_PACK_BLOCK (R504): A CMP instance finishes packing a block, storing it packed or raw with its size entry. -/
  | cmpPackBlock (inst : Fin 2)
  /-- CMP_UNPACK_BLOCK (R506): A CMP instance finishes unpacking and checking a block, writing zeros when it fails. -/
  | cmpUnpackBlock (inst : Fin 2)
  /-- HLT_TWIN_ENABLE (R531): Writing HLT_TWIN_CTRL.ENABLE enters PAIRING, or OFF with waiting checkpoints retired. -/
  | hltTwinEnable (v : Word)
  /-- TGSYNC (R544): A TGSYNC aligns the secondary's timing generator and updates its skew. -/
  | tgsync (skew : BitVec 16)
  /-- REPEAT_END (R547): The repeat of a segment ends and an unsalted REPEAT CKPT is sent. -/
  | repeatEnd (ring : Fin 64)
  /-- ECHO (R552): An ECHO is returned, or its reply yields a latency checked against LATENCY and TOL. -/
  | echo (trip : Nat)
  /-- CHECKER_TIMEOUT (R551): The peer's CKPT or VERDICT has not arrived after TIMEOUT lines, giving CHECKER_FAULT. -/
  | checkerTimeout (ring : Fin 64)
  /-- RESUME (R555): HLT_TWIN_CMD.RESUME forces the next exchanges to be salted, to return to CHECKED. -/
  | resume (v : Word)
  /-- VZL_RETRAIN (R575): Writing VZL_p_CTRL.RETRAIN starts a retrain, or training from DOWN. -/
  | vzlRetrain (p : Fin 4) (v : Word)
  /-- TRAINING_ADVANCE (R571): A training condition is met and the port moves to its next training state. -/
  | trainingAdvance (p : Fin 4) (e : TrainEvent)
  /-- TRAINING_TIMEOUT (R571): A training attempt not ACTIVE within 2 ms restarts, or the port goes DOWN. -/
  | trainingTimeout (p : Fin 4)
  /-- DATA_FLIT (R574): A received DATA flit is accepted in order, or discarded with a NAK. -/
  | dataFlit (p : Fin 4) (num : BitVec 10) (x : RxSlot)
  /-- LINK_FLIT (R566): A received LINK flit delivers credits, NAK, RETRAIN and alignment markers; gap and wire are those of RxSlot. -/
  | linkFlit (p : Fin 4) (gap : Nat) (wire : BitVec 256)
  /-- NULL_FLIT (R574): A received NULL flit delivers its ACK. -/
  | nullFlit (p : Fin 4) (x : RxSlot)
  /-- LINK_FLIT_SEND (R578): A NAK, pending credits or the 4,096-slot limit makes the port send a LINK flit; before
it, some slots of NULL flits pass. -/
  | linkFlitSend (p : Fin 4) (gap : Nat)
  /-- NAK_REPEAT (R574): Every 128 slots until the expected flit arrives, the NAK is repeated. -/
  | nakRepeat (p : Fin 4)
  /-- REPLAY_TIMEOUT (R574): 4,096 slots pass without an ACK advance, and the transmitter resends. -/
  | replayTimeout (p : Fin 4)
  /-- VZL_REQUEST_TIMEOUT (R581): A request with no response within VZL_TIMEOUT completes with zeros. -/
  | vzlRequestTimeout (tag : Fin 1024)
  /-- KAT_START (R600): A fenced cluster empties and its known-answer test starts. -/
  | katStart (c : Fin 16)
  /-- KAT_END (R599): A cluster KAT ends, passing or failing. -/
  | katEnd (c : Fin 16) (pass : Bool)
  /-- LADDER_SETTLE (R603): 20 µs after a step, the new setting is in effect and the retest or unfence follows. -/
  | ladderSettle (c : Fin 16)
  /-- CLUSTER_POWER_OFF (R606): A RETIRING cluster's last work ends, and it is powered off as REMOVED. -/
  | clusterPowerOff (c : Fin 16)
  /-- AGING_MEASUREMENT (R619): Hourly, the groomer measures each cluster's aging monitor and updates CLH_AGING. -/
  | agingMeasurement (c : Fin 16) (base f : Nat)
  /-- FW_INSTALL (R633): Mailbox request verifying and programming an image into the slot not booted. -/
  | fwInstall (sigOk : Bool) (flashOk : Bool)
  /-- RECORD_COMMIT (R630): A wear record's trailer is programmed and it becomes committed, with retry on failure. -/
  | recordCommit (fails : Fin 3)
  /-- SYS_RST_N_DEASSERT (R643): SYS_RST_N rises, the straps are sampled and start-up begins at stage 0. -/
  | sysRstNDeassert (straps : BitVec 3)
  /-- BOOT_ROM (R644): Stage 0 locks PLLs, reads fuses and the board record, and enables configuration responses. -/
  | bootRom (pllOk : Bool) (jedec : Option (BitVec 24))
  /-- FIRMWARE_CHECK (R633): Stage 1 chooses and verifies a firmware image. -/
  | firmwareCheck (sig0 sig1 : Bool)
  /-- BOARD_RECORD (R644): Stage 2 applies the board words, the pin map and the PMBus set-up. -/
  | boardRecord (pmbus : Bool)
  /-- LP5_TRAINING (R644): Stage 3 trains the LP5 channels. -/
  | lp5Training (ok : Bool)
  /-- SELF_TEST_AND_MAP (R598): Stage 4 reads the wear record, runs the KATs and writes the disabled-unit map. -/
  | selfTestAndMap (uncore : Bool) (fails : List Nat)
  /-- POWER_SAMPLE (R650): Every millisecond, rail power is sampled and at each window end the power ceiling moves. -/
  | powerSample (r : Option PmbusSample)
  /-- THERMAL_SAMPLE (R651): Every millisecond, the 20 sensors are read and the thermal ceiling moves. -/
  | thermalSample (temps : List (BitVec 16))
  /-- THERMTRIP (R652): A sensor reaches the trip, THERMTRIP_N is asserted and the PLLs stop. -/
  | thermtrip (sensor : Fin 20)
  /-- PIN_CFG_WRITE (R671): A write of PIN_k_CFG to a HOST or LINE pin changes its functions, sleep, pull and debounce. -/
  | pinCfgWrite (k : Fin 64) (v : Word)
  /-- PIN_SET (R668): Set GPIO output bits of HOST pins. -/
  | pinSet (b : Fin 8) (v : Word)
  /-- PIN_CLR (R668): Clear GPIO output bits of HOST pins. -/
  | pinClr (b : Fin 8) (v : Word)
  /-- PIN_TGL (R668): Invert GPIO output bits of HOST pins. -/
  | pinTgl (b : Fin 8) (v : Word)
  /-- PIN_EN_SET (R674): Set bridge and deserializer enable bits. -/
  | pinEnSet (v : Word)
  /-- PIN_EN_CLR (R674): Clear bridge and deserializer enable bits. -/
  | pinEnClr (v : Word)
  /-- PIN_EN_TGL (R674): Invert bridge and deserializer enable bits. -/
  | pinEnTgl (v : Word)
  /-- PIN_INPUT_CHANGE (R669): A synchronised pin level changes and PIN_IN follows when it is not debounced. -/
  | pinInputChange (k : Fin 64) (v : Option Bool)
  /-- DEBOUNCE_EXPIRY (R669): A level held for PERIOD microseconds replaces the debounced PIN_IN value. -/
  | debounceExpiry (k : Fin 64)
  /-- I2C_XFER (R676): A write of I2C_n_XFER with GO starts one write, read or combined transfer. -/
  | i2cXfer (n : Fin 2) (v : Word)
  /-- I2C_DONE (R676): The transfer ends with STOP, BUSY clears and NACK is recorded if any. -/
  | i2cDone (n : Fin 2) (r : I2cReply)
  /-- I2C_TIMEOUT (R676): SCL held low for 25 ms ends the transfer with TIMEOUT. -/
  | i2cTimeout (n : Fin 2) (bytes : List Byte)
  /-- SPIT_READ (R677): A 0x0B frame on the SPI target reads status registers from the address given. -/
  | spitRead (a : BitVec 24) (words : Nat)
  /-- SPIT_OTHER_COMMAND (R677): An SPI target frame with any other command returns zeros. -/
  | spitOtherCommand (cmd : Byte) (bytes : Nat)
  /-- EXTEST (R679): JTAG EXTEST drives the balls from the boundary register when STRAP_1 is 1. -/
  | extest (shift : BitVec 198)
  /-- SAMPLE_PRELOAD (R679): JTAG SAMPLE/PRELOAD captures and loads the boundary register. -/
  | samplePreload (shift : BitVec 198)
  /-- LANE_LOCK_LOSS (R575): The receiver of a Virzel port loses lock on a lane, and the port sets RETRAIN and retrains from LOCK. -/
  | laneLockLoss (p : Fin 4)
  /-- PCIE_LINK_UP (R106): The PCI Express link completes training at its negotiated width and rate, shown in HIU_STATUS. -/
  | pcieLinkUp (width : Fin 9) (l : LinkStart)
  /-- CONFIGURATION_REQUEST (R108): A configuration read or write reaches the function; it completes with Retry Status before stage 0 ends or during an FLR, and otherwise sets fields such as Bus Master Enable and Memory Space Enable. -/
  | configurationRequest (r : CfgReq)
  /-- NOT_READY_READ (R103): A BAR0 read outside the ranges then live, while READY is 0 or in STANDBY, returns 0 and sets NOT_READY; every BAR0 read completes after earlier writes. The operands are one read TLP and its space. -/
  | notReadyRead (space : Fin 3) (r : ReadTlp)
  /-- FSYNC_IN_EDGE (R51): An active FSYNC_IN edge is a frame event of sources EXT and EXT_F. -/
  | fsyncInEdge
  /-- LSYNC_IN_EDGE (R51): An active LSYNC_IN edge is a line event of source EXT. -/
  | lsyncInEdge
  /-- SOURCE_LOST (R79): LOSS_COUNT expected events fail to arrive, and LT continues on flywheel or begins a switch to the fallback. -/
  | sourceLost
  /-- SOURCE_RECOVERED (R80): RELOCK_COUNT good real events arrive from a lost source. -/
  | sourceRecovered
  /-- LSYNC_OUT_END (R77): LS_WIDTH REF periods after a line start, LSYNC_OUT is deasserted. -/
  | lsyncOutEnd
  /-- FSYNC_OUT_END (R77): FS_WIDTH lines after a frame start, FSYNC_OUT is deasserted. -/
  | fsyncOutEnd
  /-- DESCRIPTOR_FETCH (R128): The CFE fetches the next descriptor of a stream once the ring, the device and a completion slot have room. -/
  | descriptorFetch
  /-- CFE_DISPATCH (R131): The CFE hands a held descriptor to its unit, applying gate policy, class budget and gated ordering. -/
  | cfeDispatch
  /-- RETIREMENT (R132): A unit reports completion or a status is decided, and the CFE signals, writes the record, advances CQ_TAIL and evaluates the interrupt. -/
  | retirement
  /-- NOP (R119): A NOP descriptor does nothing and retires. -/
  | nop
  /-- SIGNAL (R155): A SIGNAL descriptor raises a sync object's counter to its value. -/
  | signal
  /-- TIMESTAMP (R121): A TIMESTAMP records LT and REFCOUNT of its retirement cycle, in memory and in the record. -/
  | timestamp
  /-- CHECKPOINT (R545): A CHECKPOINT closes its segment's digests and, on a checked twin ring, exchanges and judges them. -/
  | checkpoint
  /-- RENDER_PASS (R417): A RENDER_PASS runs geometry, binning and tile shading for its state block. -/
  | renderPass
  /-- DISPATCH (R234): A DISPATCH runs its grid of blocks of heats on the cores. -/
  | dispatch
  /-- LAYER (R357): A LAYER runs one layer program, streamed from a camera or not. -/
  | layer
  /-- LIFT (R201): A LIFT descriptor moves rows on a cluster's lift engine, optionally packing or unpacking. -/
  | lift
  /-- PACK (R509): A PACK descriptor packs its blocks on one CMP instance. -/
  | pack
  /-- UNPACK (R509): An UNPACK descriptor unpacks and checks its blocks on one CMP instance. -/
  | unpack
  /-- CACHE_RANGE_CLEAN (R204): CACHE_RANGE with OP 1 writes the dirty bytes of the range to DRAM. -/
  | cacheRangeClean
  /-- CACHE_RANGE_INVALIDATE (R204): CACHE_RANGE with OP 2 discards the range's lines, dirty bytes included. -/
  | cacheRangeInvalidate
  /-- CACHE_RANGE_CLEAN_INVALIDATE (R204): CACHE_RANGE with OP 3 writes the dirty bytes, then discards the lines. -/
  | cacheRangeCleanInvalidate
  /-- HEAP_GRANT_BIN_CHUNK (R224): A HEAP_GRANT with KIND 0 adds a chunk to a slot's bin heap and re-evaluates a pending growth request. -/
  | heapGrantBinChunk
  /-- HEAP_GRANT_RESERVE (R223): A HEAP_GRANT with KIND 1 adds units to a slot's heap reserve, or is refused. -/
  | heapGrantReserve
  /-- HEAP_GRANT_DENY (R229): A HEAP_GRANT with DENY 1 ends the slot's growth request, and its waiting passes retire BIN_GROW_DENIED. -/
  | heapGrantDeny
  /-- LOAD (R161): CONTEXT_CTRL LOAD loads an image into a free slot, or starts an update of a loaded one. -/
  | load
  /-- TEARDOWN (R166): CONTEXT_CTRL TEARDOWN loses the slot and begins its release. -/
  | teardown
  /-- MARK_LOST (R161): CONTEXT_CTRL MARK_LOST loses a loaded slot. -/
  | markLost
  /-- QUERY (R161): CONTEXT_CTRL QUERY writes the slot's 64-byte image and state to memory. -/
  | query
  /-- CHAIN (R135): A CHAIN makes the fetch stage fetch COUNT descriptors from TARGET before resuming the ring. -/
  | chain
  /-- CONTEXT_UPDATE (R163): When the updated slot's rings have drained, the new image replaces the old, or the update is refused. -/
  | contextUpdate
  /-- TEARDOWN_RELEASE (R166): When the slot has no work, waits or poison walk left, its ownership is released and it becomes FREE. -/
  | teardownRelease
  /-- SETWAY_DONE (R205): The set-and-way operation completes and SETWAY_BUSY clears. -/
  | setwayDone
  /-- MMU_INV_DONE (R206): Every access translated with an invalidated entry has completed, and INV_BUSY clears. -/
  | mmuInvDone
  /-- WINDOW_ALLOCATE (R370): A waiting request takes its free work-area granules on every cluster it needs. -/
  | windowAllocate
  /-- STEP_COMPLETE (R364): A layer step's instruction or block completes, and gates and overrun are judged. -/
  | stepComplete
  /-- PATCH_TESSELLATE (R393): The tessellator divides a patch into its ring pattern of points and triangles. -/
  | patchTessellate
  /-- PRIMITIVE_SETUP (R396): A primitive is assembled, clipped, culled, mapped and snapped. -/
  | primitiveSetup
  /-- BIN_PRIMITIVE (R410): The BIN appends a primitive to the lists of every tile it touches. -/
  | binPrimitive
  /-- HELLO (R531): A received HELLO that matches the set-up moves the device to CHECKED. -/
  | hello
  /-- HELLO_RESEND (R531): Every 1,024 REF cycles in PAIRING, the device sends a HELLO again. -/
  | helloResend
  /-- DESC (R538): A DESC record makes a descriptor visible on the secondary's twin ring. -/
  | desc
  /-- WRITE (R537): A WRITE record is applied on the secondary as a BAR4 write. -/
  | write
  /-- SYNC (R537): A SYNC record initialises, signals or poisons a sync object on the secondary. -/
  | sync
  /-- LT (R543): An LT record from the primary schedules a line or frame event of the TWIN source. -/
  | lt
  /-- TWIN_LT_EVENT (R543): At arrival minus LATENCY plus HOLD, the received event takes effect in the TWIN source position. -/
  | twinLtEvent
  /-- CKPT (R545): The peer's CKPT record is compared with the local digests to form a verdict or start a repeat. -/
  | ckpt
  /-- VERDICT (R549): The peer's VERDICT is compared, and the CHECKPOINT retires with the verdict. -/
  | verdict
  /-- LOSS (R542): A LOSS record loses the same slot on the receiving twin. -/
  | loss
  /-- ECHO_REQUEST (R552): Every ECHO_INTERVAL lines, a twin sends an ECHO request. -/
  | echoRequest
  /-- STRIP (R558): A STRIP record's digest is compared with the local strip digest. -/
  | strip
  /-- MIRROR_THROTTLE_RELEASE (R540): A source waiting for the mirror data queue proceeds once its records fit. -/
  | mirrorThrottleRelease
  /-- PACKET_FORWARD (R579): A packet for another device is routed to its next hop by dimension order. -/
  | packetForward
  /-- VZL_READ (R583): A READ request at its target reads the inbound window and responds. -/
  | vzlRead
  /-- VZL_WRITE (R583): A WRITE request at its target writes the inbound window and responds. -/
  | vzlWrite
  /-- VZL_ATOMIC (R583): An ATOMIC request at its target is performed at its L2 and responds. -/
  | vzlAtomic
  /-- VZL_SIGNAL (R583): A SIGNAL request at its target signals the object for VZL_IN_SIG's slot. -/
  | vzlSignal
  /-- RESP (R581): A response completes its request and frees its tag. -/
  | resp
  /-- PERIODIC_SWEEP (R602): KAT_PERIOD hours after the last sweep, every cluster is tested in turn. -/
  | periodicSweep
  /-- DRAIN_GRACE_EXPIRY (R607): After DRAIN_GRACE lines, every running descriptor is cancelled. -/
  | drainGraceExpiry
  /-- CALENDAR_TICK (R615): Every 32 oscillator periods, the calendar advances one tick. -/
  | calendarTick
  /-- WAKE_IN (R614): A rising edge on WAKE_IN wakes the board or ends STANDBY. -/
  | wakeIn
  /-- VDD_AON_RISE (R617): VDD_AON comes up from absent, and the always-on domain resets with LOST set. -/
  | vddAonRise
  /-- GET_VERSION (R627): Mailbox request returning firmware versions and the fused minimum SVN. -/
  | getVersion
  /-- GET_BOOT (R627): Mailbox request returning the last start-up's stage and cause. -/
  | getBoot
  /-- SET_CALENDAR (R616): Mailbox request setting the calendar at the next tick. -/
  | setCalendar
  /-- SET_ALARM (R627): Mailbox request setting or clearing the alarm. -/
  | setAlarm
  /-- READ_COUNTERS (R627): Mailbox request returning wear counters. -/
  | readCounters
  /-- READ_LOG (R627): Mailbox request returning bytes of a committed wear record. -/
  | readLog
  /-- REQUEST_KAT (R632): Mailbox request queuing fenced KATs of the named clusters. -/
  | requestKat
  /-- REQUEST_DRAIN (R627): Mailbox request draining the device with cause HOST. -/
  | requestDrain
  /-- WRITE_SNAPSHOT (R629): Mailbox request writing a STATE record and a full SNAPSHOT set. -/
  | writeSnapshot
  /-- SNAPSHOT_TIMER (R629): Every 4 hours of powered time, a STATE record and a SNAPSHOT set are written. -/
  | snapshotTimer
  /-- GROOMER_WATCHDOG (R642): The 1 s groomer watchdog expires and the device takes a DEVICE reset. -/
  | groomerWatchdog
  /-- SYS_RST_N_ASSERT (R639): SYS_RST_N low resets the DEVICE scope. -/
  | sysRstNAssert
  /-- MAIN_RAIL_DIP (R685): A main rail below 95 % of its minimum for 2 µs causes a DEVICE reset. -/
  | mainRailDip
  /-- PERST_N_ASSERT (R108): PERST_N low resets the FUNCTION scope. -/
  | perstNAssert
  /-- HOT_RESET (R108): A hot reset resets the FUNCTION scope. -/
  | hotReset
  /-- LINK_DOWN (R108): A PCI Express link-down event resets the FUNCTION scope. -/
  | linkDown
  /-- FUNCTION_LEVEL_RESET (R108): An FLR resets the FUNCTION scope within 100 ms. -/
  | functionLevelReset
  /-- FUNCTION_RESET_END (R641): At the end of a FUNCTION reset, boot values are reloaded and stages 4 and 5 run. -/
  | functionResetEnd
  /-- READY (R644): Stage 5 sets HIU_STATUS.READY. -/
  | ready
  /-- DVFS_REEVALUATE (R648): A change of target or ceiling chooses a new DVFS point and starts a change. -/
  | dvfsReevaluate
  /-- DVFS_CHANGE_COMPLETE (R649): Rails and PLL reach the new point and DVFS_BUSY clears. -/
  | dvfsChangeComplete
  /-- PSTATE_ACTIVE (R655): PMU_PSTATE.TARGET 0 ends STANDBY. -/
  | pstateActive
  /-- PSTATE_STANDBY (R654): PMU_PSTATE.TARGET 1 requests STANDBY, which is accepted or refused. -/
  | pstateStandby
  /-- PSTATE_OFF (R654): PMU_PSTATE.TARGET 2 requests OFF, which is accepted or refused. -/
  | pstateOff
  /-- STANDBY_ENTRY (R655): STANDBY is reached, clocks are stopped and pins take their sleep states. -/
  | standbyEntry
  /-- STANDBY_EXIT (R655): A wake or write returns the device to ACTIVE. -/
  | standbyExit
  /-- OFF_READY (R656): Records are committed, pins sleep and OFF_READY is asserted. -/
  | offReady
  /-- TAP_RESET (R679): A JTAG TAP reset selects IDCODE. -/
  | tapReset
  /-- IDCODE (R679): JTAG IDCODE selects the 32-bit identification register. -/
  | idcode
  /-- CLAMP (R679): JTAG CLAMP holds the boundary outputs and selects bypass when STRAP_1 is 1. -/
  | clamp
  /-- HIGHZ (R679): JTAG HIGHZ floats the balls and selects bypass when STRAP_1 is 1. -/
  | highz
  /-- BYPASS (R679): JTAG BYPASS or any other code selects the 1-bit bypass register. -/
  | bypass
  /-- LOSS_TOLERANCE_EXPIRY (R78): The tolerance after a real event of the active or recovering source passes with no event, so a missed expected event is counted toward loss or the re-lock count starts again. -/
  | lossToleranceExpiry
  /-- PERST_N_DEASSERT (R106): PERST_N rises, the PCI Express link leaves Detect and the READY deadline of R106 starts. -/
  | perstNDeassert
  /-- MAILBOX_RESPONSE (R632): The groomer completes a mailbox request, writes GRM_RSP with its RESULT, clears BUSY and sets RESPONSE. -/
  | mailboxResponse
deriving DecidableEq, Repr

end Sys2Proof
end

