-- ==== Sys2Proof/Config.lean ====
section
/-!
DEFINITION. The free values: what the spec leaves open, as constants without a body. Each is applied to the model's
own counter of free values drawn (State.freeCtr, log entry 1), so that nothing says what any of them is.
-/

namespace Sys2Proof

/-- A choice between two that the spec leaves open. -/
opaque Config.freeBit : Nat → BitVec 1

/-- A byte whose value the spec leaves open. -/
opaque Config.freeByte : Nat → Byte

/-- A 32-bit value that the spec leaves open. -/
opaque Config.freeWord : Nat → Word

/-- A 64-bit value that the spec leaves open. -/
opaque Config.freeDWord : Nat → DWord

/-- Where a capability of configuration space lies: pointer 0 is the header's, the others are those to the next capability.
The spec places no capability at an offset. -/
opaque Config.capPointer : Nat → Byte

end Sys2Proof
end

