-- ==== Sys2Proof/Machine/Bits.lean ====
section
/-!
DEFINITION. Bit fields and small arithmetic helpers (spec/00_scope.md R11): a field [hi:lo] of a word as an
unsigned number, a word with one field replaced, saturating counters and sign extension.
-/

namespace Sys2Proof.Machine

/-- The w-bit field of a word that starts at bit lo, as an unsigned number (R11). -/
def fld {n : Nat} (x : BitVec n) (lo w : Nat) : Nat := (x.toNat >>> lo) % 2 ^ w

/-- The word with its w-bit field at bit lo replaced by v modulo 2^w. -/
def setFld {n : Nat} (x : BitVec n) (lo w v : Nat) : BitVec n :=
  BitVec.ofNat n (x.toNat - (fld x lo w) * 2 ^ lo + (v % 2 ^ w) * 2 ^ lo)

/-- Bit i of a word. -/
def bit {n : Nat} (x : BitVec n) (i : Nat) : Bool := x.getLsbD i

/-- 1 for true, 0 for false. -/
def b2n (b : Bool) : Nat := if b then 1 else 0

/-- The field of a natural number that starts at bit lo and is w bits wide. -/
def nfld (x lo w : Nat) : Nat := (x >>> lo) % 2 ^ w

/-- Adds k to a 32-bit counter that saturates at 0xFFFF_FFFF. -/
def satAdd32 (x : Word) (k : Nat) : Word := BitVec.ofNat 32 (min (x.toNat + k) 0xFFFFFFFF)

/-- The two's complement value of the low w bits of x (R13). -/
def sext (x w : Nat) : Int :=
  let y := x % 2 ^ w
  if y < 2 ^ (w - 1) then (y : Int) else (y : Int) - (2 ^ w : Nat)

/-- An integer modulo 2^w as an unsigned number. -/
def wrapU (x : Int) (w : Nat) : Nat := (x % ((2 ^ w : Nat) : Int)).toNat

/-- Whether a bit is set in a mask given as a number. -/
def maskBit (m i : Nat) : Bool := m.testBit i

/-- The number of ones in the low w bits of x. -/
def popCount (x : Nat) : Nat → Nat
  | 0 => 0
  | w + 1 => b2n (x.testBit w) + popCount x w

/-- The list of the indices below w of the ones of x, in rising order. -/
def onesBelow (x w : Nat) : List Nat := (List.range w).filter fun i => x.testBit i

/-- Replaces element i of a list; a list too short is left as it is. -/
def setAt {α : Type} (l : List α) (i : Nat) (v : α) : List α := l.set i v

/-- Changes element i of a list by f; a list too short is left as it is. -/
def modAt {α : Type} : List α → Nat → (α → α) → List α
  | [], _, _ => []
  | x :: xs, 0, f => f x :: xs
  | x :: xs, i + 1, f => x :: modAt xs i f

/-- Ceiling division. -/
def ceilDiv (a b : Nat) : Nat := (a + b - 1) / b

end Sys2Proof.Machine
end

