-- ==== Sys2Proof/Machine/RegMap.lean ====
section
/-!
DEFINITION. The BAR0 register map: one named offset per register of spec/ (R37 gives the block bases; each
register map's own rule gives the offset inside its block), and one row per register with its access masks
(R14 to R17), its reset value (R24), the lock bit that guards its RWL fields (R15) and its reset scope (R640).
-/

namespace Sys2Proof.Machine

/-- The reset scopes of R639 and R640, widest first. -/
inductive Scope where
  | aon
  | device
  | function
deriving DecidableEq, Repr

/-- Which half of a 64-bit pair of R19 a register is. -/
inductive PairHalf where
  | single
  | lo
  | hi
deriving DecidableEq, Repr

/-- One row of the register map.
Copy (i, j) of the register lies at base + s1 * i + s2 * j.
The masks name the bits of each access code; a bit in none of them reads 0 (R16) or is RO.
lock is the offset of the guarding lock register, 0 for none, and moves with i by lockStep. -/
structure RegRow where
  name : String
  base : Nat
  s1 : Nat
  n1 : Nat
  s2 : Nat
  n2 : Nat
  reset : Nat
  rw : Nat
  rwl : Nat
  w1c : Nat
  w1s : Nat
  lock : Nat
  lockStep : Nat
  pair : PairHalf
  scope : Scope
deriving DecidableEq, Repr

end Sys2Proof.Machine

namespace Sys2Proof.Machine.Reg

/-- LTB_CTRL (02_line_time, R83). -/
abbrev ltbCtrl : Nat := 0x600000

/-- LTB_SRC (02_line_time, R83). -/
abbrev ltbSrc : Nat := 0x600004

/-- LTB_NOMINAL (02_line_time, R83). -/
abbrev ltbNominal : Nat := 0x600008

/-- LTB_NOM_PERIOD (02_line_time, R83). -/
abbrev ltbNomPeriod : Nat := 0x60000C

/-- LTB_LOSS (02_line_time, R83). -/
abbrev ltbLoss : Nat := 0x600010

/-- LTB_EXT (02_line_time, R83). -/
abbrev ltbExt : Nat := 0x600014

/-- LTB_SYNC_OUT (02_line_time, R83). -/
abbrev ltbSyncOut : Nat := 0x600018

/-- LTB_URGENCY (02_line_time, R83). -/
abbrev ltbUrgency : Nat := 0x60001C

/-- LTB_NOW_LO (02_line_time, R83). -/
abbrev ltbNowLo : Nat := 0x600030

/-- LTB_NOW_HI (02_line_time, R83). -/
abbrev ltbNowHi : Nat := 0x600034

/-- LTB_REFCOUNT_LO (02_line_time, R83). -/
abbrev ltbRefcountLo : Nat := 0x600038

/-- LTB_REFCOUNT_HI (02_line_time, R83). -/
abbrev ltbRefcountHi : Nat := 0x60003C

/-- LTB_STATUS (02_line_time, R83). -/
abbrev ltbStatus : Nat := 0x600040

/-- LTB_EVENTS (02_line_time, R83). -/
abbrev ltbEvents : Nat := 0x600044

/-- LTB_EVENT_EN (02_line_time, R83). -/
abbrev ltbEventEn : Nat := 0x600048

/-- LTB_PERIOD (02_line_time, R83). -/
abbrev ltbPeriod : Nat := 0x60004C

/-- LTB_SKIPPED_LINES (02_line_time, R83). -/
abbrev ltbSkippedLines : Nat := 0x600050

/-- LTB_LOSS_EVENTS (02_line_time, R83). -/
abbrev ltbLossEvents : Nat := 0x600054

/-- LTB_POS_s_LO (02_line_time, R83). -/
abbrev ltbPosLo (i : Nat) : Nat := 0x600060 + 0x8 * i

/-- LTB_POS_s_HI (02_line_time, R83). -/
abbrev ltbPosHi (i : Nat) : Nat := 0x600064 + 0x8 * i

/-- LTB_LOCK (02_line_time, R83). -/
abbrev ltbLock : Nat := 0x6000C0

/-- HIU_ID (03_host_link, R102). -/
abbrev hiuId : Nat := 0x0

/-- HIU_STATUS (03_host_link, R102). -/
abbrev hiuStatus : Nat := 0x4

/-- HIU_ERR (03_host_link, R102). -/
abbrev hiuErr : Nat := 0x8

/-- HIU_ERR_EN (03_host_link, R102). -/
abbrev hiuErrEn : Nat := 0xC

/-- HIU_ERR_ADDR_LO (03_host_link, R102). -/
abbrev hiuErrAddrLo : Nat := 0x10

/-- HIU_ERR_ADDR_HI (03_host_link, R102). -/
abbrev hiuErrAddrHi : Nat := 0x14

/-- HIU_BAR4_BASE_LO (03_host_link, R102). -/
abbrev hiuBar4BaseLo : Nat := 0x18

/-- HIU_BAR4_BASE_HI (03_host_link, R102). -/
abbrev hiuBar4BaseHi : Nat := 0x1C

/-- HIU_IRQ_ACK_i (03_host_link, R102). -/
abbrev hiuIrqAck (i : Nat) : Nat := 0x20 + 0x4 * i

/-- HIU_IRQ_CAUSE_i (03_host_link, R102). -/
abbrev hiuIrqCause (i : Nat) : Nat := 0x30 + 0x4 * i

/-- HIU_SWINT (03_host_link, R102). -/
abbrev hiuSwint : Nat := 0x40

/-- HIU_REPLAYS (03_host_link, R102). -/
abbrev hiuReplays : Nat := 0x44

/-- HIU_RX_ERRS (03_host_link, R102). -/
abbrev hiuRxErrs : Nat := 0x48

/-- CFE_STATUS (04_uhlulo_protocol, R142). -/
abbrev cfeStatus : Nat := 0x100000

/-- CFE_ERR (04_uhlulo_protocol, R142). -/
abbrev cfeErr : Nat := 0x100004

/-- CFE_ERR_EN (04_uhlulo_protocol, R142). -/
abbrev cfeErrEn : Nat := 0x100008

/-- CFE_ERR_CAPTURE (04_uhlulo_protocol, R142). -/
abbrev cfeErrCapture : Nat := 0x10000C

/-- CFE_INFLIGHT (04_uhlulo_protocol, R142). -/
abbrev cfeInflight : Nat := 0x100010

/-- CFE_CQ_EVENT_0 (04_uhlulo_protocol, R142). -/
abbrev cfeCqEvent0 : Nat := 0x100020

/-- CFE_CQ_EVENT_1 (04_uhlulo_protocol, R142). -/
abbrev cfeCqEvent1 : Nat := 0x100024

/-- CFE_CQ_EVENT_EN_0 (04_uhlulo_protocol, R142). -/
abbrev cfeCqEventEn0 : Nat := 0x100028

/-- CFE_CQ_EVENT_EN_1 (04_uhlulo_protocol, R142). -/
abbrev cfeCqEventEn1 : Nat := 0x10002C

/-- RING_n_SQ_BASE_LO (04_uhlulo_protocol, R142). -/
abbrev ringSqBaseLo (i : Nat) : Nat := 0x110000 + 0x40 * i

/-- RING_n_SQ_BASE_HI (04_uhlulo_protocol, R142). -/
abbrev ringSqBaseHi (i : Nat) : Nat := 0x110004 + 0x40 * i

/-- RING_n_CQ_BASE_LO (04_uhlulo_protocol, R142). -/
abbrev ringCqBaseLo (i : Nat) : Nat := 0x110008 + 0x40 * i

/-- RING_n_CQ_BASE_HI (04_uhlulo_protocol, R142). -/
abbrev ringCqBaseHi (i : Nat) : Nat := 0x11000C + 0x40 * i

/-- RING_n_CFG (04_uhlulo_protocol, R142). -/
abbrev ringCfg (i : Nat) : Nat := 0x110010 + 0x40 * i

/-- RING_n_SQ_TAIL (04_uhlulo_protocol, R142). -/
abbrev ringSqTail (i : Nat) : Nat := 0x110014 + 0x40 * i

/-- RING_n_SQ_HEAD (04_uhlulo_protocol, R142). -/
abbrev ringSqHead (i : Nat) : Nat := 0x110018 + 0x40 * i

/-- RING_n_CQ_TAIL (04_uhlulo_protocol, R142). -/
abbrev ringCqTail (i : Nat) : Nat := 0x11001C + 0x40 * i

/-- RING_n_CQ_HEAD (04_uhlulo_protocol, R142). -/
abbrev ringCqHead (i : Nat) : Nat := 0x110020 + 0x40 * i

/-- RING_n_SEQ (04_uhlulo_protocol, R142). -/
abbrev ringSeq (i : Nat) : Nat := 0x110024 + 0x40 * i

/-- RING_n_STATE (04_uhlulo_protocol, R142). -/
abbrev ringState (i : Nat) : Nat := 0x110028 + 0x40 * i

/-- RING_n_LIMIT (04_uhlulo_protocol, R142). -/
abbrev ringLimit (i : Nat) : Nat := 0x11002C + 0x40 * i

/-- CTX_STATUS (05_contexts_and_objects, R172). -/
abbrev ctxStatus : Nat := 0x200000

/-- CTX_EVENTS (05_contexts_and_objects, R172). -/
abbrev ctxEvents : Nat := 0x200004

/-- CTX_EVENT_EN (05_contexts_and_objects, R172). -/
abbrev ctxEventEn : Nat := 0x200008

/-- CTX_SIG_REJECTS (05_contexts_and_objects, R172). -/
abbrev ctxSigRejects : Nat := 0x20000C

/-- CTX_SIG_REJECT_LAST (05_contexts_and_objects, R172). -/
abbrev ctxSigRejectLast : Nat := 0x200010

/-- CTX_SYNC_TABLE_LO (05_contexts_and_objects, R172). -/
abbrev ctxSyncTableLo : Nat := 0x200018

/-- CTX_SYNC_TABLE_HI (05_contexts_and_objects, R172). -/
abbrev ctxSyncTableHi : Nat := 0x20001C

/-- CTX_SYNC_INIT_VAL_LO (05_contexts_and_objects, R172). -/
abbrev ctxSyncInitValLo : Nat := 0x200020

/-- CTX_SYNC_INIT_VAL_HI (05_contexts_and_objects, R172). -/
abbrev ctxSyncInitValHi : Nat := 0x200024

/-- CTX_SYNC_INIT (05_contexts_and_objects, R172). -/
abbrev ctxSyncInit : Nat := 0x200028

/-- CTX_LOCK (05_contexts_and_objects, R172). -/
abbrev ctxLock : Nat := 0x20002C

/-- CTX0_PT_ROOT_LO (05_contexts_and_objects, R172). -/
abbrev ctx0PtRootLo : Nat := 0x200040

/-- CTX0_PT_ROOT_HI (05_contexts_and_objects, R172). -/
abbrev ctx0PtRootHi : Nat := 0x200044

/-- CTX0_RINGS_LO (05_contexts_and_objects, R172). -/
abbrev ctx0RingsLo : Nat := 0x200048

/-- CTX0_RINGS_HI (05_contexts_and_objects, R172). -/
abbrev ctx0RingsHi : Nat := 0x20004C

/-- CTX0_CFG (05_contexts_and_objects, R172). -/
abbrev ctx0Cfg : Nat := 0x200050

/-- CTX0_LIMITS (05_contexts_and_objects, R172). -/
abbrev ctx0Limits : Nat := 0x200054

/-- CTX0_HEAP_LIMIT (05_contexts_and_objects, R172). -/
abbrev ctx0HeapLimit : Nat := 0x200058

/-- CTX0_CTRL (05_contexts_and_objects, R172). -/
abbrev ctx0Ctrl : Nat := 0x20005C

/-- CTX_LOADED_i (05_contexts_and_objects, R172). -/
abbrev ctxLoaded (i : Nat) : Nat := 0x200060 + 0x4 * i

/-- CTX_LOST_i (05_contexts_and_objects, R172). -/
abbrev ctxLost (i : Nat) : Nat := 0x200070 + 0x4 * i

/-- CTX_c_STATE (05_contexts_and_objects, R172). -/
abbrev ctxState (i : Nat) : Nat := 0x201000 + 0x10 * i

/-- CTX_c_LOST_SEQ (05_contexts_and_objects, R172). -/
abbrev ctxLostSeq (i : Nat) : Nat := 0x201004 + 0x10 * i

/-- CTX_c_COUNTS (05_contexts_and_objects, R172). -/
abbrev ctxCounts (i : Nat) : Nat := 0x201008 + 0x10 * i

/-- MMU_STATUS (06_memory_hierarchy, R209). -/
abbrev mmuStatus : Nat := 0x300000

/-- MMU_EVENTS (06_memory_hierarchy, R209). -/
abbrev mmuEvents : Nat := 0x300004

/-- MMU_EVENT_EN (06_memory_hierarchy, R209). -/
abbrev mmuEventEn : Nat := 0x300008

/-- MMU_FAULT_ADDR_LO (06_memory_hierarchy, R209). -/
abbrev mmuFaultAddrLo : Nat := 0x300010

/-- MMU_FAULT_ADDR_HI (06_memory_hierarchy, R209). -/
abbrev mmuFaultAddrHi : Nat := 0x300014

/-- MMU_FAULT_INFO (06_memory_hierarchy, R209). -/
abbrev mmuFaultInfo : Nat := 0x300018

/-- MMU_FAULT_COUNT (06_memory_hierarchy, R209). -/
abbrev mmuFaultCount : Nat := 0x30001C

/-- MMU_INV_VA_LO (06_memory_hierarchy, R209). -/
abbrev mmuInvVaLo : Nat := 0x300020

/-- MMU_INV_VA_HI (06_memory_hierarchy, R209). -/
abbrev mmuInvVaHi : Nat := 0x300024

/-- MMU_INV_PAGES (06_memory_hierarchy, R209). -/
abbrev mmuInvPages : Nat := 0x300028

/-- MMU_INV (06_memory_hierarchy, R209). -/
abbrev mmuInv : Nat := 0x30002C

/-- L2C_STATUS (06_memory_hierarchy, R210). -/
abbrev l2cStatus : Nat := 0x400000

/-- L2C_CTRL (06_memory_hierarchy, R210). -/
abbrev l2cCtrl : Nat := 0x400004

/-- L2C_SETWAY (06_memory_hierarchy, R210). -/
abbrev l2cSetway : Nat := 0x400008

/-- L2C_LOCK (06_memory_hierarchy, R210). -/
abbrev l2cLock : Nat := 0x40000C

/-- L2C_RANGE_BUSY_i (06_memory_hierarchy, R210). -/
abbrev l2cRangeBusy (i : Nat) : Nat := 0x400010 + 0x4 * i

/-- L2C_EVENTS (06_memory_hierarchy, R210). -/
abbrev l2cEvents : Nat := 0x400020

/-- L2C_EVENT_EN (06_memory_hierarchy, R210). -/
abbrev l2cEventEn : Nat := 0x400024

/-- L2C_ECC_ADDR_LO (06_memory_hierarchy, R210). -/
abbrev l2cEccAddrLo : Nat := 0x400028

/-- L2C_ECC_ADDR_HI (06_memory_hierarchy, R210). -/
abbrev l2cEccAddrHi : Nat := 0x40002C

/-- L2C_ECC_CORR_COUNT (06_memory_hierarchy, R210). -/
abbrev l2cEccCorrCount : Nat := 0x400030

/-- L2C_ECC_UNCORR_COUNT (06_memory_hierarchy, R210). -/
abbrev l2cEccUncorrCount : Nat := 0x400034

/-- MEM_CFG (06_memory_hierarchy, R211). -/
abbrev memCfg : Nat := 0x500000

/-- MEM_STATUS (06_memory_hierarchy, R211). -/
abbrev memStatus : Nat := 0x500004

/-- MEM_USABLE_LO (06_memory_hierarchy, R211). -/
abbrev memUsableLo : Nat := 0x500008

/-- MEM_USABLE_HI (06_memory_hierarchy, R211). -/
abbrev memUsableHi : Nat := 0x50000C

/-- MEM_RESERVE (06_memory_hierarchy, R211). -/
abbrev memReserve : Nat := 0x500010

/-- MEM_LOCK (06_memory_hierarchy, R211). -/
abbrev memLock : Nat := 0x500014

/-- MEM_EVENTS (06_memory_hierarchy, R211). -/
abbrev memEvents : Nat := 0x500020

/-- MEM_EVENT_EN (06_memory_hierarchy, R211). -/
abbrev memEventEn : Nat := 0x500024

/-- MEM_ECC_ADDR_LO (06_memory_hierarchy, R211). -/
abbrev memEccAddrLo : Nat := 0x500028

/-- MEM_ECC_ADDR_HI (06_memory_hierarchy, R211). -/
abbrev memEccAddrHi : Nat := 0x50002C

/-- MEM_ECC_CORR_COUNT (06_memory_hierarchy, R211). -/
abbrev memEccCorrCount : Nat := 0x500030

/-- MEM_ECC_UNCORR_COUNT (06_memory_hierarchy, R211). -/
abbrev memEccUncorrCount : Nat := 0x500034

/-- SHEET_CFG (06_memory_hierarchy, R212). -/
abbrev sheetCfg (i : Nat) : Nat := 0x1060000 + 0x100000 * i

/-- SHEET_STATUS (06_memory_hierarchy, R212). -/
abbrev sheetStatus (i : Nat) : Nat := 0x1060004 + 0x100000 * i

/-- SHEET_LOCK (06_memory_hierarchy, R212). -/
abbrev sheetLock (i : Nat) : Nat := 0x1060008 + 0x100000 * i

/-- SHEET_EVENTS (06_memory_hierarchy, R212). -/
abbrev sheetEvents (i : Nat) : Nat := 0x1060010 + 0x100000 * i

/-- SHEET_EVENT_EN (06_memory_hierarchy, R212). -/
abbrev sheetEventEn (i : Nat) : Nat := 0x1060014 + 0x100000 * i

/-- SHEET_ECC_ADDR (06_memory_hierarchy, R212). -/
abbrev sheetEccAddr (i : Nat) : Nat := 0x1060018 + 0x100000 * i

/-- SHEET_ECC_CORR_COUNT (06_memory_hierarchy, R212). -/
abbrev sheetEccCorrCount (i : Nat) : Nat := 0x106001C + 0x100000 * i

/-- SHEET_ECC_UNCORR_COUNT (06_memory_hierarchy, R212). -/
abbrev sheetEccUncorrCount (i : Nat) : Nat := 0x1060020 + 0x100000 * i

/-- LIFT_STATUS (06_memory_hierarchy, R212). -/
abbrev liftStatus (i : Nat) : Nat := 0x1070000 + 0x100000 * i

/-- LIFT_BYTES_LO (06_memory_hierarchy, R212). -/
abbrev liftBytesLo (i : Nat) : Nat := 0x1070008 + 0x100000 * i

/-- LIFT_BYTES_HI (06_memory_hierarchy, R212). -/
abbrev liftBytesHi (i : Nat) : Nat := 0x107000C + 0x100000 * i

/-- HEAP_META_BASE_LO (07_allocators_and_heaps, R232). -/
abbrev heapMetaBaseLo : Nat := 0x980000

/-- HEAP_META_BASE_HI (07_allocators_and_heaps, R232). -/
abbrev heapMetaBaseHi : Nat := 0x980004

/-- HEAP_LOCK (07_allocators_and_heaps, R232). -/
abbrev heapLock : Nat := 0x980008

/-- HEAP_EVENTS (07_allocators_and_heaps, R232). -/
abbrev heapEvents : Nat := 0x980010

/-- HEAP_EVENT_EN (07_allocators_and_heaps, R232). -/
abbrev heapEventEn : Nat := 0x980014

/-- HEAP_REFUSE (07_allocators_and_heaps, R232). -/
abbrev heapRefuse : Nat := 0x980018

/-- HEAP_BIN_PENDING_i (07_allocators_and_heaps, R232). -/
abbrev heapBinPending (i : Nat) : Nat := 0x980020 + 0x4 * i

/-- HEAP_c_VA_BASE_LO (07_allocators_and_heaps, R232). -/
abbrev heapVaBaseLo (i : Nat) : Nat := 0x981000 + 0x20 * i

/-- HEAP_c_VA_BASE_HI (07_allocators_and_heaps, R232). -/
abbrev heapVaBaseHi (i : Nat) : Nat := 0x981004 + 0x20 * i

/-- HEAP_c_UNITS (07_allocators_and_heaps, R232). -/
abbrev heapUnits (i : Nat) : Nat := 0x981008 + 0x20 * i

/-- HEAP_c_FREE_UNITS (07_allocators_and_heaps, R232). -/
abbrev heapFreeUnits (i : Nat) : Nat := 0x98100C + 0x20 * i

/-- HEAP_c_BIN_UNITS (07_allocators_and_heaps, R232). -/
abbrev heapBinUnits (i : Nat) : Nat := 0x981010 + 0x20 * i

/-- HEAP_c_BIN_REQ (07_allocators_and_heaps, R232). -/
abbrev heapBinReq (i : Nat) : Nat := 0x981014 + 0x20 * i

/-- HEAP_c_BIN_SEQ (07_allocators_and_heaps, R232). -/
abbrev heapBinSeq (i : Nat) : Nat := 0x981018 + 0x20 * i

/-- HEAP_c_BAD_FREES (07_allocators_and_heaps, R232). -/
abbrev heapBadFrees (i : Nat) : Nat := 0x98101C + 0x20 * i

/-- CLU_ID (08_heats_and_blocks, R261). -/
abbrev cluId (i : Nat) : Nat := 0x1000000 + 0x100000 * i

/-- CLU_STATUS (08_heats_and_blocks, R261). -/
abbrev cluStatus (i : Nat) : Nat := 0x1000004 + 0x100000 * i

/-- CLU_SAVE_BASE_LO (08_heats_and_blocks, R261). -/
abbrev cluSaveBaseLo (i : Nat) : Nat := 0x1000008 + 0x100000 * i

/-- CLU_SAVE_BASE_HI (08_heats_and_blocks, R261). -/
abbrev cluSaveBaseHi (i : Nat) : Nat := 0x100000C + 0x100000 * i

/-- CLU_PREEMPT (08_heats_and_blocks, R261). -/
abbrev cluPreempt (i : Nat) : Nat := 0x1000010 + 0x100000 * i

/-- CLU_LOCK (08_heats_and_blocks, R261). -/
abbrev cluLock (i : Nat) : Nat := 0x1000014 + 0x100000 * i

/-- CLU_PREEMPT_COUNT (08_heats_and_blocks, R261). -/
abbrev cluPreemptCount (i : Nat) : Nat := 0x1000018 + 0x100000 * i

/-- CORE_STATUS (08_heats_and_blocks, R261). -/
abbrev coreStatus (i : Nat) (j : Nat) : Nat := 0x1010000 + 0x100000 * i + 0x10000 * j

/-- CORE_FREE_BMEM (08_heats_and_blocks, R261). -/
abbrev coreFreeBmem (i : Nat) (j : Nat) : Nat := 0x1010004 + 0x100000 * i + 0x10000 * j

/-- CORE_ISSUED_LO (08_heats_and_blocks, R261). -/
abbrev coreIssuedLo (i : Nat) (j : Nat) : Nat := 0x1010008 + 0x100000 * i + 0x10000 * j

/-- CORE_ISSUED_HI (08_heats_and_blocks, R261). -/
abbrev coreIssuedHi (i : Nat) (j : Nat) : Nat := 0x101000C + 0x100000 * i + 0x10000 * j

/-- CORE_IDLE_LO (08_heats_and_blocks, R261). -/
abbrev coreIdleLo (i : Nat) (j : Nat) : Nat := 0x1010010 + 0x100000 * i + 0x10000 * j

/-- CORE_IDLE_HI (08_heats_and_blocks, R261). -/
abbrev coreIdleHi (i : Nat) (j : Nat) : Nat := 0x1010014 + 0x100000 * i + 0x10000 * j

/-- CORE_PREEMPTS (08_heats_and_blocks, R261). -/
abbrev corePreempts (i : Nat) (j : Nat) : Nat := 0x1010018 + 0x100000 * i + 0x10000 * j

/-- CORE_HAZARDS (09_kamir_encoding, R284). -/
abbrev coreHazards (i : Nat) (j : Nat) : Nat := 0x101001C + 0x100000 * i + 0x10000 * j

/-- TA_STATUS (11_tensor_arithmetic, R356). -/
abbrev taStatus (i : Nat) (j : Nat) : Nat := 0x1010100 + 0x100000 * i + 0x10000 * j

/-- TA_KSTEPS_LO (11_tensor_arithmetic, R356). -/
abbrev taKstepsLo (i : Nat) (j : Nat) : Nat := 0x1010108 + 0x100000 * i + 0x10000 * j

/-- TA_KSTEPS_HI (11_tensor_arithmetic, R356). -/
abbrev taKstepsHi (i : Nat) (j : Nat) : Nat := 0x101010C + 0x100000 * i + 0x10000 * j

/-- TA_SAT_OPS (11_tensor_arithmetic, R356). -/
abbrev taSatOps (i : Nat) (j : Nat) : Nat := 0x1010110 + 0x100000 * i + 0x10000 * j

/-- TA_NAN_OPS (11_tensor_arithmetic, R356). -/
abbrev taNanOps (i : Nat) (j : Nat) : Nat := 0x1010114 + 0x100000 * i + 0x10000 * j

/-- TA_UNDERFLOW_OPS (11_tensor_arithmetic, R356). -/
abbrev taUnderflowOps (i : Nat) (j : Nat) : Nat := 0x1010118 + 0x100000 * i + 0x10000 * j

/-- TA_CLIP_OPS (11_tensor_arithmetic, R356). -/
abbrev taClipOps (i : Nat) (j : Nat) : Nat := 0x101011C + 0x100000 * i + 0x10000 * j

/-- GEO_STATUS (13_geometry, R403). -/
abbrev geoStatus : Nat := 0x900000

/-- GEO_VERTS_LO (13_geometry, R403). -/
abbrev geoVertsLo : Nat := 0x900008

/-- GEO_VERTS_HI (13_geometry, R403). -/
abbrev geoVertsHi : Nat := 0x90000C

/-- GEO_PRIMS_IN_LO (13_geometry, R403). -/
abbrev geoPrimsInLo : Nat := 0x900010

/-- GEO_PRIMS_IN_HI (13_geometry, R403). -/
abbrev geoPrimsInHi : Nat := 0x900014

/-- GEO_PRIMS_OUT_LO (13_geometry, R403). -/
abbrev geoPrimsOutLo : Nat := 0x900018

/-- GEO_PRIMS_OUT_HI (13_geometry, R403). -/
abbrev geoPrimsOutHi : Nat := 0x90001C

/-- GEO_CLIPPED (13_geometry, R403). -/
abbrev geoClipped : Nat := 0x900020

/-- GEO_CULLED (13_geometry, R403). -/
abbrev geoCulled : Nat := 0x900024

/-- GEO_OOB (13_geometry, R403). -/
abbrev geoOob : Nat := 0x900028

/-- GEO_TESS_POINTS_LO (13_geometry, R403). -/
abbrev geoTessPointsLo : Nat := 0x900030

/-- GEO_TESS_POINTS_HI (13_geometry, R403). -/
abbrev geoTessPointsHi : Nat := 0x900034

/-- BIN_STATUS (14_tiles_and_bins, R430). -/
abbrev binStatus : Nat := 0x910000

/-- BIN_PRIMS_LO (14_tiles_and_bins, R430). -/
abbrev binPrimsLo : Nat := 0x910008

/-- BIN_PRIMS_HI (14_tiles_and_bins, R430). -/
abbrev binPrimsHi : Nat := 0x91000C

/-- BIN_REFS_LO (14_tiles_and_bins, R430). -/
abbrev binRefsLo : Nat := 0x910010

/-- BIN_REFS_HI (14_tiles_and_bins, R430). -/
abbrev binRefsHi : Nat := 0x910014

/-- RB_STATUS (14_tiles_and_bins, R430). -/
abbrev rbStatus (i : Nat) : Nat := 0x1050000 + 0x100000 * i

/-- RB_TILES_LO (14_tiles_and_bins, R430). -/
abbrev rbTilesLo (i : Nat) : Nat := 0x1050008 + 0x100000 * i

/-- RB_TILES_HI (14_tiles_and_bins, R430). -/
abbrev rbTilesHi (i : Nat) : Nat := 0x105000C + 0x100000 * i

/-- RB_SAMPLES_PASSED_LO (14_tiles_and_bins, R430). -/
abbrev rbSamplesPassedLo (i : Nat) : Nat := 0x1050010 + 0x100000 * i

/-- RB_SAMPLES_PASSED_HI (14_tiles_and_bins, R430). -/
abbrev rbSamplesPassedHi (i : Nat) : Nat := 0x1050014 + 0x100000 * i

/-- RB_QUADS_LAUNCHED (14_tiles_and_bins, R430). -/
abbrev rbQuadsLaunched (i : Nat) : Nat := 0x1050018 + 0x100000 * i

/-- RB_HELPER_LANES (14_tiles_and_bins, R430). -/
abbrev rbHelperLanes (i : Nat) : Nat := 0x105001C + 0x100000 * i

/-- SRING_n_CFG (15_race_rendering, R449). -/
abbrev sringCfg (i : Nat) : Nat := 0x780000 + 0x40 * i

/-- SRING_n_SIZE (15_race_rendering, R449). -/
abbrev sringSize (i : Nat) : Nat := 0x780004 + 0x40 * i

/-- SRING_n_Y0 (15_race_rendering, R449). -/
abbrev sringY0 (i : Nat) : Nat := 0x780008 + 0x40 * i

/-- SRING_n_FB_PITCH (15_race_rendering, R449). -/
abbrev sringFbPitch (i : Nat) : Nat := 0x78000C + 0x40 * i

/-- SRING_n_FB_LO (15_race_rendering, R449). -/
abbrev sringFbLo (i : Nat) : Nat := 0x780010 + 0x40 * i

/-- SRING_n_FB_HI (15_race_rendering, R449). -/
abbrev sringFbHi (i : Nat) : Nat := 0x780014 + 0x40 * i

/-- SRING_n_DIGEST_LO (15_race_rendering, R449). -/
abbrev sringDigestLo (i : Nat) : Nat := 0x780018 + 0x40 * i

/-- SRING_n_DIGEST_HI (15_race_rendering, R449). -/
abbrev sringDigestHi (i : Nat) : Nat := 0x78001C + 0x40 * i

/-- SRING_n_STATUS (15_race_rendering, R449). -/
abbrev sringStatus (i : Nat) : Nat := 0x780020 + 0x40 * i

/-- SRING_n_SHOWN (15_race_rendering, R449). -/
abbrev sringShown (i : Nat) : Nat := 0x780024 + 0x40 * i

/-- SRING_n_SUBST (15_race_rendering, R449). -/
abbrev sringSubst (i : Nat) : Nat := 0x780028 + 0x40 * i

/-- SRING_n_ECC_SUBST (15_race_rendering, R449). -/
abbrev sringEccSubst (i : Nat) : Nat := 0x78002C + 0x40 * i

/-- SRING_n_EMPTY (15_race_rendering, R449). -/
abbrev sringEmpty (i : Nat) : Nat := 0x780030 + 0x40 * i

/-- DSP_RACE_EVENTS (15_race_rendering, R449). -/
abbrev dspRaceEvents : Nat := 0x780400

/-- DSP_RACE_EVENT_EN (15_race_rendering, R449). -/
abbrev dspRaceEventEn : Nat := 0x780404

/-- DSP_PLANE_MAP_0 (16_composition, R476). -/
abbrev dspPlaneMap0 : Nat := 0x740000

/-- DSP_PLANE_MAP_1 (16_composition, R476). -/
abbrev dspPlaneMap1 : Nat := 0x740004

/-- DSP_SCALER_MAP (16_composition, R476). -/
abbrev dspScalerMap : Nat := 0x740008

/-- DSP_EVENTS (16_composition, R476). -/
abbrev dspEvents : Nat := 0x740010

/-- DSP_EVENT_EN (16_composition, R476). -/
abbrev dspEventEn : Nat := 0x740014

/-- OUT_m_BG_RG (16_composition, R476). -/
abbrev outBgRg (i : Nat) : Nat := 0x710000 + 0x100 * i

/-- OUT_m_BG_B (16_composition, R476). -/
abbrev outBgB (i : Nat) : Nat := 0x710004 + 0x100 * i

/-- OUT_m_COLOR (16_composition, R476). -/
abbrev outColor (i : Nat) : Nat := 0x710008 + 0x100 * i

/-- OUT_m_CTM (16_composition, R476). -/
abbrev outCtm (i : Nat) (j : Nat) : Nat := 0x71000C + 0x100 * i + 0x4 * j

/-- OUT_m_CTM_4 (16_composition, R476). -/
abbrev outCtm4 (i : Nat) : Nat := 0x71001C + 0x100 * i

/-- OUT_m_COMMIT_LINE (16_composition, R476). -/
abbrev outCommitLine (i : Nat) : Nat := 0x710040 + 0x100 * i

/-- OUT_m_STATUS (16_composition, R476). -/
abbrev outStatus (i : Nat) : Nat := 0x710044 + 0x100 * i

/-- OUT_m_LATCH_LO (16_composition, R476). -/
abbrev outLatchLo (i : Nat) : Nat := 0x710048 + 0x100 * i

/-- OUT_m_LATCH_HI (16_composition, R476). -/
abbrev outLatchHi (i : Nat) : Nat := 0x71004C + 0x100 * i

/-- OUT_m_COMMITS (16_composition, R476). -/
abbrev outCommits (i : Nat) : Nat := 0x710050 + 0x100 * i

/-- OUT_m_UNDERRUN (16_composition, R476). -/
abbrev outUnderrun (i : Nat) : Nat := 0x710054 + 0x100 * i

/-- OUT_m_SCAN_BASE_LO (16_composition, R476). -/
abbrev outScanBaseLo (i : Nat) : Nat := 0x710058 + 0x100 * i

/-- OUT_m_SCAN_BASE_HI (16_composition, R476). -/
abbrev outScanBaseHi (i : Nat) : Nat := 0x71005C + 0x100 * i

/-- OUT_m_SCAN_LIMIT_LO (16_composition, R476). -/
abbrev outScanLimitLo (i : Nat) : Nat := 0x710060 + 0x100 * i

/-- OUT_m_SCAN_LIMIT_HI (16_composition, R476). -/
abbrev outScanLimitHi (i : Nat) : Nat := 0x710064 + 0x100 * i

/-- OUT_m_LOCK (16_composition, R476). -/
abbrev outLock (i : Nat) : Nat := 0x710068 + 0x100 * i

/-- PLANE_p_CFG (16_composition, R476). -/
abbrev planeCfg (i : Nat) : Nat := 0x720000 + 0x80 * i

/-- PLANE_p_ADDR0_LO (16_composition, R476). -/
abbrev planeAddr0Lo (i : Nat) : Nat := 0x720004 + 0x80 * i

/-- PLANE_p_ADDR0_HI (16_composition, R476). -/
abbrev planeAddr0Hi (i : Nat) : Nat := 0x720008 + 0x80 * i

/-- PLANE_p_ADDR1_LO (16_composition, R476). -/
abbrev planeAddr1Lo (i : Nat) : Nat := 0x72000C + 0x80 * i

/-- PLANE_p_ADDR1_HI (16_composition, R476). -/
abbrev planeAddr1Hi (i : Nat) : Nat := 0x720010 + 0x80 * i

/-- PLANE_p_PITCH (16_composition, R476). -/
abbrev planePitch (i : Nat) : Nat := 0x720014 + 0x80 * i

/-- PLANE_p_SRC_POS (16_composition, R476). -/
abbrev planeSrcPos (i : Nat) : Nat := 0x720018 + 0x80 * i

/-- PLANE_p_SRC_SIZE (16_composition, R476). -/
abbrev planeSrcSize (i : Nat) : Nat := 0x72001C + 0x80 * i

/-- PLANE_p_DST_POS (16_composition, R476). -/
abbrev planeDstPos (i : Nat) : Nat := 0x720020 + 0x80 * i

/-- PLANE_p_DST_SIZE (16_composition, R476). -/
abbrev planeDstSize (i : Nat) : Nat := 0x720024 + 0x80 * i

/-- PLANE_p_ALPHA (16_composition, R476). -/
abbrev planeAlpha (i : Nat) : Nat := 0x720028 + 0x80 * i

/-- PLANE_p_CONST_RG (16_composition, R476). -/
abbrev planeConstRg (i : Nat) : Nat := 0x72002C + 0x80 * i

/-- PLANE_p_CONST_B (16_composition, R476). -/
abbrev planeConstB (i : Nat) : Nat := 0x720030 + 0x80 * i

/-- PLANE_p_STATUS (16_composition, R476). -/
abbrev planeStatus (i : Nat) : Nat := 0x720040 + 0x80 * i

/-- PLANE_p_UNDERRUN (16_composition, R476). -/
abbrev planeUnderrun (i : Nat) : Nat := 0x720044 + 0x80 * i

/-- SCL_s_STATUS (16_composition, R476). -/
abbrev sclStatus (i : Nat) : Nat := 0x730000 + 0x10 * i

/-- TG_m_CTRL (17_display_and_camera_ports, R496). -/
abbrev tgCtrl (i : Nat) : Nat := 0x700000 + 0x100 * i

/-- TG_m_PCLK (17_display_and_camera_ports, R496). -/
abbrev tgPclk (i : Nat) : Nat := 0x700004 + 0x100 * i

/-- TG_m_HTIME1 (17_display_and_camera_ports, R496). -/
abbrev tgHtime1 (i : Nat) : Nat := 0x700008 + 0x100 * i

/-- TG_m_HTIME2 (17_display_and_camera_ports, R496). -/
abbrev tgHtime2 (i : Nat) : Nat := 0x70000C + 0x100 * i

/-- TG_m_VTIME1 (17_display_and_camera_ports, R496). -/
abbrev tgVtime1 (i : Nat) : Nat := 0x700010 + 0x100 * i

/-- TG_m_VTIME2 (17_display_and_camera_ports, R496). -/
abbrev tgVtime2 (i : Nat) : Nat := 0x700014 + 0x100 * i

/-- TG_m_STATUS (17_display_and_camera_ports, R496). -/
abbrev tgStatus (i : Nat) : Nat := 0x700018 + 0x100 * i

/-- DSI_m_CFG (17_display_and_camera_ports, R496). -/
abbrev dsiCfg (i : Nat) : Nat := 0x700020 + 0x100 * i

/-- DSI_m_RATE (17_display_and_camera_ports, R496). -/
abbrev dsiRate (i : Nat) : Nat := 0x700024 + 0x100 * i

/-- DSI_m_PKT_DELAY (17_display_and_camera_ports, R496). -/
abbrev dsiPktDelay (i : Nat) : Nat := 0x700028 + 0x100 * i

/-- CSI_n_CTRL (17_display_and_camera_ports, R497). -/
abbrev csiCtrl (i : Nat) : Nat := 0x800000 + 0x80 * i

/-- CSI_n_SIZE (17_display_and_camera_ports, R497). -/
abbrev csiSize (i : Nat) : Nat := 0x800004 + 0x80 * i

/-- CSI_n_WIN (17_display_and_camera_ports, R497). -/
abbrev csiWin (i : Nat) : Nat := 0x800008 + 0x80 * i

/-- CSI_n_WIN_STRIDE (17_display_and_camera_ports, R497). -/
abbrev csiWinStride (i : Nat) : Nat := 0x80000C + 0x80 * i

/-- CSI_n_FB_BASE_LO (17_display_and_camera_ports, R497). -/
abbrev csiFbBaseLo (i : Nat) : Nat := 0x800010 + 0x80 * i

/-- CSI_n_FB_BASE_HI (17_display_and_camera_ports, R497). -/
abbrev csiFbBaseHi (i : Nat) : Nat := 0x800014 + 0x80 * i

/-- CSI_n_FB_PITCH (17_display_and_camera_ports, R497). -/
abbrev csiFbPitch (i : Nat) : Nat := 0x800018 + 0x80 * i

/-- CSI_n_FB_STRIDE (17_display_and_camera_ports, R497). -/
abbrev csiFbStride (i : Nat) : Nat := 0x80001C + 0x80 * i

/-- CSI_n_FE_SIGNAL (17_display_and_camera_ports, R497). -/
abbrev csiFeSignal (i : Nat) : Nat := 0x800020 + 0x80 * i

/-- CSI_n_ERR (17_display_and_camera_ports, R497). -/
abbrev csiErr (i : Nat) : Nat := 0x800024 + 0x80 * i

/-- CSI_n_ERR_EN (17_display_and_camera_ports, R497). -/
abbrev csiErrEn (i : Nat) : Nat := 0x800028 + 0x80 * i

/-- CSI_n_ERR_COUNT (17_display_and_camera_ports, R497). -/
abbrev csiErrCount (i : Nat) : Nat := 0x80002C + 0x80 * i

/-- CSI_n_ERR_LINE (17_display_and_camera_ports, R497). -/
abbrev csiErrLine (i : Nat) : Nat := 0x800030 + 0x80 * i

/-- CSI_n_EVENT_DELAY (17_display_and_camera_ports, R497). -/
abbrev csiEventDelay (i : Nat) : Nat := 0x800034 + 0x80 * i

/-- CSI_n_HOLD_MAX (17_display_and_camera_ports, R497). -/
abbrev csiHoldMax (i : Nat) : Nat := 0x800038 + 0x80 * i

/-- CSI_n_LINES_LAST (17_display_and_camera_ports, R497). -/
abbrev csiLinesLast (i : Nat) : Nat := 0x80003C + 0x80 * i

/-- CSI_n_FS_LT_LO (17_display_and_camera_ports, R497). -/
abbrev csiFsLtLo (i : Nat) : Nat := 0x800040 + 0x80 * i

/-- CSI_n_FS_LT_HI (17_display_and_camera_ports, R497). -/
abbrev csiFsLtHi (i : Nat) : Nat := 0x800044 + 0x80 * i

/-- CMP_i_STATUS (18_compression, R512). -/
abbrev cmpStatus (i : Nat) : Nat := 0xB00000 + 0x40 * i

/-- CMP_i_ORIG_LO (18_compression, R512). -/
abbrev cmpOrigLo (i : Nat) : Nat := 0xB00008 + 0x40 * i

/-- CMP_i_ORIG_HI (18_compression, R512). -/
abbrev cmpOrigHi (i : Nat) : Nat := 0xB0000C + 0x40 * i

/-- CMP_i_STORED_LO (18_compression, R512). -/
abbrev cmpStoredLo (i : Nat) : Nat := 0xB00010 + 0x40 * i

/-- CMP_i_STORED_HI (18_compression, R512). -/
abbrev cmpStoredHi (i : Nat) : Nat := 0xB00014 + 0x40 * i

/-- CMP_i_PACKED (18_compression, R512). -/
abbrev cmpPacked (i : Nat) : Nat := 0xB00018 + 0x40 * i

/-- CMP_i_RAW (18_compression, R512). -/
abbrev cmpRaw (i : Nat) : Nat := 0xB0001C + 0x40 * i

/-- CMP_i_UNPACKED (18_compression, R512). -/
abbrev cmpUnpacked (i : Nat) : Nat := 0xB00020 + 0x40 * i

/-- CMP_i_CHECK_ERRS (18_compression, R512). -/
abbrev cmpCheckErrs (i : Nat) : Nat := 0xB00024 + 0x40 * i

/-- CMP_EVENTS (18_compression, R512). -/
abbrev cmpEvents : Nat := 0xB00100

/-- CMP_EVENT_EN (18_compression, R512). -/
abbrev cmpEventEn : Nat := 0xB00104

/-- CMP_CHECK_ADDR_LO (18_compression, R512). -/
abbrev cmpCheckAddrLo : Nat := 0xB00108

/-- CMP_CHECK_ADDR_HI (18_compression, R512). -/
abbrev cmpCheckAddrHi : Nat := 0xB0010C

/-- CMP_CHECK_INFO (18_compression, R512). -/
abbrev cmpCheckInfo : Nat := 0xB00110

/-- CON_CTRL (19_contention, R529). -/
abbrev conCtrl : Nat := 0x100100

/-- CON_WEIGHT_0 (19_contention, R529). -/
abbrev conWeight0 : Nat := 0x100104

/-- CON_WEIGHT_1 (19_contention, R529). -/
abbrev conWeight1 : Nat := 0x100108

/-- CON_LOCK (19_contention, R529). -/
abbrev conLock : Nat := 0x10010C

/-- CON_REFUSED_BUDGET (19_contention, R529). -/
abbrev conRefusedBudget : Nat := 0x100110

/-- CON_URGENT_BURSTS (19_contention, R529). -/
abbrev conUrgentBursts : Nat := 0x100114

/-- CON_BUDGET_c (19_contention, R529). -/
abbrev conBudget (i : Nat) : Nat := 0x100200 + 0x4 * i

/-- HLT_TWIN_CTRL (20_twin_pair, R560). -/
abbrev hltTwinCtrl : Nat := 0xC10000

/-- HLT_TWIN_CFG (20_twin_pair, R560). -/
abbrev hltTwinCfg : Nat := 0xC10004

/-- HLT_TWIN_DISP (20_twin_pair, R560). -/
abbrev hltTwinDisp : Nat := 0xC10008

/-- HLT_TWIN_HOLD (20_twin_pair, R560). -/
abbrev hltTwinHold : Nat := 0xC1000C

/-- HLT_ECHO (20_twin_pair, R560). -/
abbrev hltEcho : Nat := 0xC10010

/-- HLT_TWIN_RINGS_LO (20_twin_pair, R560). -/
abbrev hltTwinRingsLo : Nat := 0xC10018

/-- HLT_TWIN_RINGS_HI (20_twin_pair, R560). -/
abbrev hltTwinRingsHi : Nat := 0xC1001C

/-- HLT_SALT_SEED_LO (20_twin_pair, R560). -/
abbrev hltSaltSeedLo : Nat := 0xC10020

/-- HLT_SALT_SEED_HI (20_twin_pair, R560). -/
abbrev hltSaltSeedHi : Nat := 0xC10024

/-- HLT_MIRROR_BASE_LO (20_twin_pair, R560). -/
abbrev hltMirrorBaseLo : Nat := 0xC10028

/-- HLT_MIRROR_BASE_HI (20_twin_pair, R560). -/
abbrev hltMirrorBaseHi : Nat := 0xC1002C

/-- HLT_MIRROR_LIMIT_LO (20_twin_pair, R560). -/
abbrev hltMirrorLimitLo : Nat := 0xC10030

/-- HLT_MIRROR_LIMIT_HI (20_twin_pair, R560). -/
abbrev hltMirrorLimitHi : Nat := 0xC10034

/-- HLT_TWIN_LOCK (20_twin_pair, R560). -/
abbrev hltTwinLock : Nat := 0xC10038

/-- HLT_TWIN_CMD (20_twin_pair, R560). -/
abbrev hltTwinCmd : Nat := 0xC1003C

/-- HLT_TWIN_STATUS (20_twin_pair, R560). -/
abbrev hltTwinStatus : Nat := 0xC10040

/-- HLT_TWIN_EVENTS (20_twin_pair, R560). -/
abbrev hltTwinEvents : Nat := 0xC10044

/-- HLT_TWIN_EVENT_EN (20_twin_pair, R560). -/
abbrev hltTwinEventEn : Nat := 0xC10048

/-- HLT_TWIN_VERDICT (20_twin_pair, R560). -/
abbrev hltTwinVerdict : Nat := 0xC1004C

/-- HLT_TWIN_USED (20_twin_pair, R560). -/
abbrev hltTwinUsed : Nat := 0xC10050

/-- HLT_LINK_LATENCY (20_twin_pair, R560). -/
abbrev hltLinkLatency : Nat := 0xC10054

/-- HLT_LINK_SKEW (20_twin_pair, R560). -/
abbrev hltLinkSkew : Nat := 0xC10058

/-- HLT_LINK_ECHO_LAST (20_twin_pair, R560). -/
abbrev hltLinkEchoLast : Nat := 0xC1005C

/-- HLT_MIRROR_QUEUE (20_twin_pair, R560). -/
abbrev hltMirrorQueue : Nat := 0xC10060

/-- HLT_TRANSIENTS (20_twin_pair, R560). -/
abbrev hltTransients : Nat := 0xC10064

/-- HLT_PERMANENTS (20_twin_pair, R560). -/
abbrev hltPermanents : Nat := 0xC10068

/-- HLT_SALT_PASSES (20_twin_pair, R560). -/
abbrev hltSaltPasses : Nat := 0xC1006C

/-- HLT_STRIP_MISMATCHES (20_twin_pair, R560). -/
abbrev hltStripMismatches : Nat := 0xC10070

/-- HLT_HOST_DROPS (20_twin_pair, R560). -/
abbrev hltHostDrops : Nat := 0xC10074

/-- HLT_MIRROR_BAD (20_twin_pair, R560). -/
abbrev hltMirrorBad : Nat := 0xC10078

/-- HLT_TG_SKEW_m (20_twin_pair, R560). -/
abbrev hltTgSkew (i : Nat) : Nat := 0xC10080 + 0x4 * i

/-- HLT_MIRROR_FLITS_LO (20_twin_pair, R560). -/
abbrev hltMirrorFlitsLo : Nat := 0xC10090

/-- HLT_MIRROR_FLITS_HI (20_twin_pair, R560). -/
abbrev hltMirrorFlitsHi : Nat := 0xC10094

/-- VZL_ID (21_virzel_fabric, R584). -/
abbrev vzlId : Nat := 0xD00000

/-- VZL_DIMS (21_virzel_fabric, R584). -/
abbrev vzlDims : Nat := 0xD00004

/-- VZL_CTRL (21_virzel_fabric, R584). -/
abbrev vzlCtrl : Nat := 0xD00008

/-- VZL_REACH_k (21_virzel_fabric, R584). -/
abbrev vzlReach (i : Nat) : Nat := 0xD00010 + 0x4 * i

/-- VZL_IN_BASE_LO (21_virzel_fabric, R584). -/
abbrev vzlInBaseLo : Nat := 0xD00020

/-- VZL_IN_BASE_HI (21_virzel_fabric, R584). -/
abbrev vzlInBaseHi : Nat := 0xD00024

/-- VZL_IN_LIMIT_LO (21_virzel_fabric, R584). -/
abbrev vzlInLimitLo : Nat := 0xD00028

/-- VZL_IN_LIMIT_HI (21_virzel_fabric, R584). -/
abbrev vzlInLimitHi : Nat := 0xD0002C

/-- VZL_IN_SIG (21_virzel_fabric, R584). -/
abbrev vzlInSig : Nat := 0xD00030

/-- VZL_TIMEOUT (21_virzel_fabric, R584). -/
abbrev vzlTimeout : Nat := 0xD00034

/-- VZL_LOCK (21_virzel_fabric, R584). -/
abbrev vzlLock : Nat := 0xD00038

/-- VZL_EVENTS (21_virzel_fabric, R584). -/
abbrev vzlEvents : Nat := 0xD00040

/-- VZL_EVENT_EN (21_virzel_fabric, R584). -/
abbrev vzlEventEn : Nat := 0xD00044

/-- VZL_TAGS (21_virzel_fabric, R584). -/
abbrev vzlTags : Nat := 0xD00048

/-- VZL_IN_REJECTS (21_virzel_fabric, R584). -/
abbrev vzlInRejects : Nat := 0xD0004C

/-- VZL_RSP_ERRORS (21_virzel_fabric, R584). -/
abbrev vzlRspErrors : Nat := 0xD00050

/-- VZL_TIMEOUTS (21_virzel_fabric, R584). -/
abbrev vzlTimeouts : Nat := 0xD00054

/-- VZL_DISCARDS (21_virzel_fabric, R584). -/
abbrev vzlDiscards : Nat := 0xD00058

/-- VZL_p_CTRL (21_virzel_fabric, R584). -/
abbrev vzlportCtrl (i : Nat) : Nat := 0xD00100 + 0x40 * i

/-- VZL_p_STATUS (21_virzel_fabric, R584). -/
abbrev vzlportStatus (i : Nat) : Nat := 0xD00104 + 0x40 * i

/-- VZL_p_SKEW (21_virzel_fabric, R584). -/
abbrev vzlportSkew (i : Nat) : Nat := 0xD00108 + 0x40 * i

/-- VZL_p_LATENCY (21_virzel_fabric, R584). -/
abbrev vzlportLatency (i : Nat) : Nat := 0xD0010C + 0x40 * i

/-- VZL_p_CRC_ERRS (21_virzel_fabric, R584). -/
abbrev vzlportCrcErrs (i : Nat) : Nat := 0xD00110 + 0x40 * i

/-- VZL_p_REPLAYS (21_virzel_fabric, R584). -/
abbrev vzlportReplays (i : Nat) : Nat := 0xD00114 + 0x40 * i

/-- VZL_p_RETRAINS (21_virzel_fabric, R584). -/
abbrev vzlportRetrains (i : Nat) : Nat := 0xD00118 + 0x40 * i

/-- VZL_p_TX_FLITS_LO (21_virzel_fabric, R584). -/
abbrev vzlportTxFlitsLo (i : Nat) : Nat := 0xD00120 + 0x40 * i

/-- VZL_p_TX_FLITS_HI (21_virzel_fabric, R584). -/
abbrev vzlportTxFlitsHi (i : Nat) : Nat := 0xD00124 + 0x40 * i

/-- HLT_MAP (22_silent_errors_and_reproducibility, R610). -/
abbrev hltMap : Nat := 0xC00000

/-- HLT_STATUS (22_silent_errors_and_reproducibility, R610). -/
abbrev hltStatus : Nat := 0xC00004

/-- HLT_EVENTS (22_silent_errors_and_reproducibility, R610). -/
abbrev hltEvents : Nat := 0xC00008

/-- HLT_EVENT_EN (22_silent_errors_and_reproducibility, R610). -/
abbrev hltEventEn : Nat := 0xC0000C

/-- HLT_POLICY (22_silent_errors_and_reproducibility, R610). -/
abbrev hltPolicy : Nat := 0xC00010

/-- HLT_POLICY2 (22_silent_errors_and_reproducibility, R610). -/
abbrev hltPolicy2 : Nat := 0xC00014

/-- HLT_LOCK (22_silent_errors_and_reproducibility, R610). -/
abbrev hltLock : Nat := 0xC00018

/-- HLT_UNCORE_SUSPECTS (22_silent_errors_and_reproducibility, R610). -/
abbrev hltUncoreSuspects : Nat := 0xC0001C

/-- HLT_KAT_COUNT (22_silent_errors_and_reproducibility, R610). -/
abbrev hltKatCount : Nat := 0xC00020

/-- HLT_KAT_LAST (22_silent_errors_and_reproducibility, R610). -/
abbrev hltKatLast : Nat := 0xC00024

/-- HLT_CLUSTER_c (22_silent_errors_and_reproducibility, R610). -/
abbrev hltCluster (i : Nat) : Nat := 0xC00100 + 0x4 * i

/-- CLH_STATE (22_silent_errors_and_reproducibility, R611). -/
abbrev clhState (i : Nat) : Nat := 0x1080000 + 0x100000 * i

/-- CLH_TEMP (22_silent_errors_and_reproducibility, R611). -/
abbrev clhTemp (i : Nat) : Nat := 0x1080004 + 0x100000 * i

/-- CLH_AGING (22_silent_errors_and_reproducibility, R611). -/
abbrev clhAging (i : Nat) : Nat := 0x1080008 + 0x100000 * i

/-- CLH_TERMS_LO (22_silent_errors_and_reproducibility, R611). -/
abbrev clhTermsLo (i : Nat) : Nat := 0x1080010 + 0x100000 * i

/-- CLH_TERMS_HI (22_silent_errors_and_reproducibility, R611). -/
abbrev clhTermsHi (i : Nat) : Nat := 0x1080014 + 0x100000 * i

/-- GRM_STATUS (23_lifetime_and_groomer, R634). -/
abbrev grmStatus : Nat := 0xF80000

/-- GRM_FW_VERSION (23_lifetime_and_groomer, R634). -/
abbrev grmFwVersion : Nat := 0xF80004

/-- GRM_EVENTS (23_lifetime_and_groomer, R634). -/
abbrev grmEvents : Nat := 0xF80008

/-- GRM_EVENT_EN (23_lifetime_and_groomer, R634). -/
abbrev grmEventEn : Nat := 0xF8000C

/-- GRM_DOORBELL (23_lifetime_and_groomer, R634). -/
abbrev grmDoorbell : Nat := 0xF80010

/-- GRM_SEQ (23_lifetime_and_groomer, R634). -/
abbrev grmSeq : Nat := 0xF80014

/-- GRM_REQ (23_lifetime_and_groomer, R634). -/
abbrev grmReq (i : Nat) : Nat := 0xF81000 + 0x4 * i

/-- GRM_RSP (23_lifetime_and_groomer, R634). -/
abbrev grmRsp (i : Nat) : Nat := 0xF82000 + 0x4 * i

/-- AON_CAL_LO (23_lifetime_and_groomer, R634). -/
abbrev aonCalLo : Nat := 0xF90000

/-- AON_CAL_HI (23_lifetime_and_groomer, R634). -/
abbrev aonCalHi : Nat := 0xF90004

/-- AON_STATUS (23_lifetime_and_groomer, R634). -/
abbrev aonStatus : Nat := 0xF90008

/-- AON_ALARM_LO (23_lifetime_and_groomer, R634). -/
abbrev aonAlarmLo : Nat := 0xF90010

/-- AON_ALARM_HI (23_lifetime_and_groomer, R634). -/
abbrev aonAlarmHi : Nat := 0xF90014

/-- PMU_STATUS (24_power_clocks_reset, R659). -/
abbrev pmuStatus : Nat := 0xF00000

/-- PMU_EVENTS (24_power_clocks_reset, R659). -/
abbrev pmuEvents : Nat := 0xF00004

/-- PMU_EVENT_EN (24_power_clocks_reset, R659). -/
abbrev pmuEventEn : Nat := 0xF00008

/-- PMU_PSTATE (24_power_clocks_reset, R659). -/
abbrev pmuPstate : Nat := 0xF0000C

/-- PMU_DVFS (24_power_clocks_reset, R659). -/
abbrev pmuDvfs : Nat := 0xF00010

/-- PMU_PLIMIT (24_power_clocks_reset, R659). -/
abbrev pmuPlimit : Nat := 0xF00014

/-- PMU_THERMAL (24_power_clocks_reset, R659). -/
abbrev pmuThermal : Nat := 0xF00018

/-- PMU_LOCK (24_power_clocks_reset, R659). -/
abbrev pmuLock : Nat := 0xF0001C

/-- PMU_POWER (24_power_clocks_reset, R659). -/
abbrev pmuPower : Nat := 0xF00020

/-- PMU_CEILING (24_power_clocks_reset, R659). -/
abbrev pmuCeiling : Nat := 0xF00024

/-- PMU_STRAPS (24_power_clocks_reset, R659). -/
abbrev pmuStraps : Nat := 0xF00028

/-- PMU_CORE_FREQ (24_power_clocks_reset, R659). -/
abbrev pmuCoreFreq : Nat := 0xF0002C

/-- PMU_TEMP_i (24_power_clocks_reset, R659). -/
abbrev pmuTemp (i : Nat) : Nat := 0xF00030 + 0x4 * i

/-- PMU_POINT_k (24_power_clocks_reset, R659). -/
abbrev pmuPoint (i : Nat) : Nat := 0xF00040 + 0x4 * i

/-- PMU_HOTTEST (24_power_clocks_reset, R659). -/
abbrev pmuHottest : Nat := 0xF00060

/-- PIN_k_CFG (25_pins, R682). -/
abbrev pinCfg (i : Nat) : Nat := 0xE00000 + 0x4 * i

/-- PIN_IN_b (25_pins, R682). -/
abbrev pinIn (i : Nat) : Nat := 0xE00100 + 0x20 * i

/-- PIN_OUT_b (25_pins, R682). -/
abbrev pinOut (i : Nat) : Nat := 0xE00104 + 0x20 * i

/-- PIN_SET_b (25_pins, R682). -/
abbrev pinSet (i : Nat) : Nat := 0xE00108 + 0x20 * i

/-- PIN_CLR_b (25_pins, R682). -/
abbrev pinClr (i : Nat) : Nat := 0xE0010C + 0x20 * i

/-- PIN_TGL_b (25_pins, R682). -/
abbrev pinTgl (i : Nat) : Nat := 0xE00110 + 0x20 * i

/-- PIN_OE_b (25_pins, R682). -/
abbrev pinOe (i : Nat) : Nat := 0xE00114 + 0x20 * i

/-- PIN_EDGE_b (25_pins, R682). -/
abbrev pinEdge (i : Nat) : Nat := 0xE00118 + 0x20 * i

/-- PIN_EDGE_EN_b (25_pins, R682). -/
abbrev pinEdgeEn (i : Nat) : Nat := 0xE0011C + 0x20 * i

/-- PIN_STATUS (25_pins, R682). -/
abbrev pinStatus : Nat := 0xE00200

/-- PIN_EVENTS (25_pins, R682). -/
abbrev pinEvents : Nat := 0xE00204

/-- PIN_EVENT_EN (25_pins, R682). -/
abbrev pinEventEn : Nat := 0xE00208

/-- PIN_CONFLICT (25_pins, R682). -/
abbrev pinConflict : Nat := 0xE0020C

/-- PIN_DEBOUNCE (25_pins, R682). -/
abbrev pinDebounce : Nat := 0xE00210

/-- PIN_EN_OUT (25_pins, R682). -/
abbrev pinEnOut : Nat := 0xE00220

/-- PIN_EN_SET (25_pins, R682). -/
abbrev pinEnSet : Nat := 0xE00224

/-- PIN_EN_CLR (25_pins, R682). -/
abbrev pinEnClr : Nat := 0xE00228

/-- PIN_EN_TGL (25_pins, R682). -/
abbrev pinEnTgl : Nat := 0xE0022C

/-- I2C_n_CFG (25_pins, R682). -/
abbrev i2cCfg (i : Nat) : Nat := 0xE00300 + 0x20 * i

/-- I2C_n_XFER (25_pins, R682). -/
abbrev i2cXfer (i : Nat) : Nat := 0xE00304 + 0x20 * i

/-- I2C_n_WDATA_LO (25_pins, R682). -/
abbrev i2cWdataLo (i : Nat) : Nat := 0xE00308 + 0x20 * i

/-- I2C_n_WDATA_HI (25_pins, R682). -/
abbrev i2cWdataHi (i : Nat) : Nat := 0xE0030C + 0x20 * i

/-- I2C_n_RDATA_LO (25_pins, R682). -/
abbrev i2cRdataLo (i : Nat) : Nat := 0xE00310 + 0x20 * i

/-- I2C_n_RDATA_HI (25_pins, R682). -/
abbrev i2cRdataHi (i : Nat) : Nat := 0xE00314 + 0x20 * i

/-- I2C_n_STATUS (25_pins, R682). -/
abbrev i2cStatus (i : Nat) : Nat := 0xE00318 + 0x20 * i

end Sys2Proof.Machine.Reg

namespace Sys2Proof.Machine

/-- Registers of block 0 of R37: HIU. -/
def regRows0 : List RegRow := [
  ⟨"HIU_ID", 0x0, 0x0, 1, 0x0, 1, 0x1640000, 0x0, 0x0, 0x0, 0x0, 0x0, 0x0, .single, .function⟩,
  ⟨"HIU_STATUS", 0x4, 0x0, 1, 0x0, 1, 0x0, 0x0, 0x0, 0x0, 0x0, 0x0, 0x0, .single, .function⟩,
  ⟨"HIU_ERR", 0x8, 0x0, 1, 0x0, 1, 0x0, 0x0, 0x0, 0xFF, 0x0, 0x0, 0x0, .single, .function⟩,
  ⟨"HIU_ERR_EN", 0xC, 0x0, 1, 0x0, 1, 0x0, 0xFF, 0x0, 0x0, 0x0, 0x0, 0x0, .single, .function⟩,
  ⟨"HIU_ERR_ADDR_LO", 0x10, 0x0, 1, 0x0, 1, 0x0, 0x0, 0x0, 0x0, 0x0, 0x0, 0x0, .lo, .function⟩,
  ⟨"HIU_ERR_ADDR_HI", 0x14, 0x0, 1, 0x0, 1, 0x0, 0x0, 0x0, 0x0, 0x0, 0x0, 0x0, .hi, .function⟩,
  ⟨"HIU_BAR4_BASE_LO", 0x18, 0x0, 1, 0x0, 1, 0x0, 0xFFFFFFFF, 0x0, 0x0, 0x0, 0x0, 0x0, .lo, .function⟩,
  ⟨"HIU_BAR4_BASE_HI", 0x1C, 0x0, 1, 0x0, 1, 0x0, 0xFFFFFFFF, 0x0, 0x0, 0x0, 0x0, 0x0, .hi, .function⟩,
  ⟨"HIU_IRQ_ACK_i", 0x20, 0x4, 4, 0x0, 1, 0x0, 0x0, 0x0, 0xFFFFFFFF, 0x0, 0x0, 0x0, .single, .function⟩,
  ⟨"HIU_IRQ_CAUSE_i", 0x30, 0x4, 4, 0x0, 1, 0x0, 0x0, 0x0, 0x0, 0x0, 0x0, 0x0, .single, .function⟩,
  ⟨"HIU_SWINT", 0x40, 0x0, 1, 0x0, 1, 0x0, 0x0, 0x0, 0x0, 0x0, 0x0, 0x0, .single, .function⟩,
  ⟨"HIU_REPLAYS", 0x44, 0x0, 1, 0x0, 1, 0x0, 0x0, 0x0, 0x0, 0x0, 0x0, 0x0, .single, .function⟩,
  ⟨"HIU_RX_ERRS", 0x48, 0x0, 1, 0x0, 1, 0x0, 0x0, 0x0, 0x0, 0x0, 0x0, 0x0, .single, .function⟩]

/-- Registers of block 1 of R37: CFE. -/
def regRows1a : List RegRow := [
  ⟨"CFE_STATUS", 0x100000, 0x0, 1, 0x0, 1, 0x0, 0x0, 0x0, 0x0, 0x0, 0x0, 0x0, .single, .function⟩,
  ⟨"CFE_ERR", 0x100004, 0x0, 1, 0x0, 1, 0x0, 0x0, 0x0, 0x7, 0x0, 0x0, 0x0, .single, .function⟩,
  ⟨"CFE_ERR_EN", 0x100008, 0x0, 1, 0x0, 1, 0x0, 0x7, 0x0, 0x0, 0x0, 0x0, 0x0, .single, .function⟩,
  ⟨"CFE_ERR_CAPTURE", 0x10000C, 0x0, 1, 0x0, 1, 0x0, 0x0, 0x0, 0x0, 0x0, 0x0, 0x0, .single, .function⟩,
  ⟨"CFE_INFLIGHT", 0x100010, 0x0, 1, 0x0, 1, 0x0, 0x0, 0x0, 0x0, 0x0, 0x0, 0x0, .single, .function⟩,
  ⟨"CFE_CQ_EVENT_0", 0x100020, 0x0, 1, 0x0, 1, 0x0, 0x0, 0x0, 0xFFFFFFFF, 0x0, 0x0, 0x0, .single, .function⟩,
  ⟨"CFE_CQ_EVENT_1", 0x100024, 0x0, 1, 0x0, 1, 0x0, 0x0, 0x0, 0xFFFFFFFF, 0x0, 0x0, 0x0, .single, .function⟩,
  ⟨"CFE_CQ_EVENT_EN_0", 0x100028, 0x0, 1, 0x0, 1, 0x0, 0xFFFFFFFF, 0x0, 0x0, 0x0, 0x0, 0x0, .single, .function⟩,
  ⟨"CFE_CQ_EVENT_EN_1", 0x10002C, 0x0, 1, 0x0, 1, 0x0, 0xFFFFFFFF, 0x0, 0x0, 0x0, 0x0, 0x0, .single, .function⟩,
  ⟨"RING_SQ_BASE_LO", 0x110000, 0x40, 64, 0x0, 1, 0x0, 0xFFFFF000, 0x0, 0x0, 0x0, 0x0, 0x0, .lo, .function⟩,
  ⟨"RING_SQ_BASE_HI", 0x110004, 0x40, 64, 0x0, 1, 0x0, 0xFFFFFFFF, 0x0, 0x0, 0x0, 0x0, 0x0, .hi, .function⟩,
  ⟨"RING_CQ_BASE_LO", 0x110008, 0x40, 64, 0x0, 1, 0x0, 0xFFFFF000, 0x0, 0x0, 0x0, 0x0, 0x0, .lo, .function⟩,
  ⟨"RING_CQ_BASE_HI", 0x11000C, 0x40, 64, 0x0, 1, 0x0, 0xFFFFFFFF, 0x0, 0x0, 0x0, 0x0, 0x0, .hi, .function⟩,
  ⟨"RING_CFG", 0x110010, 0x40, 64, 0x0, 1, 0x0, 0xFFFF0FF1, 0x0, 0x0, 0x0, 0x0, 0x0, .single, .function⟩,
  ⟨"RING_SQ_TAIL", 0x110014, 0x40, 64, 0x0, 1, 0x0, 0x0, 0x0, 0x0, 0x0, 0x0, 0x0, .single, .function⟩,
  ⟨"RING_SQ_HEAD", 0x110018, 0x40, 64, 0x0, 1, 0x0, 0x0, 0x0, 0x0, 0x0, 0x0, 0x0, .single, .function⟩,
  ⟨"RING_CQ_TAIL", 0x11001C, 0x40, 64, 0x0, 1, 0x0, 0x0, 0x0, 0x0, 0x0, 0x0, 0x0, .single, .function⟩,
  ⟨"RING_CQ_HEAD", 0x110020, 0x40, 64, 0x0, 1, 0x0, 0x0, 0x0, 0x0, 0x0, 0x0, 0x0, .single, .function⟩,
  ⟨"RING_SEQ", 0x110024, 0x40, 64, 0x0, 1, 0x0, 0x0, 0x0, 0x0, 0x0, 0x0, 0x0, .single, .function⟩,
  ⟨"RING_STATE", 0x110028, 0x40, 64, 0x0, 1, 0x0, 0x0, 0x0, 0x0, 0x0, 0x0, 0x0, .single, .function⟩,
  ⟨"RING_LIMIT", 0x11002C, 0x40, 64, 0x0, 1, 0x40, 0x3FF, 0x0, 0x0, 0x0, 0x0, 0x0, .single, .function⟩,
  ⟨"CON_CTRL", 0x100100, 0x0, 1, 0x0, 1, 0x4, 0x0, 0x7, 0x0, 0x0, 0x10010C, 0x0, .single, .function⟩,
  ⟨"CON_WEIGHT_0", 0x100104, 0x0, 1, 0x0, 1, 0x20408080, 0x0, 0xFFFFFFFF, 0x0, 0x0, 0x10010C, 0x0, .single, .function⟩,
  ⟨"CON_WEIGHT_1", 0x100108, 0x0, 1, 0x0, 1, 0x10, 0x0, 0xFF, 0x0, 0x0, 0x10010C, 0x0, .single, .function⟩]

/-- Registers of block 1 of R37: CFE. -/
def regRows1b : List RegRow := [
  ⟨"CON_LOCK", 0x10010C, 0x0, 1, 0x0, 1, 0x0, 0x0, 0x0, 0x0, 0x1, 0x0, 0x0, .single, .function⟩,
  ⟨"CON_REFUSED_BUDGET", 0x100110, 0x0, 1, 0x0, 1, 0x0, 0x0, 0x0, 0x0, 0x0, 0x0, 0x0, .single, .function⟩,
  ⟨"CON_URGENT_BURSTS", 0x100114, 0x0, 1, 0x0, 1, 0x0, 0x0, 0x0, 0x0, 0x0, 0x0, 0x0, .single, .function⟩,
  ⟨"CON_BUDGET_c", 0x100200, 0x4, 128, 0x0, 1, 0x0, 0x0, 0x0, 0x0, 0x0, 0x0, 0x0, .single, .function⟩]

/-- Registers of block 1 of R37: CFE. -/
def regRows1 : List RegRow := regRows1a ++ regRows1b

/-- Registers of block 2 of R37: CTX. -/
def regRows2 : List RegRow := [
  ⟨"CTX_STATUS", 0x200000, 0x0, 1, 0x0, 1, 0x0, 0x0, 0x0, 0x0, 0x0, 0x0, 0x0, .single, .function⟩,
  ⟨"CTX_EVENTS", 0x200004, 0x0, 1, 0x0, 1, 0x0, 0x0, 0x0, 0x3F, 0x0, 0x0, 0x0, .single, .function⟩,
  ⟨"CTX_EVENT_EN", 0x200008, 0x0, 1, 0x0, 1, 0x0, 0x3F, 0x0, 0x0, 0x0, 0x0, 0x0, .single, .function⟩,
  ⟨"CTX_SIG_REJECTS", 0x20000C, 0x0, 1, 0x0, 1, 0x0, 0x0, 0x0, 0x0, 0x0, 0x0, 0x0, .single, .function⟩,
  ⟨"CTX_SIG_REJECT_LAST", 0x200010, 0x0, 1, 0x0, 1, 0x0, 0x0, 0x0, 0x0, 0x0, 0x0, 0x0, .single, .function⟩,
  ⟨"CTX_SYNC_TABLE_LO", 0x200018, 0x0, 1, 0x0, 1, 0x0, 0x0, 0xFFF00000, 0x0, 0x0, 0x20002C, 0x0, .lo, .function⟩,
  ⟨"CTX_SYNC_TABLE_HI", 0x20001C, 0x0, 1, 0x0, 1, 0x0, 0x0, 0xFFFFFFFF, 0x0, 0x0, 0x20002C, 0x0, .hi, .function⟩,
  ⟨"CTX_SYNC_INIT_VAL_LO", 0x200020, 0x0, 1, 0x0, 1, 0x0, 0xFFFFFFFF, 0x0, 0x0, 0x0, 0x0, 0x0, .lo, .function⟩,
  ⟨"CTX_SYNC_INIT_VAL_HI", 0x200024, 0x0, 1, 0x0, 1, 0x0, 0xFFFFFFFF, 0x0, 0x0, 0x0, 0x0, 0x0, .hi, .function⟩,
  ⟨"CTX_SYNC_INIT", 0x200028, 0x0, 1, 0x0, 1, 0x0, 0x0, 0x0, 0x0, 0x0, 0x0, 0x0, .single, .function⟩,
  ⟨"CTX_LOCK", 0x20002C, 0x0, 1, 0x0, 1, 0x0, 0x0, 0x0, 0x0, 0x1, 0x0, 0x0, .single, .function⟩,
  ⟨"CTX0_PT_ROOT_LO", 0x200040, 0x0, 1, 0x0, 1, 0x0, 0xFFFFF000, 0x0, 0x0, 0x0, 0x0, 0x0, .lo, .function⟩,
  ⟨"CTX0_PT_ROOT_HI", 0x200044, 0x0, 1, 0x0, 1, 0x0, 0xFFFF, 0x0, 0x0, 0x0, 0x0, 0x0, .hi, .function⟩,
  ⟨"CTX0_RINGS_LO", 0x200048, 0x0, 1, 0x0, 1, 0x0, 0xFFFFFFFF, 0x0, 0x0, 0x0, 0x0, 0x0, .lo, .function⟩,
  ⟨"CTX0_RINGS_HI", 0x20004C, 0x0, 1, 0x0, 1, 0x0, 0xFFFFFFFF, 0x0, 0x0, 0x0, 0x0, 0x0, .hi, .function⟩,
  ⟨"CTX0_CFG", 0x200050, 0x0, 1, 0x0, 1, 0x0, 0x7, 0x0, 0x0, 0x0, 0x0, 0x0, .single, .function⟩,
  ⟨"CTX0_LIMITS", 0x200054, 0x0, 1, 0x0, 1, 0x0, 0xFFFFFFFF, 0x0, 0x0, 0x0, 0x0, 0x0, .single, .function⟩,
  ⟨"CTX0_HEAP_LIMIT", 0x200058, 0x0, 1, 0x0, 1, 0x0, 0xFFFFFFFF, 0x0, 0x0, 0x0, 0x0, 0x0, .single, .function⟩,
  ⟨"CTX0_CTRL", 0x20005C, 0x0, 1, 0x0, 1, 0x0, 0x0, 0x0, 0x0, 0x0, 0x0, 0x0, .single, .function⟩,
  ⟨"CTX_LOADED_i", 0x200060, 0x4, 4, 0x0, 1, 0x0, 0x0, 0x0, 0x0, 0x0, 0x0, 0x0, .single, .function⟩,
  ⟨"CTX_LOST_i", 0x200070, 0x4, 4, 0x0, 1, 0x0, 0x0, 0x0, 0x0, 0x0, 0x0, 0x0, .single, .function⟩,
  ⟨"CTX_c_STATE", 0x201000, 0x10, 128, 0x0, 1, 0x0, 0x0, 0x0, 0x0, 0x0, 0x0, 0x0, .single, .function⟩,
  ⟨"CTX_c_LOST_SEQ", 0x201004, 0x10, 128, 0x0, 1, 0x0, 0x0, 0x0, 0x0, 0x0, 0x0, 0x0, .single, .function⟩,
  ⟨"CTX_c_COUNTS", 0x201008, 0x10, 128, 0x0, 1, 0x0, 0x0, 0x0, 0x0, 0x0, 0x0, 0x0, .single, .function⟩]

/-- Registers of block 3 of R37: MMU. -/
def regRows3 : List RegRow := [
  ⟨"MMU_STATUS", 0x300000, 0x0, 1, 0x0, 1, 0x0, 0x0, 0x0, 0x0, 0x0, 0x0, 0x0, .single, .function⟩,
  ⟨"MMU_EVENTS", 0x300004, 0x0, 1, 0x0, 1, 0x0, 0x0, 0x0, 0x3, 0x0, 0x0, 0x0, .single, .function⟩,
  ⟨"MMU_EVENT_EN", 0x300008, 0x0, 1, 0x0, 1, 0x0, 0x3, 0x0, 0x0, 0x0, 0x0, 0x0, .single, .function⟩,
  ⟨"MMU_FAULT_ADDR_LO", 0x300010, 0x0, 1, 0x0, 1, 0x0, 0x0, 0x0, 0x0, 0x0, 0x0, 0x0, .lo, .function⟩,
  ⟨"MMU_FAULT_ADDR_HI", 0x300014, 0x0, 1, 0x0, 1, 0x0, 0x0, 0x0, 0x0, 0x0, 0x0, 0x0, .hi, .function⟩,
  ⟨"MMU_FAULT_INFO", 0x300018, 0x0, 1, 0x0, 1, 0x0, 0x0, 0x0, 0x0, 0x0, 0x0, 0x0, .single, .function⟩,
  ⟨"MMU_FAULT_COUNT", 0x30001C, 0x0, 1, 0x0, 1, 0x0, 0x0, 0x0, 0x0, 0x0, 0x0, 0x0, .single, .function⟩,
  ⟨"MMU_INV_VA_LO", 0x300020, 0x0, 1, 0x0, 1, 0x0, 0xFFFFF000, 0x0, 0x0, 0x0, 0x0, 0x0, .lo, .function⟩,
  ⟨"MMU_INV_VA_HI", 0x300024, 0x0, 1, 0x0, 1, 0x0, 0xFFFF, 0x0, 0x0, 0x0, 0x0, 0x0, .hi, .function⟩,
  ⟨"MMU_INV_PAGES", 0x300028, 0x0, 1, 0x0, 1, 0x0, 0xFFFFFFFF, 0x0, 0x0, 0x0, 0x0, 0x0, .single, .function⟩,
  ⟨"MMU_INV", 0x30002C, 0x0, 1, 0x0, 1, 0x0, 0x0, 0x0, 0x0, 0x0, 0x0, 0x0, .single, .function⟩]

/-- Registers of block 4 of R37: L2C. -/
def regRows4 : List RegRow := [
  ⟨"L2C_STATUS", 0x400000, 0x0, 1, 0x0, 1, 0x0, 0x0, 0x0, 0x0, 0x0, 0x0, 0x0, .single, .function⟩,
  ⟨"L2C_CTRL", 0x400004, 0x0, 1, 0x0, 1, 0x30, 0x0, 0x7F, 0x0, 0x0, 0x40000C, 0x0, .single, .function⟩,
  ⟨"L2C_SETWAY", 0x400008, 0x0, 1, 0x0, 1, 0x0, 0x0, 0x0, 0x0, 0x0, 0x0, 0x0, .single, .function⟩,
  ⟨"L2C_LOCK", 0x40000C, 0x0, 1, 0x0, 1, 0x0, 0x0, 0x0, 0x0, 0x1, 0x0, 0x0, .single, .function⟩,
  ⟨"L2C_RANGE_BUSY_i", 0x400010, 0x4, 4, 0x0, 1, 0x0, 0x0, 0x0, 0x0, 0x0, 0x0, 0x0, .single, .function⟩,
  ⟨"L2C_EVENTS", 0x400020, 0x0, 1, 0x0, 1, 0x0, 0x0, 0x0, 0x7, 0x0, 0x0, 0x0, .single, .function⟩,
  ⟨"L2C_EVENT_EN", 0x400024, 0x0, 1, 0x0, 1, 0x0, 0x7, 0x0, 0x0, 0x0, 0x0, 0x0, .single, .function⟩,
  ⟨"L2C_ECC_ADDR_LO", 0x400028, 0x0, 1, 0x0, 1, 0x0, 0x0, 0x0, 0x0, 0x0, 0x0, 0x0, .lo, .function⟩,
  ⟨"L2C_ECC_ADDR_HI", 0x40002C, 0x0, 1, 0x0, 1, 0x0, 0x0, 0x0, 0x0, 0x0, 0x0, 0x0, .hi, .function⟩,
  ⟨"L2C_ECC_CORR_COUNT", 0x400030, 0x0, 1, 0x0, 1, 0x0, 0x0, 0x0, 0x0, 0x0, 0x0, 0x0, .single, .function⟩,
  ⟨"L2C_ECC_UNCORR_COUNT", 0x400034, 0x0, 1, 0x0, 1, 0x0, 0x0, 0x0, 0x0, 0x0, 0x0, 0x0, .single, .function⟩]

/-- Registers of block 5 of R37: MEM. -/
def regRows5 : List RegRow := [
  ⟨"MEM_CFG", 0x500000, 0x0, 1, 0x0, 1, 0x0, 0x0, 0x0, 0x0, 0x0, 0x0, 0x0, .single, .device⟩,
  ⟨"MEM_STATUS", 0x500004, 0x0, 1, 0x0, 1, 0x0, 0x0, 0x0, 0x0, 0x0, 0x0, 0x0, .single, .function⟩,
  ⟨"MEM_USABLE_LO", 0x500008, 0x0, 1, 0x0, 1, 0x0, 0x0, 0x0, 0x0, 0x0, 0x0, 0x0, .lo, .device⟩,
  ⟨"MEM_USABLE_HI", 0x50000C, 0x0, 1, 0x0, 1, 0x0, 0x0, 0x0, 0x0, 0x0, 0x0, 0x0, .hi, .device⟩,
  ⟨"MEM_RESERVE", 0x500010, 0x0, 1, 0x0, 1, 0x0, 0x0, 0xFFFF, 0x0, 0x0, 0x500014, 0x0, .single, .function⟩,
  ⟨"MEM_LOCK", 0x500014, 0x0, 1, 0x0, 1, 0x0, 0x0, 0x0, 0x0, 0x1, 0x0, 0x0, .single, .function⟩,
  ⟨"MEM_EVENTS", 0x500020, 0x0, 1, 0x0, 1, 0x0, 0x0, 0x0, 0x7, 0x0, 0x0, 0x0, .single, .function⟩,
  ⟨"MEM_EVENT_EN", 0x500024, 0x0, 1, 0x0, 1, 0x0, 0x7, 0x0, 0x0, 0x0, 0x0, 0x0, .single, .function⟩,
  ⟨"MEM_ECC_ADDR_LO", 0x500028, 0x0, 1, 0x0, 1, 0x0, 0x0, 0x0, 0x0, 0x0, 0x0, 0x0, .lo, .function⟩,
  ⟨"MEM_ECC_ADDR_HI", 0x50002C, 0x0, 1, 0x0, 1, 0x0, 0x0, 0x0, 0x0, 0x0, 0x0, 0x0, .hi, .function⟩,
  ⟨"MEM_ECC_CORR_COUNT", 0x500030, 0x0, 1, 0x0, 1, 0x0, 0x0, 0x0, 0x0, 0x0, 0x0, 0x0, .single, .function⟩,
  ⟨"MEM_ECC_UNCORR_COUNT", 0x500034, 0x0, 1, 0x0, 1, 0x0, 0x0, 0x0, 0x0, 0x0, 0x0, 0x0, .single, .function⟩]

/-- Registers of block 6 of R37: LTB. -/
def regRows6 : List RegRow := [
  ⟨"LTB_CTRL", 0x600000, 0x0, 1, 0x0, 1, 0x1, 0x1, 0x0, 0x0, 0x0, 0x0, 0x0, .single, .function⟩,
  ⟨"LTB_SRC", 0x600004, 0x0, 1, 0x0, 1, 0xFF, 0x0, 0x3FF, 0x0, 0x0, 0x6000C0, 0x0, .single, .function⟩,
  ⟨"LTB_NOMINAL", 0x600008, 0x0, 1, 0x0, 1, 0x2EE, 0x0, 0xFFFF, 0x0, 0x0, 0x6000C0, 0x0, .single, .function⟩,
  ⟨"LTB_NOM_PERIOD", 0x60000C, 0x0, 1, 0x0, 1, 0xD555, 0x0, 0xFFFFFF, 0x0, 0x0, 0x6000C0, 0x0, .single, .function⟩,
  ⟨"LTB_LOSS", 0x600010, 0x0, 1, 0x0, 1, 0x3210, 0x0, 0xFFFF, 0x0, 0x0, 0x6000C0, 0x0, .single, .function⟩,
  ⟨"LTB_EXT", 0x600014, 0x0, 1, 0x0, 1, 0x0, 0x0, 0x3, 0x0, 0x0, 0x6000C0, 0x0, .single, .function⟩,
  ⟨"LTB_SYNC_OUT", 0x600018, 0x0, 1, 0x0, 1, 0x0, 0x0, 0xFFFF, 0x0, 0x0, 0x6000C0, 0x0, .single, .function⟩,
  ⟨"LTB_URGENCY", 0x60001C, 0x0, 1, 0x0, 1, 0x100, 0xFFF, 0x0, 0x0, 0x0, 0x0, 0x0, .single, .function⟩,
  ⟨"LTB_NOW_LO", 0x600030, 0x0, 1, 0x0, 1, 0x0, 0x0, 0x0, 0x0, 0x0, 0x0, 0x0, .lo, .function⟩,
  ⟨"LTB_NOW_HI", 0x600034, 0x0, 1, 0x0, 1, 0x0, 0x0, 0x0, 0x0, 0x0, 0x0, 0x0, .hi, .function⟩,
  ⟨"LTB_REFCOUNT_LO", 0x600038, 0x0, 1, 0x0, 1, 0x0, 0x0, 0x0, 0x0, 0x0, 0x0, 0x0, .lo, .function⟩,
  ⟨"LTB_REFCOUNT_HI", 0x60003C, 0x0, 1, 0x0, 1, 0x0, 0x0, 0x0, 0x0, 0x0, 0x0, 0x0, .hi, .function⟩,
  ⟨"LTB_STATUS", 0x600040, 0x0, 1, 0x0, 1, 0xF, 0x0, 0x0, 0x0, 0x0, 0x0, 0x0, .single, .function⟩,
  ⟨"LTB_EVENTS", 0x600044, 0x0, 1, 0x0, 1, 0x0, 0x0, 0x0, 0x1F, 0x0, 0x0, 0x0, .single, .function⟩,
  ⟨"LTB_EVENT_EN", 0x600048, 0x0, 1, 0x0, 1, 0x0, 0x1F, 0x0, 0x0, 0x0, 0x0, 0x0, .single, .function⟩,
  ⟨"LTB_PERIOD", 0x60004C, 0x0, 1, 0x0, 1, 0xD555, 0x0, 0x0, 0x0, 0x0, 0x0, 0x0, .single, .function⟩,
  ⟨"LTB_SKIPPED_LINES", 0x600050, 0x0, 1, 0x0, 1, 0x0, 0x0, 0x0, 0x0, 0x0, 0x0, 0x0, .single, .function⟩,
  ⟨"LTB_LOSS_EVENTS", 0x600054, 0x0, 1, 0x0, 1, 0x0, 0x0, 0x0, 0x0, 0x0, 0x0, 0x0, .single, .function⟩,
  ⟨"LTB_POS_s_LO", 0x600060, 0x8, 11, 0x0, 1, 0x0, 0x0, 0x0, 0x0, 0x0, 0x0, 0x0, .lo, .function⟩,
  ⟨"LTB_POS_s_HI", 0x600064, 0x8, 11, 0x0, 1, 0x0, 0x0, 0x0, 0x0, 0x0, 0x0, 0x0, .hi, .function⟩,
  ⟨"LTB_LOCK", 0x6000C0, 0x0, 1, 0x0, 1, 0x0, 0x0, 0x0, 0x0, 0x1, 0x0, 0x0, .single, .function⟩]

/-- Registers of block 7 of R37: DSP. -/
def regRows7a : List RegRow := [
  ⟨"SRING_CFG", 0x780000, 0x40, 16, 0x0, 1, 0x0, 0x3FFF0F7F, 0x0, 0x0, 0x0, 0x0, 0x0, .single, .function⟩,
  ⟨"SRING_SIZE", 0x780004, 0x40, 16, 0x0, 1, 0x0, 0xFFF1FFF, 0x0, 0x0, 0x0, 0x0, 0x0, .single, .function⟩,
  ⟨"SRING_Y0", 0x780008, 0x40, 16, 0x0, 1, 0x0, 0xFFF, 0x0, 0x0, 0x0, 0x0, 0x0, .single, .function⟩,
  ⟨"SRING_FB_PITCH", 0x78000C, 0x40, 16, 0x0, 1, 0x0, 0xFFFFFF00, 0x0, 0x0, 0x0, 0x0, 0x0, .single, .function⟩,
  ⟨"SRING_FB_LO", 0x780010, 0x40, 16, 0x0, 1, 0x0, 0xFFFFFF00, 0x0, 0x0, 0x0, 0x0, 0x0, .lo, .function⟩,
  ⟨"SRING_FB_HI", 0x780014, 0x40, 16, 0x0, 1, 0x0, 0xFFFF, 0x0, 0x0, 0x0, 0x0, 0x0, .hi, .function⟩,
  ⟨"SRING_DIGEST_LO", 0x780018, 0x40, 16, 0x0, 1, 0x0, 0xFFFFFFF0, 0x0, 0x0, 0x0, 0x0, 0x0, .lo, .function⟩,
  ⟨"SRING_DIGEST_HI", 0x78001C, 0x40, 16, 0x0, 1, 0x0, 0xFFFF, 0x0, 0x0, 0x0, 0x0, 0x0, .hi, .function⟩,
  ⟨"SRING_STATUS", 0x780020, 0x40, 16, 0x0, 1, 0x0, 0x0, 0x0, 0x0, 0x0, 0x0, 0x0, .single, .function⟩,
  ⟨"SRING_SHOWN", 0x780024, 0x40, 16, 0x0, 1, 0x0, 0x0, 0x0, 0x0, 0x0, 0x0, 0x0, .single, .function⟩,
  ⟨"SRING_SUBST", 0x780028, 0x40, 16, 0x0, 1, 0x0, 0x0, 0x0, 0x0, 0x0, 0x0, 0x0, .single, .function⟩,
  ⟨"SRING_ECC_SUBST", 0x78002C, 0x40, 16, 0x0, 1, 0x0, 0x0, 0x0, 0x0, 0x0, 0x0, 0x0, .single, .function⟩,
  ⟨"SRING_EMPTY", 0x780030, 0x40, 16, 0x0, 1, 0x0, 0x0, 0x0, 0x0, 0x0, 0x0, 0x0, .single, .function⟩,
  ⟨"DSP_RACE_EVENTS", 0x780400, 0x0, 1, 0x0, 1, 0x0, 0x0, 0x0, 0xFFFFFFFF, 0x0, 0x0, 0x0, .single, .function⟩,
  ⟨"DSP_RACE_EVENT_EN", 0x780404, 0x0, 1, 0x0, 1, 0x0, 0xFFFFFFFF, 0x0, 0x0, 0x0, 0x0, 0x0, .single, .function⟩,
  ⟨"DSP_PLANE_MAP_0", 0x740000, 0x0, 1, 0x0, 1, 0xFFFFFFFF, 0xFFFFFFFF, 0x0, 0x0, 0x0, 0x0, 0x0, .single, .function⟩,
  ⟨"DSP_PLANE_MAP_1", 0x740004, 0x0, 1, 0x0, 1, 0xFFFFFFFF, 0xFFFFFFFF, 0x0, 0x0, 0x0, 0x0, 0x0, .single, .function⟩,
  ⟨"DSP_SCALER_MAP", 0x740008, 0x0, 1, 0x0, 1, 0xFFFFFFFF, 0xFFFFFFFF, 0x0, 0x0, 0x0, 0x0, 0x0, .single, .function⟩,
  ⟨"DSP_EVENTS", 0x740010, 0x0, 1, 0x0, 1, 0x0, 0x0, 0x0, 0x3FF, 0x0, 0x0, 0x0, .single, .function⟩,
  ⟨"DSP_EVENT_EN", 0x740014, 0x0, 1, 0x0, 1, 0x0, 0x3FF, 0x0, 0x0, 0x0, 0x0, 0x0, .single, .function⟩,
  ⟨"OUT_BG_RG", 0x710000, 0x100, 4, 0x0, 1, 0x0, 0xFFFFFFFF, 0x0, 0x0, 0x0, 0x0, 0x0, .single, .function⟩,
  ⟨"OUT_BG_B", 0x710004, 0x100, 4, 0x0, 1, 0x0, 0xFFFF, 0x0, 0x0, 0x0, 0x0, 0x0, .single, .function⟩,
  ⟨"OUT_COLOR", 0x710008, 0x100, 4, 0x0, 1, 0x0, 0x7F, 0x0, 0x0, 0x0, 0x0, 0x0, .single, .function⟩,
  ⟨"OUT_CTM", 0x71000C, 0x100, 4, 0x4, 4, 0x0, 0xFFFFFFFF, 0x0, 0x0, 0x0, 0x0, 0x0, .single, .function⟩]

/-- Registers of block 7 of R37: DSP. -/
def regRows7b : List RegRow := [
  ⟨"OUT_CTM_4", 0x71001C, 0x100, 4, 0x0, 1, 0x0, 0xFFFF, 0x0, 0x0, 0x0, 0x0, 0x0, .single, .function⟩,
  ⟨"OUT_COMMIT_LINE", 0x710040, 0x100, 4, 0x0, 1, 0x1FFF, 0x1FFF, 0x0, 0x0, 0x0, 0x0, 0x0, .single, .function⟩,
  ⟨"OUT_STATUS", 0x710044, 0x100, 4, 0x0, 1, 0x0, 0x0, 0x0, 0x0, 0x0, 0x0, 0x0, .single, .function⟩,
  ⟨"OUT_LATCH_LO", 0x710048, 0x100, 4, 0x0, 1, 0x0, 0x0, 0x0, 0x0, 0x0, 0x0, 0x0, .lo, .function⟩,
  ⟨"OUT_LATCH_HI", 0x71004C, 0x100, 4, 0x0, 1, 0x0, 0x0, 0x0, 0x0, 0x0, 0x0, 0x0, .hi, .function⟩,
  ⟨"OUT_COMMITS", 0x710050, 0x100, 4, 0x0, 1, 0x0, 0x0, 0x0, 0x0, 0x0, 0x0, 0x0, .single, .function⟩,
  ⟨"OUT_UNDERRUN", 0x710054, 0x100, 4, 0x0, 1, 0x0, 0x0, 0x0, 0x0, 0x0, 0x0, 0x0, .single, .function⟩,
  ⟨"OUT_SCAN_BASE_LO", 0x710058, 0x100, 4, 0x0, 1, 0x0, 0x0, 0xFFFFFFFF, 0x0, 0x0, 0x710068, 0x100, .lo, .function⟩,
  ⟨"OUT_SCAN_BASE_HI", 0x71005C, 0x100, 4, 0x0, 1, 0x0, 0x0, 0xFFFF, 0x0, 0x0, 0x710068, 0x100, .hi, .function⟩,
  ⟨"OUT_SCAN_LIMIT_LO", 0x710060, 0x100, 4, 0x0, 1, 0x0, 0x0, 0xFFFFFFFF, 0x0, 0x0, 0x710068, 0x100, .lo, .function⟩,
  ⟨"OUT_SCAN_LIMIT_HI", 0x710064, 0x100, 4, 0x0, 1, 0x0, 0x0, 0xFFFF, 0x0, 0x0, 0x710068, 0x100, .hi, .function⟩,
  ⟨"OUT_LOCK", 0x710068, 0x100, 4, 0x0, 1, 0x0, 0x0, 0x0, 0x0, 0x1, 0x0, 0x0, .single, .function⟩,
  ⟨"PLANE_p_CFG", 0x720000, 0x80, 16, 0x0, 1, 0x0, 0x1FF7FFF1, 0x0, 0x0, 0x0, 0x0, 0x0, .single, .function⟩,
  ⟨"PLANE_p_ADDR0_LO", 0x720004, 0x80, 16, 0x0, 1, 0x0, 0xFFFFFFC0, 0x0, 0x0, 0x0, 0x0, 0x0, .lo, .function⟩,
  ⟨"PLANE_p_ADDR0_HI", 0x720008, 0x80, 16, 0x0, 1, 0x0, 0xFFFF, 0x0, 0x0, 0x0, 0x0, 0x0, .hi, .function⟩,
  ⟨"PLANE_p_ADDR1_LO", 0x72000C, 0x80, 16, 0x0, 1, 0x0, 0xFFFFFFC0, 0x0, 0x0, 0x0, 0x0, 0x0, .lo, .function⟩,
  ⟨"PLANE_p_ADDR1_HI", 0x720010, 0x80, 16, 0x0, 1, 0x0, 0xFFFF, 0x0, 0x0, 0x0, 0x0, 0x0, .hi, .function⟩,
  ⟨"PLANE_p_PITCH", 0x720014, 0x80, 16, 0x0, 1, 0x0, 0xFFFFFFFF, 0x0, 0x0, 0x0, 0x0, 0x0, .single, .function⟩,
  ⟨"PLANE_p_SRC_POS", 0x720018, 0x80, 16, 0x0, 1, 0x0, 0x3FFF3FFF, 0x0, 0x0, 0x0, 0x0, 0x0, .single, .function⟩,
  ⟨"PLANE_p_SRC_SIZE", 0x72001C, 0x80, 16, 0x0, 1, 0x0, 0x3FFF3FFF, 0x0, 0x0, 0x0, 0x0, 0x0, .single, .function⟩,
  ⟨"PLANE_p_DST_POS", 0x720020, 0x80, 16, 0x0, 1, 0x0, 0xFFF0FFF, 0x0, 0x0, 0x0, 0x0, 0x0, .single, .function⟩,
  ⟨"PLANE_p_DST_SIZE", 0x720024, 0x80, 16, 0x0, 1, 0x0, 0x1FFF1FFF, 0x0, 0x0, 0x0, 0x0, 0x0, .single, .function⟩,
  ⟨"PLANE_p_ALPHA", 0x720028, 0x80, 16, 0x0, 1, 0x8000FFFF, 0xFFFFFFFF, 0x0, 0x0, 0x0, 0x0, 0x0, .single, .function⟩,
  ⟨"PLANE_p_CONST_RG", 0x72002C, 0x80, 16, 0x0, 1, 0x0, 0xFFFFFFFF, 0x0, 0x0, 0x0, 0x0, 0x0, .single, .function⟩]

/-- Registers of block 7 of R37: DSP. -/
def regRows7c : List RegRow := [
  ⟨"PLANE_p_CONST_B", 0x720030, 0x80, 16, 0x0, 1, 0x0, 0xFFFF, 0x0, 0x0, 0x0, 0x0, 0x0, .single, .function⟩,
  ⟨"PLANE_p_STATUS", 0x720040, 0x80, 16, 0x0, 1, 0x0, 0x0, 0x0, 0x0, 0x0, 0x0, 0x0, .single, .function⟩,
  ⟨"PLANE_p_UNDERRUN", 0x720044, 0x80, 16, 0x0, 1, 0x0, 0x0, 0x0, 0x0, 0x0, 0x0, 0x0, .single, .function⟩,
  ⟨"SCL_s_STATUS", 0x730000, 0x10, 8, 0x0, 1, 0x0, 0x0, 0x0, 0x0, 0x0, 0x0, 0x0, .single, .function⟩,
  ⟨"TG_CTRL", 0x700000, 0x100, 4, 0x0, 1, 0x0, 0x1, 0x0, 0x0, 0x0, 0x0, 0x0, .single, .function⟩,
  ⟨"TG_PCLK", 0x700004, 0x100, 4, 0x0, 1, 0x0, 0x3FFFFFFF, 0x0, 0x0, 0x0, 0x0, 0x0, .single, .function⟩,
  ⟨"TG_HTIME1", 0x700008, 0x100, 4, 0x0, 1, 0x0, 0xFFF1FFF, 0x0, 0x0, 0x0, 0x0, 0x0, .single, .function⟩,
  ⟨"TG_HTIME2", 0x70000C, 0x100, 4, 0x0, 1, 0x0, 0xFFF0FFF, 0x0, 0x0, 0x0, 0x0, 0x0, .single, .function⟩,
  ⟨"TG_VTIME1", 0x700010, 0x100, 4, 0x0, 1, 0x0, 0xFFF0FFF, 0x0, 0x0, 0x0, 0x0, 0x0, .single, .function⟩,
  ⟨"TG_VTIME2", 0x700014, 0x100, 4, 0x0, 1, 0x0, 0xFFF0FFF, 0x0, 0x0, 0x0, 0x0, 0x0, .single, .function⟩,
  ⟨"TG_STATUS", 0x700018, 0x100, 4, 0x0, 1, 0x0, 0x0, 0x0, 0x0, 0x0, 0x0, 0x0, .single, .function⟩,
  ⟨"DSI_CFG", 0x700020, 0x100, 4, 0x0, 1, 0x4, 0x1FF7, 0x0, 0x0, 0x0, 0x0, 0x0, .single, .function⟩,
  ⟨"DSI_RATE", 0x700024, 0x100, 4, 0x0, 1, 0x50, 0xFFF, 0x0, 0x0, 0x0, 0x0, 0x0, .single, .function⟩,
  ⟨"DSI_PKT_DELAY", 0x700028, 0x100, 4, 0x0, 1, 0x0, 0xFFF, 0x0, 0x0, 0x0, 0x0, 0x0, .single, .function⟩]

/-- Registers of block 7 of R37: DSP. -/
def regRows7 : List RegRow := regRows7a ++ regRows7b ++ regRows7c

/-- Registers of block 8 of R37: CAM. -/
def regRows8 : List RegRow := [
  ⟨"CSI_CTRL", 0x800000, 0x80, 4, 0x0, 1, 0x0, 0x3FFF, 0x0, 0x0, 0x0, 0x0, 0x0, .single, .function⟩,
  ⟨"CSI_SIZE", 0x800004, 0x80, 4, 0x0, 1, 0x0, 0x1FFF1FFF, 0x0, 0x0, 0x0, 0x0, 0x0, .single, .function⟩,
  ⟨"CSI_WIN", 0x800008, 0x80, 4, 0x0, 1, 0x0, 0x3FFFFF, 0x0, 0x0, 0x0, 0x0, 0x0, .single, .function⟩,
  ⟨"CSI_WIN_STRIDE", 0x80000C, 0x80, 4, 0x0, 1, 0x0, 0x1FFFF, 0x0, 0x0, 0x0, 0x0, 0x0, .single, .function⟩,
  ⟨"CSI_FB_BASE_LO", 0x800010, 0x80, 4, 0x0, 1, 0x0, 0xFFFFF000, 0x0, 0x0, 0x0, 0x0, 0x0, .lo, .function⟩,
  ⟨"CSI_FB_BASE_HI", 0x800014, 0x80, 4, 0x0, 1, 0x0, 0xFFFF, 0x0, 0x0, 0x0, 0x0, 0x0, .hi, .function⟩,
  ⟨"CSI_FB_PITCH", 0x800018, 0x80, 4, 0x0, 1, 0x0, 0xFFFFC0, 0x0, 0x0, 0x0, 0x0, 0x0, .single, .function⟩,
  ⟨"CSI_FB_STRIDE", 0x80001C, 0x80, 4, 0x0, 1, 0x0, 0xFFFFF000, 0x0, 0x0, 0x0, 0x0, 0x0, .single, .function⟩,
  ⟨"CSI_FE_SIGNAL", 0x800020, 0x80, 4, 0x0, 1, 0x0, 0x8000FFFF, 0x0, 0x0, 0x0, 0x0, 0x0, .single, .function⟩,
  ⟨"CSI_ERR", 0x800024, 0x80, 4, 0x0, 1, 0x0, 0x0, 0x0, 0x1FF, 0x0, 0x0, 0x0, .single, .function⟩,
  ⟨"CSI_ERR_EN", 0x800028, 0x80, 4, 0x0, 1, 0x0, 0x1FF, 0x0, 0x0, 0x0, 0x0, 0x0, .single, .function⟩,
  ⟨"CSI_ERR_COUNT", 0x80002C, 0x80, 4, 0x0, 1, 0x0, 0x0, 0x0, 0x0, 0x0, 0x0, 0x0, .single, .function⟩,
  ⟨"CSI_ERR_LINE", 0x800030, 0x80, 4, 0x0, 1, 0x0, 0x0, 0x0, 0x0, 0x0, 0x0, 0x0, .single, .function⟩,
  ⟨"CSI_EVENT_DELAY", 0x800034, 0x80, 4, 0x0, 1, 0x0, 0x0, 0x0, 0x0, 0x0, 0x0, 0x0, .single, .function⟩,
  ⟨"CSI_HOLD_MAX", 0x800038, 0x80, 4, 0x0, 1, 0x0, 0x0, 0x0, 0x0, 0x0, 0x0, 0x0, .single, .function⟩,
  ⟨"CSI_LINES_LAST", 0x80003C, 0x80, 4, 0x0, 1, 0x0, 0x0, 0x0, 0x0, 0x0, 0x0, 0x0, .single, .function⟩,
  ⟨"CSI_FS_LT_LO", 0x800040, 0x80, 4, 0x0, 1, 0x0, 0x0, 0x0, 0x0, 0x0, 0x0, 0x0, .lo, .function⟩,
  ⟨"CSI_FS_LT_HI", 0x800044, 0x80, 4, 0x0, 1, 0x0, 0x0, 0x0, 0x0, 0x0, 0x0, 0x0, .hi, .function⟩]

/-- Registers of block 9 of R37: GEO, BIN and HEAP. -/
def regRows9a : List RegRow := [
  ⟨"HEAP_META_BASE_LO", 0x980000, 0x0, 1, 0x0, 1, 0x0, 0x0, 0xFFFF0000, 0x0, 0x0, 0x980008, 0x0, .lo, .function⟩,
  ⟨"HEAP_META_BASE_HI", 0x980004, 0x0, 1, 0x0, 1, 0x0, 0x0, 0xFFFF, 0x0, 0x0, 0x980008, 0x0, .hi, .function⟩,
  ⟨"HEAP_LOCK", 0x980008, 0x0, 1, 0x0, 1, 0x0, 0x0, 0x0, 0x0, 0x1, 0x0, 0x0, .single, .function⟩,
  ⟨"HEAP_EVENTS", 0x980010, 0x0, 1, 0x0, 1, 0x0, 0x0, 0x0, 0x1, 0x0, 0x0, 0x0, .single, .function⟩,
  ⟨"HEAP_EVENT_EN", 0x980014, 0x0, 1, 0x0, 1, 0x0, 0x1, 0x0, 0x0, 0x0, 0x0, 0x0, .single, .function⟩,
  ⟨"HEAP_REFUSE", 0x980018, 0x0, 1, 0x0, 1, 0x0, 0x0, 0x0, 0x0, 0x0, 0x0, 0x0, .single, .function⟩,
  ⟨"HEAP_BIN_PENDING_i", 0x980020, 0x4, 4, 0x0, 1, 0x0, 0x0, 0x0, 0x0, 0x0, 0x0, 0x0, .single, .function⟩,
  ⟨"HEAP_c_VA_BASE_LO", 0x981000, 0x20, 128, 0x0, 1, 0x0, 0xFFFF0000, 0x0, 0x0, 0x0, 0x0, 0x0, .lo, .function⟩,
  ⟨"HEAP_c_VA_BASE_HI", 0x981004, 0x20, 128, 0x0, 1, 0x0, 0xFFFF, 0x0, 0x0, 0x0, 0x0, 0x0, .hi, .function⟩,
  ⟨"HEAP_c_UNITS", 0x981008, 0x20, 128, 0x0, 1, 0x0, 0x0, 0x0, 0x0, 0x0, 0x0, 0x0, .single, .function⟩,
  ⟨"HEAP_c_FREE_UNITS", 0x98100C, 0x20, 128, 0x0, 1, 0x0, 0x0, 0x0, 0x0, 0x0, 0x0, 0x0, .single, .function⟩,
  ⟨"HEAP_c_BIN_UNITS", 0x981010, 0x20, 128, 0x0, 1, 0x0, 0x0, 0x0, 0x0, 0x0, 0x0, 0x0, .single, .function⟩,
  ⟨"HEAP_c_BIN_REQ", 0x981014, 0x20, 128, 0x0, 1, 0x0, 0x0, 0x0, 0x0, 0x0, 0x0, 0x0, .single, .function⟩,
  ⟨"HEAP_c_BIN_SEQ", 0x981018, 0x20, 128, 0x0, 1, 0x0, 0x0, 0x0, 0x0, 0x0, 0x0, 0x0, .single, .function⟩,
  ⟨"HEAP_c_BAD_FREES", 0x98101C, 0x20, 128, 0x0, 1, 0x0, 0x0, 0x0, 0x0, 0x0, 0x0, 0x0, .single, .function⟩,
  ⟨"GEO_STATUS", 0x900000, 0x0, 1, 0x0, 1, 0x0, 0x0, 0x0, 0x0, 0x0, 0x0, 0x0, .single, .function⟩,
  ⟨"GEO_VERTS_LO", 0x900008, 0x0, 1, 0x0, 1, 0x0, 0x0, 0x0, 0x0, 0x0, 0x0, 0x0, .lo, .function⟩,
  ⟨"GEO_VERTS_HI", 0x90000C, 0x0, 1, 0x0, 1, 0x0, 0x0, 0x0, 0x0, 0x0, 0x0, 0x0, .hi, .function⟩,
  ⟨"GEO_PRIMS_IN_LO", 0x900010, 0x0, 1, 0x0, 1, 0x0, 0x0, 0x0, 0x0, 0x0, 0x0, 0x0, .lo, .function⟩,
  ⟨"GEO_PRIMS_IN_HI", 0x900014, 0x0, 1, 0x0, 1, 0x0, 0x0, 0x0, 0x0, 0x0, 0x0, 0x0, .hi, .function⟩,
  ⟨"GEO_PRIMS_OUT_LO", 0x900018, 0x0, 1, 0x0, 1, 0x0, 0x0, 0x0, 0x0, 0x0, 0x0, 0x0, .lo, .function⟩,
  ⟨"GEO_PRIMS_OUT_HI", 0x90001C, 0x0, 1, 0x0, 1, 0x0, 0x0, 0x0, 0x0, 0x0, 0x0, 0x0, .hi, .function⟩,
  ⟨"GEO_CLIPPED", 0x900020, 0x0, 1, 0x0, 1, 0x0, 0x0, 0x0, 0x0, 0x0, 0x0, 0x0, .single, .function⟩,
  ⟨"GEO_CULLED", 0x900024, 0x0, 1, 0x0, 1, 0x0, 0x0, 0x0, 0x0, 0x0, 0x0, 0x0, .single, .function⟩]

/-- Registers of block 9 of R37: GEO, BIN and HEAP. -/
def regRows9b : List RegRow := [
  ⟨"GEO_OOB", 0x900028, 0x0, 1, 0x0, 1, 0x0, 0x0, 0x0, 0x0, 0x0, 0x0, 0x0, .single, .function⟩,
  ⟨"GEO_TESS_POINTS_LO", 0x900030, 0x0, 1, 0x0, 1, 0x0, 0x0, 0x0, 0x0, 0x0, 0x0, 0x0, .lo, .function⟩,
  ⟨"GEO_TESS_POINTS_HI", 0x900034, 0x0, 1, 0x0, 1, 0x0, 0x0, 0x0, 0x0, 0x0, 0x0, 0x0, .hi, .function⟩,
  ⟨"BIN_STATUS", 0x910000, 0x0, 1, 0x0, 1, 0x0, 0x0, 0x0, 0x0, 0x0, 0x0, 0x0, .single, .function⟩,
  ⟨"BIN_PRIMS_LO", 0x910008, 0x0, 1, 0x0, 1, 0x0, 0x0, 0x0, 0x0, 0x0, 0x0, 0x0, .lo, .function⟩,
  ⟨"BIN_PRIMS_HI", 0x91000C, 0x0, 1, 0x0, 1, 0x0, 0x0, 0x0, 0x0, 0x0, 0x0, 0x0, .hi, .function⟩,
  ⟨"BIN_REFS_LO", 0x910010, 0x0, 1, 0x0, 1, 0x0, 0x0, 0x0, 0x0, 0x0, 0x0, 0x0, .lo, .function⟩,
  ⟨"BIN_REFS_HI", 0x910014, 0x0, 1, 0x0, 1, 0x0, 0x0, 0x0, 0x0, 0x0, 0x0, 0x0, .hi, .function⟩]

/-- Registers of block 9 of R37: GEO, BIN and HEAP. -/
def regRows9 : List RegRow := regRows9a ++ regRows9b

/-- Registers of block 11 of R37: CMP. -/
def regRows11 : List RegRow := [
  ⟨"CMP_i_STATUS", 0xB00000, 0x40, 2, 0x0, 1, 0x0, 0x0, 0x0, 0x0, 0x0, 0x0, 0x0, .single, .function⟩,
  ⟨"CMP_i_ORIG_LO", 0xB00008, 0x40, 2, 0x0, 1, 0x0, 0x0, 0x0, 0x0, 0x0, 0x0, 0x0, .lo, .function⟩,
  ⟨"CMP_i_ORIG_HI", 0xB0000C, 0x40, 2, 0x0, 1, 0x0, 0x0, 0x0, 0x0, 0x0, 0x0, 0x0, .hi, .function⟩,
  ⟨"CMP_i_STORED_LO", 0xB00010, 0x40, 2, 0x0, 1, 0x0, 0x0, 0x0, 0x0, 0x0, 0x0, 0x0, .lo, .function⟩,
  ⟨"CMP_i_STORED_HI", 0xB00014, 0x40, 2, 0x0, 1, 0x0, 0x0, 0x0, 0x0, 0x0, 0x0, 0x0, .hi, .function⟩,
  ⟨"CMP_i_PACKED", 0xB00018, 0x40, 2, 0x0, 1, 0x0, 0x0, 0x0, 0x0, 0x0, 0x0, 0x0, .single, .function⟩,
  ⟨"CMP_i_RAW", 0xB0001C, 0x40, 2, 0x0, 1, 0x0, 0x0, 0x0, 0x0, 0x0, 0x0, 0x0, .single, .function⟩,
  ⟨"CMP_i_UNPACKED", 0xB00020, 0x40, 2, 0x0, 1, 0x0, 0x0, 0x0, 0x0, 0x0, 0x0, 0x0, .single, .function⟩,
  ⟨"CMP_i_CHECK_ERRS", 0xB00024, 0x40, 2, 0x0, 1, 0x0, 0x0, 0x0, 0x0, 0x0, 0x0, 0x0, .single, .function⟩,
  ⟨"CMP_EVENTS", 0xB00100, 0x0, 1, 0x0, 1, 0x0, 0x0, 0x0, 0x3, 0x0, 0x0, 0x0, .single, .function⟩,
  ⟨"CMP_EVENT_EN", 0xB00104, 0x0, 1, 0x0, 1, 0x0, 0x3, 0x0, 0x0, 0x0, 0x0, 0x0, .single, .function⟩,
  ⟨"CMP_CHECK_ADDR_LO", 0xB00108, 0x0, 1, 0x0, 1, 0x0, 0x0, 0x0, 0x0, 0x0, 0x0, 0x0, .lo, .function⟩,
  ⟨"CMP_CHECK_ADDR_HI", 0xB0010C, 0x0, 1, 0x0, 1, 0x0, 0x0, 0x0, 0x0, 0x0, 0x0, 0x0, .hi, .function⟩,
  ⟨"CMP_CHECK_INFO", 0xB00110, 0x0, 1, 0x0, 1, 0x0, 0x0, 0x0, 0x0, 0x0, 0x0, 0x0, .single, .function⟩]

/-- Registers of block 12 of R37: HLT. -/
def regRows12a : List RegRow := [
  ⟨"HLT_TWIN_CTRL", 0xC10000, 0x0, 1, 0x0, 1, 0x0, 0x0, 0x7, 0x0, 0x0, 0xC10038, 0x0, .single, .function⟩,
  ⟨"HLT_TWIN_CFG", 0xC10004, 0x0, 1, 0x0, 1, 0x400010, 0x0, 0xFFF00FF, 0x0, 0x0, 0xC10038, 0x0, .single, .function⟩,
  ⟨"HLT_TWIN_DISP", 0xC10008, 0x0, 1, 0x0, 1, 0x0, 0x0, 0xFF, 0x0, 0x0, 0xC10038, 0x0, .single, .function⟩,
  ⟨"HLT_TWIN_HOLD", 0xC1000C, 0x0, 1, 0x0, 1, 0x4CCD, 0x0, 0xFFFFFF, 0x0, 0x0, 0xC10038, 0x0, .single, .function⟩,
  ⟨"HLT_ECHO", 0xC10010, 0x0, 1, 0x0, 1, 0x400010, 0x0, 0xFF0FFF, 0x0, 0x0, 0xC10038, 0x0, .single, .function⟩,
  ⟨"HLT_TWIN_RINGS_LO", 0xC10018, 0x0, 1, 0x0, 1, 0x0, 0x0, 0xFFFFFFFF, 0x0, 0x0, 0xC10038, 0x0, .lo, .function⟩,
  ⟨"HLT_TWIN_RINGS_HI", 0xC1001C, 0x0, 1, 0x0, 1, 0x0, 0x0, 0xFFFFFFFF, 0x0, 0x0, 0xC10038, 0x0, .hi, .function⟩,
  ⟨"HLT_SALT_SEED_LO", 0xC10020, 0x0, 1, 0x0, 1, 0x0, 0x0, 0xFFFFFFFF, 0x0, 0x0, 0xC10038, 0x0, .lo, .function⟩,
  ⟨"HLT_SALT_SEED_HI", 0xC10024, 0x0, 1, 0x0, 1, 0x0, 0x0, 0xFFFFFFFF, 0x0, 0x0, 0xC10038, 0x0, .hi, .function⟩,
  ⟨"HLT_MIRROR_BASE_LO", 0xC10028, 0x0, 1, 0x0, 1, 0x0, 0x0, 0xFFFFF000, 0x0, 0x0, 0xC10038, 0x0, .lo, .function⟩,
  ⟨"HLT_MIRROR_BASE_HI", 0xC1002C, 0x0, 1, 0x0, 1, 0x0, 0x0, 0xFFFF, 0x0, 0x0, 0xC10038, 0x0, .hi, .function⟩,
  ⟨"HLT_MIRROR_LIMIT_LO", 0xC10030, 0x0, 1, 0x0, 1, 0x0, 0x0, 0xFFFFF000, 0x0, 0x0, 0xC10038, 0x0, .lo, .function⟩,
  ⟨"HLT_MIRROR_LIMIT_HI", 0xC10034, 0x0, 1, 0x0, 1, 0x0, 0x0, 0xFFFF, 0x0, 0x0, 0xC10038, 0x0, .hi, .function⟩,
  ⟨"HLT_TWIN_LOCK", 0xC10038, 0x0, 1, 0x0, 1, 0x0, 0x0, 0x0, 0x0, 0x1, 0x0, 0x0, .single, .function⟩,
  ⟨"HLT_TWIN_CMD", 0xC1003C, 0x0, 1, 0x0, 1, 0x0, 0x0, 0x0, 0x0, 0x0, 0x0, 0x0, .single, .function⟩,
  ⟨"HLT_TWIN_STATUS", 0xC10040, 0x0, 1, 0x0, 1, 0x0, 0x0, 0x0, 0x0, 0x0, 0x0, 0x0, .single, .function⟩,
  ⟨"HLT_TWIN_EVENTS", 0xC10044, 0x0, 1, 0x0, 1, 0x0, 0x0, 0x0, 0x7FF, 0x0, 0x0, 0x0, .single, .function⟩,
  ⟨"HLT_TWIN_EVENT_EN", 0xC10048, 0x0, 1, 0x0, 1, 0x0, 0x7FF, 0x0, 0x0, 0x0, 0x0, 0x0, .single, .function⟩,
  ⟨"HLT_TWIN_VERDICT", 0xC1004C, 0x0, 1, 0x0, 1, 0x0, 0x0, 0x0, 0x0, 0x0, 0x0, 0x0, .single, .function⟩,
  ⟨"HLT_TWIN_USED", 0xC10050, 0x0, 1, 0x0, 1, 0x0, 0x0, 0x0, 0x0, 0x0, 0x0, 0x0, .single, .function⟩,
  ⟨"HLT_LINK_LATENCY", 0xC10054, 0x0, 1, 0x0, 1, 0x0, 0x0, 0x0, 0x0, 0x0, 0x0, 0x0, .single, .function⟩,
  ⟨"HLT_LINK_SKEW", 0xC10058, 0x0, 1, 0x0, 1, 0x0, 0x0, 0x0, 0x0, 0x0, 0x0, 0x0, .single, .function⟩,
  ⟨"HLT_LINK_ECHO_LAST", 0xC1005C, 0x0, 1, 0x0, 1, 0x0, 0x0, 0x0, 0x0, 0x0, 0x0, 0x0, .single, .function⟩,
  ⟨"HLT_MIRROR_QUEUE", 0xC10060, 0x0, 1, 0x0, 1, 0x0, 0x0, 0x0, 0x0, 0x0, 0x0, 0x0, .single, .function⟩]

/-- Registers of block 12 of R37: HLT. -/
def regRows12b : List RegRow := [
  ⟨"HLT_TRANSIENTS", 0xC10064, 0x0, 1, 0x0, 1, 0x0, 0x0, 0x0, 0x0, 0x0, 0x0, 0x0, .single, .function⟩,
  ⟨"HLT_PERMANENTS", 0xC10068, 0x0, 1, 0x0, 1, 0x0, 0x0, 0x0, 0x0, 0x0, 0x0, 0x0, .single, .function⟩,
  ⟨"HLT_SALT_PASSES", 0xC1006C, 0x0, 1, 0x0, 1, 0x0, 0x0, 0x0, 0x0, 0x0, 0x0, 0x0, .single, .function⟩,
  ⟨"HLT_STRIP_MISMATCHES", 0xC10070, 0x0, 1, 0x0, 1, 0x0, 0x0, 0x0, 0x0, 0x0, 0x0, 0x0, .single, .function⟩,
  ⟨"HLT_HOST_DROPS", 0xC10074, 0x0, 1, 0x0, 1, 0x0, 0x0, 0x0, 0x0, 0x0, 0x0, 0x0, .single, .function⟩,
  ⟨"HLT_MIRROR_BAD", 0xC10078, 0x0, 1, 0x0, 1, 0x0, 0x0, 0x0, 0x0, 0x0, 0x0, 0x0, .single, .function⟩,
  ⟨"HLT_TG_SKEW_m", 0xC10080, 0x4, 4, 0x0, 1, 0x0, 0x0, 0x0, 0x0, 0x0, 0x0, 0x0, .single, .function⟩,
  ⟨"HLT_MIRROR_FLITS_LO", 0xC10090, 0x0, 1, 0x0, 1, 0x0, 0x0, 0x0, 0x0, 0x0, 0x0, 0x0, .lo, .function⟩,
  ⟨"HLT_MIRROR_FLITS_HI", 0xC10094, 0x0, 1, 0x0, 1, 0x0, 0x0, 0x0, 0x0, 0x0, 0x0, 0x0, .hi, .function⟩,
  ⟨"HLT_MAP", 0xC00000, 0x0, 1, 0x0, 1, 0x0, 0x0, 0x0, 0x0, 0x0, 0x0, 0x0, .single, .function⟩,
  ⟨"HLT_STATUS", 0xC00004, 0x0, 1, 0x0, 1, 0x0, 0x0, 0x0, 0x0, 0x0, 0x0, 0x0, .single, .function⟩,
  ⟨"HLT_EVENTS", 0xC00008, 0x0, 1, 0x0, 1, 0x0, 0x0, 0x0, 0x7F, 0x0, 0x0, 0x0, .single, .function⟩,
  ⟨"HLT_EVENT_EN", 0xC0000C, 0x0, 1, 0x0, 1, 0x0, 0x7F, 0x0, 0x0, 0x0, 0x0, 0x0, .single, .function⟩,
  ⟨"HLT_POLICY", 0xC00010, 0x0, 1, 0x0, 1, 0x0, 0x0, 0xFFFFF1F, 0x0, 0x0, 0xC00018, 0x0, .single, .function⟩,
  ⟨"HLT_POLICY2", 0xC00014, 0x0, 1, 0x0, 1, 0x0, 0x0, 0xFFFFFFFF, 0x0, 0x0, 0xC00018, 0x0, .single, .function⟩,
  ⟨"HLT_LOCK", 0xC00018, 0x0, 1, 0x0, 1, 0x0, 0x0, 0x0, 0x0, 0x1, 0x0, 0x0, .single, .function⟩,
  ⟨"HLT_UNCORE_SUSPECTS", 0xC0001C, 0x0, 1, 0x0, 1, 0x0, 0x0, 0x0, 0x0, 0x0, 0x0, 0x0, .single, .function⟩,
  ⟨"HLT_KAT_COUNT", 0xC00020, 0x0, 1, 0x0, 1, 0x0, 0x0, 0x0, 0x0, 0x0, 0x0, 0x0, .single, .function⟩,
  ⟨"HLT_KAT_LAST", 0xC00024, 0x0, 1, 0x0, 1, 0x0, 0x0, 0x0, 0x0, 0x0, 0x0, 0x0, .single, .function⟩,
  ⟨"HLT_CLUSTER_c", 0xC00100, 0x4, 16, 0x0, 1, 0x0, 0x0, 0x0, 0x0, 0x0, 0x0, 0x0, .single, .function⟩]

/-- Registers of block 12 of R37: HLT. -/
def regRows12 : List RegRow := regRows12a ++ regRows12b

/-- Registers of block 13 of R37: VZL. -/
def regRows13a : List RegRow := [
  ⟨"VZL_ID", 0xD00000, 0x0, 1, 0x0, 1, 0x0, 0x0, 0x7F, 0x0, 0x0, 0xD00038, 0x0, .single, .function⟩,
  ⟨"VZL_DIMS", 0xD00004, 0x0, 1, 0x0, 1, 0x111, 0x0, 0x777, 0x0, 0x0, 0xD00038, 0x0, .single, .function⟩,
  ⟨"VZL_CTRL", 0xD00008, 0x0, 1, 0x0, 1, 0x8800, 0x0, 0xFF03, 0x0, 0x0, 0xD00038, 0x0, .single, .function⟩,
  ⟨"VZL_REACH_k", 0xD00010, 0x4, 4, 0x0, 1, 0x0, 0x0, 0xFFFFFFFF, 0x0, 0x0, 0xD00038, 0x0, .single, .function⟩,
  ⟨"VZL_IN_BASE_LO", 0xD00020, 0x0, 1, 0x0, 1, 0x0, 0x0, 0xFFFF0000, 0x0, 0x0, 0xD00038, 0x0, .lo, .function⟩,
  ⟨"VZL_IN_BASE_HI", 0xD00024, 0x0, 1, 0x0, 1, 0x0, 0x0, 0xFFFF, 0x0, 0x0, 0xD00038, 0x0, .hi, .function⟩,
  ⟨"VZL_IN_LIMIT_LO", 0xD00028, 0x0, 1, 0x0, 1, 0x0, 0x0, 0xFFFF0000, 0x0, 0x0, 0xD00038, 0x0, .lo, .function⟩,
  ⟨"VZL_IN_LIMIT_HI", 0xD0002C, 0x0, 1, 0x0, 1, 0x0, 0x0, 0xFFFF, 0x0, 0x0, 0xD00038, 0x0, .hi, .function⟩,
  ⟨"VZL_IN_SIG", 0xD00030, 0x0, 1, 0x0, 1, 0x0, 0x0, 0x17F, 0x0, 0x0, 0xD00038, 0x0, .single, .function⟩,
  ⟨"VZL_TIMEOUT", 0xD00034, 0x0, 1, 0x0, 1, 0x140, 0x0, 0xFFFF, 0x0, 0x0, 0xD00038, 0x0, .single, .function⟩,
  ⟨"VZL_LOCK", 0xD00038, 0x0, 1, 0x0, 1, 0x0, 0x0, 0x0, 0x0, 0x1, 0x0, 0x0, .single, .function⟩,
  ⟨"VZL_EVENTS", 0xD00040, 0x0, 1, 0x0, 1, 0x0, 0x0, 0x0, 0x7FFF, 0x0, 0x0, 0x0, .single, .function⟩,
  ⟨"VZL_EVENT_EN", 0xD00044, 0x0, 1, 0x0, 1, 0x0, 0x7FFF, 0x0, 0x0, 0x0, 0x0, 0x0, .single, .function⟩,
  ⟨"VZL_TAGS", 0xD00048, 0x0, 1, 0x0, 1, 0x0, 0x0, 0x0, 0x0, 0x0, 0x0, 0x0, .single, .function⟩,
  ⟨"VZL_IN_REJECTS", 0xD0004C, 0x0, 1, 0x0, 1, 0x0, 0x0, 0x0, 0x0, 0x0, 0x0, 0x0, .single, .function⟩,
  ⟨"VZL_RSP_ERRORS", 0xD00050, 0x0, 1, 0x0, 1, 0x0, 0x0, 0x0, 0x0, 0x0, 0x0, 0x0, .single, .function⟩,
  ⟨"VZL_TIMEOUTS", 0xD00054, 0x0, 1, 0x0, 1, 0x0, 0x0, 0x0, 0x0, 0x0, 0x0, 0x0, .single, .function⟩,
  ⟨"VZL_DISCARDS", 0xD00058, 0x0, 1, 0x0, 1, 0x0, 0x0, 0x0, 0x0, 0x0, 0x0, 0x0, .single, .function⟩,
  ⟨"VZL_p_CTRL", 0xD00100, 0x40, 4, 0x0, 1, 0x0, 0xE, 0x0, 0x0, 0x0, 0x0, 0x0, .single, .function⟩,
  ⟨"VZL_p_STATUS", 0xD00104, 0x40, 4, 0x0, 1, 0x0, 0x0, 0x0, 0x0, 0x0, 0x0, 0x0, .single, .function⟩,
  ⟨"VZL_p_SKEW", 0xD00108, 0x40, 4, 0x0, 1, 0x0, 0x0, 0x0, 0x0, 0x0, 0x0, 0x0, .single, .function⟩,
  ⟨"VZL_p_LATENCY", 0xD0010C, 0x40, 4, 0x0, 1, 0x0, 0x0, 0x0, 0x0, 0x0, 0x0, 0x0, .single, .function⟩,
  ⟨"VZL_p_CRC_ERRS", 0xD00110, 0x40, 4, 0x0, 1, 0x0, 0x0, 0x0, 0x0, 0x0, 0x0, 0x0, .single, .function⟩,
  ⟨"VZL_p_REPLAYS", 0xD00114, 0x40, 4, 0x0, 1, 0x0, 0x0, 0x0, 0x0, 0x0, 0x0, 0x0, .single, .function⟩]

/-- Registers of block 13 of R37: VZL. -/
def regRows13b : List RegRow := [
  ⟨"VZL_p_RETRAINS", 0xD00118, 0x40, 4, 0x0, 1, 0x0, 0x0, 0x0, 0x0, 0x0, 0x0, 0x0, .single, .function⟩,
  ⟨"VZL_p_TX_FLITS_LO", 0xD00120, 0x40, 4, 0x0, 1, 0x0, 0x0, 0x0, 0x0, 0x0, 0x0, 0x0, .lo, .function⟩,
  ⟨"VZL_p_TX_FLITS_HI", 0xD00124, 0x40, 4, 0x0, 1, 0x0, 0x0, 0x0, 0x0, 0x0, 0x0, 0x0, .hi, .function⟩]

/-- Registers of block 13 of R37: VZL. -/
def regRows13 : List RegRow := regRows13a ++ regRows13b

/-- Registers of block 14 of R37: PIN. -/
def regRows14a : List RegRow := [
  ⟨"PIN_k_CFG", 0xE00000, 0x4, 6, 0x0, 1, 0x89, 0x3F3F, 0x0, 0x0, 0x0, 0x0, 0x0, .single, .device⟩,
  ⟨"PIN_k_CFG", 0xE00018, 0x4, 58, 0x0, 1, 0x80, 0x3F3F, 0x0, 0x0, 0x0, 0x0, 0x0, .single, .device⟩,
  ⟨"PIN_IN_b", 0xE00100, 0x20, 8, 0x0, 1, 0x0, 0x0, 0x0, 0x0, 0x0, 0x0, 0x0, .single, .device⟩,
  ⟨"PIN_OUT_b", 0xE00104, 0x20, 8, 0x0, 1, 0x0, 0x0, 0x0, 0x0, 0x0, 0x0, 0x0, .single, .device⟩,
  ⟨"PIN_SET_b", 0xE00108, 0x20, 8, 0x0, 1, 0x0, 0x0, 0x0, 0x0, 0x0, 0x0, 0x0, .single, .device⟩,
  ⟨"PIN_CLR_b", 0xE0010C, 0x20, 8, 0x0, 1, 0x0, 0x0, 0x0, 0x0, 0x0, 0x0, 0x0, .single, .device⟩,
  ⟨"PIN_TGL_b", 0xE00110, 0x20, 8, 0x0, 1, 0x0, 0x0, 0x0, 0x0, 0x0, 0x0, 0x0, .single, .device⟩,
  ⟨"PIN_OE_b", 0xE00114, 0x20, 8, 0x0, 1, 0x0, 0xFF, 0x0, 0x0, 0x0, 0x0, 0x0, .single, .device⟩,
  ⟨"PIN_EDGE_b", 0xE00118, 0x20, 8, 0x0, 1, 0x0, 0x0, 0x0, 0xFF, 0x0, 0x0, 0x0, .single, .device⟩,
  ⟨"PIN_EDGE_EN_b", 0xE0011C, 0x20, 8, 0x0, 1, 0x0, 0xFFFF, 0x0, 0x0, 0x0, 0x0, 0x0, .single, .device⟩,
  ⟨"PIN_STATUS", 0xE00200, 0x0, 1, 0x0, 1, 0x0, 0x0, 0x0, 0x0, 0x0, 0x0, 0x0, .single, .device⟩,
  ⟨"PIN_EVENTS", 0xE00204, 0x0, 1, 0x0, 1, 0x0, 0x0, 0x0, 0xF, 0x0, 0x0, 0x0, .single, .device⟩,
  ⟨"PIN_EVENT_EN", 0xE00208, 0x0, 1, 0x0, 1, 0x0, 0xF, 0x0, 0x0, 0x0, 0x0, 0x0, .single, .device⟩,
  ⟨"PIN_CONFLICT", 0xE0020C, 0x0, 1, 0x0, 1, 0x0, 0x0, 0x0, 0x0, 0x0, 0x0, 0x0, .single, .device⟩,
  ⟨"PIN_DEBOUNCE", 0xE00210, 0x0, 1, 0x0, 1, 0x0, 0xFFFF, 0x0, 0x0, 0x0, 0x0, 0x0, .single, .device⟩,
  ⟨"PIN_EN_OUT", 0xE00220, 0x0, 1, 0x0, 1, 0x0, 0x0, 0x0, 0x0, 0x0, 0x0, 0x0, .single, .device⟩,
  ⟨"PIN_EN_SET", 0xE00224, 0x0, 1, 0x0, 1, 0x0, 0x0, 0x0, 0x0, 0x0, 0x0, 0x0, .single, .device⟩,
  ⟨"PIN_EN_CLR", 0xE00228, 0x0, 1, 0x0, 1, 0x0, 0x0, 0x0, 0x0, 0x0, 0x0, 0x0, .single, .device⟩,
  ⟨"PIN_EN_TGL", 0xE0022C, 0x0, 1, 0x0, 1, 0x0, 0x0, 0x0, 0x0, 0x0, 0x0, 0x0, .single, .device⟩,
  ⟨"I2C_CFG", 0xE00300, 0x20, 2, 0x0, 1, 0x0, 0x1, 0x0, 0x0, 0x0, 0x0, 0x0, .single, .device⟩,
  ⟨"I2C_XFER", 0xE00304, 0x20, 2, 0x0, 1, 0x0, 0x0, 0x0, 0x0, 0x0, 0x0, 0x0, .single, .device⟩,
  ⟨"I2C_WDATA_LO", 0xE00308, 0x20, 2, 0x0, 1, 0x0, 0xFFFFFFFF, 0x0, 0x0, 0x0, 0x0, 0x0, .lo, .device⟩,
  ⟨"I2C_WDATA_HI", 0xE0030C, 0x20, 2, 0x0, 1, 0x0, 0xFFFFFFFF, 0x0, 0x0, 0x0, 0x0, 0x0, .hi, .device⟩,
  ⟨"I2C_RDATA_LO", 0xE00310, 0x20, 2, 0x0, 1, 0x0, 0x0, 0x0, 0x0, 0x0, 0x0, 0x0, .lo, .device⟩]

/-- Registers of block 14 of R37: PIN. -/
def regRows14b : List RegRow := [
  ⟨"I2C_RDATA_HI", 0xE00314, 0x20, 2, 0x0, 1, 0x0, 0x0, 0x0, 0x0, 0x0, 0x0, 0x0, .hi, .device⟩,
  ⟨"I2C_STATUS", 0xE00318, 0x20, 2, 0x0, 1, 0x0, 0x0, 0x0, 0x0, 0x0, 0x0, 0x0, .single, .device⟩]

/-- Registers of block 14 of R37: PIN. -/
def regRows14 : List RegRow := regRows14a ++ regRows14b

/-- Registers of block 15 of R37: PMU, GRM and AON. -/
def regRows15a : List RegRow := [
  ⟨"GRM_STATUS", 0xF80000, 0x0, 1, 0x0, 1, 0x0, 0x0, 0x0, 0x0, 0x0, 0x0, 0x0, .single, .device⟩,
  ⟨"GRM_FW_VERSION", 0xF80004, 0x0, 1, 0x0, 1, 0x0, 0x0, 0x0, 0x0, 0x0, 0x0, 0x0, .single, .device⟩,
  ⟨"GRM_EVENTS", 0xF80008, 0x0, 1, 0x0, 1, 0x0, 0x0, 0x0, 0x3F, 0x0, 0x0, 0x0, .single, .device⟩,
  ⟨"GRM_EVENT_EN", 0xF8000C, 0x0, 1, 0x0, 1, 0x0, 0x3F, 0x0, 0x0, 0x0, 0x0, 0x0, .single, .device⟩,
  ⟨"GRM_DOORBELL", 0xF80010, 0x0, 1, 0x0, 1, 0x0, 0x0, 0x0, 0x0, 0x0, 0x0, 0x0, .single, .device⟩,
  ⟨"GRM_SEQ", 0xF80014, 0x0, 1, 0x0, 1, 0x0, 0x0, 0x0, 0x0, 0x0, 0x0, 0x0, .single, .device⟩,
  ⟨"GRM_REQ", 0xF81000, 0x4, 64, 0x0, 1, 0x0, 0xFFFFFFFF, 0x0, 0x0, 0x0, 0x0, 0x0, .single, .device⟩,
  ⟨"GRM_RSP", 0xF82000, 0x4, 64, 0x0, 1, 0x0, 0x0, 0x0, 0x0, 0x0, 0x0, 0x0, .single, .device⟩,
  ⟨"AON_CAL_LO", 0xF90000, 0x0, 1, 0x0, 1, 0x0, 0x0, 0x0, 0x0, 0x0, 0x0, 0x0, .lo, .aon⟩,
  ⟨"AON_CAL_HI", 0xF90004, 0x0, 1, 0x0, 1, 0x0, 0x0, 0x0, 0x0, 0x0, 0x0, 0x0, .hi, .aon⟩,
  ⟨"AON_STATUS", 0xF90008, 0x0, 1, 0x0, 1, 0x0, 0x0, 0x0, 0x0, 0x0, 0x0, 0x0, .single, .aon⟩,
  ⟨"AON_ALARM_LO", 0xF90010, 0x0, 1, 0x0, 1, 0x0, 0x0, 0x0, 0x0, 0x0, 0x0, 0x0, .lo, .aon⟩,
  ⟨"AON_ALARM_HI", 0xF90014, 0x0, 1, 0x0, 1, 0x0, 0x0, 0x0, 0x0, 0x0, 0x0, 0x0, .hi, .aon⟩,
  ⟨"PMU_STATUS", 0xF00000, 0x0, 1, 0x0, 1, 0x0, 0x0, 0x0, 0x0, 0x0, 0x0, 0x0, .single, .function⟩,
  ⟨"PMU_EVENTS", 0xF00004, 0x0, 1, 0x0, 1, 0x0, 0x0, 0x0, 0x7F, 0x0, 0x0, 0x0, .single, .function⟩,
  ⟨"PMU_EVENT_EN", 0xF00008, 0x0, 1, 0x0, 1, 0x0, 0x7F, 0x0, 0x0, 0x0, 0x0, 0x0, .single, .function⟩,
  ⟨"PMU_PSTATE", 0xF0000C, 0x0, 1, 0x0, 1, 0x0, 0x3, 0x0, 0x0, 0x0, 0x0, 0x0, .single, .function⟩,
  ⟨"PMU_DVFS", 0xF00010, 0x0, 1, 0x0, 1, 0x0, 0x7, 0x0, 0x0, 0x0, 0x0, 0x0, .single, .function⟩,
  ⟨"PMU_PLIMIT", 0xF00014, 0x0, 1, 0x0, 1, 0x0, 0x0, 0xFF03FF, 0x0, 0x0, 0xF0001C, 0x0, .single, .function⟩,
  ⟨"PMU_THERMAL", 0xF00018, 0x0, 1, 0x0, 1, 0x0, 0x0, 0xFFF, 0x0, 0x0, 0xF0001C, 0x0, .single, .function⟩,
  ⟨"PMU_LOCK", 0xF0001C, 0x0, 1, 0x0, 1, 0x0, 0x0, 0x0, 0x0, 0x1, 0x0, 0x0, .single, .function⟩,
  ⟨"PMU_POWER", 0xF00020, 0x0, 1, 0x0, 1, 0x0, 0x0, 0x0, 0x0, 0x0, 0x0, 0x0, .single, .function⟩,
  ⟨"PMU_CEILING", 0xF00024, 0x0, 1, 0x0, 1, 0x77, 0x0, 0x0, 0x0, 0x0, 0x0, 0x0, .single, .function⟩,
  ⟨"PMU_STRAPS", 0xF00028, 0x0, 1, 0x0, 1, 0x0, 0x0, 0x0, 0x0, 0x0, 0x0, 0x0, .single, .function⟩]

/-- Registers of block 15 of R37: PMU, GRM and AON. -/
def regRows15b : List RegRow := [
  ⟨"PMU_CORE_FREQ", 0xF0002C, 0x0, 1, 0x0, 1, 0x0, 0x0, 0x0, 0x0, 0x0, 0x0, 0x0, .single, .function⟩,
  ⟨"PMU_TEMP_i", 0xF00030, 0x4, 4, 0x0, 1, 0x0, 0x0, 0x0, 0x0, 0x0, 0x0, 0x0, .single, .function⟩,
  ⟨"PMU_POINT_k", 0xF00040, 0x4, 8, 0x0, 1, 0x0, 0x0, 0x0, 0x0, 0x0, 0x0, 0x0, .single, .function⟩,
  ⟨"PMU_HOTTEST", 0xF00060, 0x0, 1, 0x0, 1, 0x0, 0x0, 0x0, 0x0, 0x0, 0x0, 0x0, .single, .function⟩]

/-- Registers of block 15 of R37: PMU, GRM and AON. -/
def regRows15 : List RegRow := regRows15a ++ regRows15b

/-- Registers of block 16 of R37: one cluster, repeated 16 times. -/
def regRows16a : List RegRow := [
  ⟨"SHEET_CFG", 0x1060000, 0x100000, 16, 0x0, 1, 0x0, 0x0, 0x7F, 0x0, 0x0, 0x1060008, 0x100000, .single, .function⟩,
  ⟨"SHEET_STATUS", 0x1060004, 0x100000, 16, 0x0, 1, 0x40, 0x0, 0x0, 0x0, 0x0, 0x0, 0x0, .single, .function⟩,
  ⟨"SHEET_LOCK", 0x1060008, 0x100000, 16, 0x0, 1, 0x0, 0x0, 0x0, 0x0, 0x1, 0x0, 0x0, .single, .function⟩,
  ⟨"SHEET_EVENTS", 0x1060010, 0x100000, 16, 0x0, 1, 0x0, 0x0, 0x0, 0x3, 0x0, 0x0, 0x0, .single, .function⟩,
  ⟨"SHEET_EVENT_EN", 0x1060014, 0x100000, 16, 0x0, 1, 0x0, 0x3, 0x0, 0x0, 0x0, 0x0, 0x0, .single, .function⟩,
  ⟨"SHEET_ECC_ADDR", 0x1060018, 0x100000, 16, 0x0, 1, 0x0, 0x0, 0x0, 0x0, 0x0, 0x0, 0x0, .single, .function⟩,
  ⟨"SHEET_ECC_CORR_COUNT", 0x106001C, 0x100000, 16, 0x0, 1, 0x0, 0x0, 0x0, 0x0, 0x0, 0x0, 0x0, .single, .function⟩,
  ⟨"SHEET_ECC_UNCORR_COUNT", 0x1060020, 0x100000, 16, 0x0, 1, 0x0, 0x0, 0x0, 0x0, 0x0, 0x0, 0x0, .single, .function⟩,
  ⟨"LIFT_STATUS", 0x1070000, 0x100000, 16, 0x0, 1, 0x0, 0x0, 0x0, 0x0, 0x0, 0x0, 0x0, .single, .function⟩,
  ⟨"LIFT_BYTES_LO", 0x1070008, 0x100000, 16, 0x0, 1, 0x0, 0x0, 0x0, 0x0, 0x0, 0x0, 0x0, .lo, .function⟩,
  ⟨"LIFT_BYTES_HI", 0x107000C, 0x100000, 16, 0x0, 1, 0x0, 0x0, 0x0, 0x0, 0x0, 0x0, 0x0, .hi, .function⟩,
  ⟨"CLU_ID", 0x1000000, 0x100000, 16, 0x0, 1, 0x0, 0x0, 0x0, 0x0, 0x0, 0x0, 0x0, .single, .function⟩,
  ⟨"CLU_STATUS", 0x1000004, 0x100000, 16, 0x0, 1, 0x0, 0x0, 0x0, 0x0, 0x0, 0x0, 0x0, .single, .function⟩,
  ⟨"CLU_SAVE_BASE_LO", 0x1000008, 0x100000, 16, 0x0, 1, 0x0, 0x0, 0xFFE00000, 0x0, 0x0, 0x1000014, 0x100000, .lo, .function⟩,
  ⟨"CLU_SAVE_BASE_HI", 0x100000C, 0x100000, 16, 0x0, 1, 0x0, 0x0, 0xFFFF, 0x0, 0x0, 0x1000014, 0x100000, .hi, .function⟩,
  ⟨"CLU_PREEMPT", 0x1000010, 0x100000, 16, 0x0, 1, 0x70, 0x0, 0x71, 0x0, 0x0, 0x1000014, 0x100000, .single, .function⟩,
  ⟨"CLU_LOCK", 0x1000014, 0x100000, 16, 0x0, 1, 0x0, 0x0, 0x0, 0x0, 0x1, 0x0, 0x0, .single, .function⟩,
  ⟨"CLU_PREEMPT_COUNT", 0x1000018, 0x100000, 16, 0x0, 1, 0x0, 0x0, 0x0, 0x0, 0x0, 0x0, 0x0, .single, .function⟩,
  ⟨"CORE_STATUS", 0x1010000, 0x100000, 16, 0x10000, 4, 0xC00000, 0x0, 0x0, 0x0, 0x0, 0x0, 0x0, .single, .function⟩,
  ⟨"CORE_FREE_BMEM", 0x1010004, 0x100000, 16, 0x10000, 4, 0x200, 0x0, 0x0, 0x0, 0x0, 0x0, 0x0, .single, .function⟩,
  ⟨"CORE_ISSUED_LO", 0x1010008, 0x100000, 16, 0x10000, 4, 0x0, 0x0, 0x0, 0x0, 0x0, 0x0, 0x0, .lo, .function⟩,
  ⟨"CORE_ISSUED_HI", 0x101000C, 0x100000, 16, 0x10000, 4, 0x0, 0x0, 0x0, 0x0, 0x0, 0x0, 0x0, .hi, .function⟩,
  ⟨"CORE_IDLE_LO", 0x1010010, 0x100000, 16, 0x10000, 4, 0x0, 0x0, 0x0, 0x0, 0x0, 0x0, 0x0, .lo, .function⟩,
  ⟨"CORE_IDLE_HI", 0x1010014, 0x100000, 16, 0x10000, 4, 0x0, 0x0, 0x0, 0x0, 0x0, 0x0, 0x0, .hi, .function⟩]

/-- Registers of block 16 of R37: one cluster, repeated 16 times. -/
def regRows16b : List RegRow := [
  ⟨"CORE_PREEMPTS", 0x1010018, 0x100000, 16, 0x10000, 4, 0x0, 0x0, 0x0, 0x0, 0x0, 0x0, 0x0, .single, .function⟩,
  ⟨"CORE_HAZARDS", 0x101001C, 0x100000, 16, 0x10000, 4, 0x0, 0x0, 0x0, 0x0, 0x0, 0x0, 0x0, .single, .function⟩,
  ⟨"TA_STATUS", 0x1010100, 0x100000, 16, 0x10000, 4, 0x0, 0x0, 0x0, 0x0, 0x0, 0x0, 0x0, .single, .function⟩,
  ⟨"TA_KSTEPS_LO", 0x1010108, 0x100000, 16, 0x10000, 4, 0x0, 0x0, 0x0, 0x0, 0x0, 0x0, 0x0, .lo, .function⟩,
  ⟨"TA_KSTEPS_HI", 0x101010C, 0x100000, 16, 0x10000, 4, 0x0, 0x0, 0x0, 0x0, 0x0, 0x0, 0x0, .hi, .function⟩,
  ⟨"TA_SAT_OPS", 0x1010110, 0x100000, 16, 0x10000, 4, 0x0, 0x0, 0x0, 0x0, 0x0, 0x0, 0x0, .single, .function⟩,
  ⟨"TA_NAN_OPS", 0x1010114, 0x100000, 16, 0x10000, 4, 0x0, 0x0, 0x0, 0x0, 0x0, 0x0, 0x0, .single, .function⟩,
  ⟨"TA_UNDERFLOW_OPS", 0x1010118, 0x100000, 16, 0x10000, 4, 0x0, 0x0, 0x0, 0x0, 0x0, 0x0, 0x0, .single, .function⟩,
  ⟨"TA_CLIP_OPS", 0x101011C, 0x100000, 16, 0x10000, 4, 0x0, 0x0, 0x0, 0x0, 0x0, 0x0, 0x0, .single, .function⟩,
  ⟨"RB_STATUS", 0x1050000, 0x100000, 16, 0x0, 1, 0x0, 0x0, 0x0, 0x0, 0x0, 0x0, 0x0, .single, .function⟩,
  ⟨"RB_TILES_LO", 0x1050008, 0x100000, 16, 0x0, 1, 0x0, 0x0, 0x0, 0x0, 0x0, 0x0, 0x0, .lo, .function⟩,
  ⟨"RB_TILES_HI", 0x105000C, 0x100000, 16, 0x0, 1, 0x0, 0x0, 0x0, 0x0, 0x0, 0x0, 0x0, .hi, .function⟩,
  ⟨"RB_SAMPLES_PASSED_LO", 0x1050010, 0x100000, 16, 0x0, 1, 0x0, 0x0, 0x0, 0x0, 0x0, 0x0, 0x0, .lo, .function⟩,
  ⟨"RB_SAMPLES_PASSED_HI", 0x1050014, 0x100000, 16, 0x0, 1, 0x0, 0x0, 0x0, 0x0, 0x0, 0x0, 0x0, .hi, .function⟩,
  ⟨"RB_QUADS_LAUNCHED", 0x1050018, 0x100000, 16, 0x0, 1, 0x0, 0x0, 0x0, 0x0, 0x0, 0x0, 0x0, .single, .function⟩,
  ⟨"RB_HELPER_LANES", 0x105001C, 0x100000, 16, 0x0, 1, 0x0, 0x0, 0x0, 0x0, 0x0, 0x0, 0x0, .single, .function⟩,
  ⟨"CLH_STATE", 0x1080000, 0x100000, 16, 0x0, 1, 0x0, 0x0, 0x0, 0x0, 0x0, 0x0, 0x0, .single, .function⟩,
  ⟨"CLH_TEMP", 0x1080004, 0x100000, 16, 0x0, 1, 0x0, 0x0, 0x0, 0x0, 0x0, 0x0, 0x0, .single, .function⟩,
  ⟨"CLH_AGING", 0x1080008, 0x100000, 16, 0x0, 1, 0x0, 0x0, 0x0, 0x0, 0x0, 0x0, 0x0, .single, .function⟩,
  ⟨"CLH_TERMS_LO", 0x1080010, 0x100000, 16, 0x0, 1, 0x0, 0x0, 0x0, 0x0, 0x0, 0x0, 0x0, .lo, .function⟩,
  ⟨"CLH_TERMS_HI", 0x1080014, 0x100000, 16, 0x0, 1, 0x0, 0x0, 0x0, 0x0, 0x0, 0x0, 0x0, .hi, .function⟩]

/-- Registers of block 16 of R37: one cluster, repeated 16 times. -/
def regRows16 : List RegRow := regRows16a ++ regRows16b

/-- The rows of the 1 MiB block b of R37; the sixteen cluster ranges share theirs. -/
def regBlock (b : Nat) : List RegRow :=
  match b with
  | 0 => regRows0
  | 1 => regRows1
  | 2 => regRows2
  | 3 => regRows3
  | 4 => regRows4
  | 5 => regRows5
  | 6 => regRows6
  | 7 => regRows7
  | 8 => regRows8
  | 9 => regRows9
  | 11 => regRows11
  | 12 => regRows12
  | 13 => regRows13
  | 14 => regRows14
  | 15 => regRows15
  | _ => if 16 ≤ b ∧ b < 32 then regRows16 else []

/-- Every register of BAR0, cluster ranges included. -/
def regTable : List RegRow :=
  regRows0 ++ regRows1 ++ regRows2 ++ regRows3 ++ regRows4 ++ regRows5 ++ regRows6 ++ regRows7 ++ regRows8 ++ regRows9 ++ regRows11 ++ regRows12 ++ regRows13 ++ regRows14 ++ regRows15 ++ regRows16

end Sys2Proof.Machine
end

