-- ==== Sys2Proof/Machine/Store.lean ====
section
/-!
DEFINITION. Sparse stores: the one representation of memories, register files and lane registers.
A store lists (key, value) pairs with keys strictly rising and no pair equal to what an unlisted key reads as,
so that equal contents are equal data.
-/

namespace Sys2Proof.Machine

/-- A sparse store from Nat keys to values. -/
abbrev Store (α : Type) := List (Nat × α)

/-- What key k reads as; d says what an unlisted key reads as. -/
def storeGet {α : Type} (d : Nat → α) : Store α → Nat → α
  | [], k => d k
  | (k', v) :: m, k => if k' = k then v else storeGet d m k

/-- The store with key k unlisted. -/
def storeErase {α : Type} (m : Store α) (k : Nat) : Store α := m.filter fun e => decide (e.1 ≠ k)

/-- The store with (k, v) before the first larger key. -/
def storeInsert {α : Type} : Store α → Nat → α → Store α
  | [], k, v => [(k, v)]
  | (k', w) :: m, k, v => if k < k' then (k, v) :: (k', w) :: m else (k', w) :: storeInsert m k v

/-- The store with key k holding v, in canonical form. -/
def storePut {α : Type} [DecidableEq α] (d : Nat → α) (m : Store α) (k : Nat) (v : α) : Store α :=
  if v = d k then storeErase m k else storeInsert (storeErase m k) k v

/-- Whether a key lies above a bound; none is no bound. -/
def aboveBound (b : Option Nat) (k : Nat) : Bool :=
  match b with
  | none => true
  | some b => decide (b < k)

/-- Every listed key is above b, keys rise strictly, and no listed value is the unlisted reading. -/
def storeWfFrom {α : Type} [DecidableEq α] (d : Nat → α) : Option Nat → Store α → Bool
  | _, [] => true
  | b, (k, v) :: m =>
    aboveBound b k && decide (v ≠ d k) && storeWfFrom d (some k) m

/-- The canonical form of a store. -/
def storeWf {α : Type} [DecidableEq α] (d : Nat → α) (m : Store α) : Bool := storeWfFrom d none m

/-- A byte-addressed memory: (address, byte) pairs in canonical form. -/
abbrev Mem := List Host.Cell

/-- What a byte of memory that nothing has written reads as: 0.
DESIGN CHOICE, unsafe (log entry 2): the spec gives no contents of DRAM or host memory after power-on. -/
def memDefault (_ : Nat) : Byte := 0

/-- The canonical form of a memory. -/
def memWf (m : Mem) : Bool := storeWf memDefault m

/-- The byte at address a. -/
def memByte (m : Mem) (a : Nat) : Byte := storeGet memDefault m a

/-- The memory with byte b at address a. -/
def memPutByte (m : Mem) (a : Nat) (b : Byte) : Mem := storePut memDefault m a b

/-- The n bytes from address a, lowest first. -/
def memRead (m : Mem) (a : Nat) : Nat → List Byte
  | 0 => []
  | n + 1 => memByte m a :: memRead m (a + 1) n

/-- The memory with the bytes bs stored from address a. -/
def memWrite (m : Mem) (a : Nat) : List Byte → Mem
  | [] => m
  | b :: bs => memWrite (memPutByte m a b) (a + 1) bs

/-- The little-endian value of a list of bytes (R12). -/
def leValue : List Byte → Nat
  | [] => 0
  | b :: bs => b.toNat + 256 * leValue bs

/-- The n little-endian bytes of a value (R12). -/
def leBytes (v : Nat) : Nat → List Byte
  | 0 => []
  | n + 1 => BitVec.ofNat 8 v :: leBytes (v / 256) n

/-- The little-endian value of n bytes at address a. -/
def memReadLE (m : Mem) (a n : Nat) : Nat := leValue (memRead m a n)

/-- The memory with the n-byte little-endian value v stored at address a. -/
def memWriteLE (m : Mem) (a n v : Nat) : Mem := memWrite m a (leBytes v n)

end Sys2Proof.Machine
end

