-- ==== Sys2Proof/Machine/TypesAon.lean ====
section
/-!
DEFINITION. The always-on domain, the fuses, the groomer, the power manager and the pins
(spec/23_lifetime_and_groomer.md to spec/25_pins.md). Registers stand in the register store.
-/

namespace Sys2Proof.Machine

/-- The always-on domain (R612 to R618). -/
structure Aon where
  /-- The calendar and the alarm (R615); an alarm with VALID 0 is none. -/
  cal : DWord := 0
  alarm : DWord := 0
  /-- The value that SET_CALENDAR loads at the next tick (R616). -/
  calNext : Option DWord := none
  lost : Bool := true
  /-- 0 none, 1 alarm, 2 WAKE_IN. -/
  wakeCause : Nat := 0
  wakeOut : Bool := false
  /-- The 1,088 wear counters that are not 0, by index (R618). -/
  counters : Store Word := []
deriving DecidableEq, Repr

/-- What is fused into the part. -/
structure Fuses where
  /-- HIU_ID as the grade and stepping of the part give it (R6). -/
  id : Word := 0x01641101
  /-- VDD_CORE set points of the DVFS points, in mV (R647). -/
  points : List Nat := [650, 680, 700, 720, 750, 770, 800, 820]
  /-- The least security version that runs (R624). -/
  minSvn : Nat := 0
  /-- The part's unique identifier (R86). -/
  serial : DWord := 0
deriving DecidableEq, Repr

/-- A wear record that is formed and not yet committed (R625, R629). -/
structure WearRec where
  kind : Nat
  stamp : DWord
  payload : List DWord
  seq : Nat
deriving DecidableEq, Repr

/-- The response of a mailbox request (R627, R628). -/
structure GrmRsp where
  result : Nat := 0
  value : Nat := 0
  payload : List DWord := []
deriving DecidableEq, Repr

/-- The groomer, and the board flash that it reads and writes. -/
structure Grm where
  /-- The board SPI NOR flash by byte; an unlisted byte is erased (R622). -/
  flash : Mem := []
  jedec : Nat := 0
  /-- The board record, once it has been read and found good (R623). -/
  board : Option (List DWord) := none
  /-- The slot of the image chosen at the last start, and which slots hold an image whose signature verifies (R624). -/
  slot : Nat := 0
  sig : List Bool := [false, false]
  /-- SEQ of the next wear record, records not yet committed, oldest first, and the place of the next one in the wear
  area (R629 to R631). -/
  seq : Nat := 0
  recs : List WearRec := []
  blk : Nat := 0
  off : Nat := 0
  /-- The response that is ready, for the request in GRM_REQ (R632). -/
  rsp : Option GrmRsp := none
  /-- A request waits for known-answer tests (R632). -/
  katWait : Bool := false
  /-- DRAIN_CAUSE of the drain that set the replacement flag (R626). -/
  flagCause : Nat := 0
deriving DecidableEq, Repr

/-- The power manager (R638, R648 to R656). -/
structure Pmu where
  /-- SYS_RST_N is high, and the main rails are present. -/
  sysRstN : Bool := false
  rails : Bool := true
  /-- Commanded VDD_CORE and VDD_SRAM in 0.1 mV; 0 before the groomer first commands them (R638). -/
  vCore : Nat := 0
  vSram : Nat := 0
  /-- The point that a change under way moves to (R649). -/
  change : Option Nat := none
  /-- Power samples of the last WINDOW milliseconds, newest first, one entry a millisecond and none where the regulator
  did not answer; the milliseconds of the present window, and PMU_PLIMIT in effect (R650, R659). -/
  samples : List (Option Rat) := []
  windowMs : Nat := 0
  plimit : Word := 0
  /-- Milliseconds that T has been at or above THROTTLE_T since the ceiling last fell, and below THROTTLE_T - HYST
  since it last rose (R651). -/
  hotMs : Nat := 0
  coolMs : Nat := 0
  /-- Consecutive regulator commands without an answer (R638). -/
  silent : Nat := 0
  /-- THERMTRIP_N is asserted (R652). -/
  tripped : Bool := false
  /-- The accepted power state while PSTATE_BUSY is 1 (R654). -/
  target : Nat := 0
  /-- The stage of start-up under way (R641, R644); none once it is over, or before SYS_RST_N rises. -/
  stage : Option Nat := none
  /-- A FUNCTION reset has begun and not ended; the start-up under way began at stage 0 (R639, R641). -/
  inReset : Bool := false
  cold : Bool := false
  /-- The cause of the drain that begins at READY, 0 for none (R598). -/
  startDrain : Nat := 0
deriving DecidableEq, Repr

/-- The pins and the JTAG port. -/
structure Pins where
  /-- What the board drives on the net of each pin; none when it drives nothing. -/
  ext : List (Option Bool) := List.replicate 64 none
  /-- The level of each pin after the synchroniser, and PIN_IN as shown after debouncing (R669). -/
  level : BitVec 64 := 0
  shown : BitVec 64 := 0
  /-- Pins take their sleep states, or hold the state of the trip (R672, R673), with what each one drove and its pull
  in the last cycle before. -/
  asleep : Bool := false
  frozen : Bool := false
  held : List (Option Bool × Nat) := []
  /-- Slots that are inert, two bits per pin, as last evaluated (R665), and the conflicts (R667). -/
  inert : BitVec 128 := 0
  conflict : BitVec 12 := 0
  /-- The transfer of each I2C controller that is under way (R676). -/
  i2c : List (Option Word) := [none, none]
  /-- JTAG: the instruction register, the boundary register's update latch, and what the last scan shifted out. -/
  ir : BitVec 4 := 2
  boundary : BitVec 198 := 0
  tdo : BitVec 198 := 0
  /-- What the last frame of the SPI target sent, byte 0 first. -/
  spit : List Byte := []
deriving DecidableEq, Repr

end Sys2Proof.Machine
end

