-- ==== Sys2Proof/Machine/TypesCfe.lean ====
section
/-!
DEFINITION. The command front end's and the context block's state (spec/04_uhlulo_protocol.md,
spec/05_contexts_and_objects.md): descriptors in flight, chains, doorbell records, context slots and the
CONTEXT_CTRL engine. Ring counts, events and captures stand in the register store.
-/

namespace Sys2Proof.Machine

/-- Where a fetched descriptor stands (R128 to R132): in hold, handed over to its unit, or with its status decided. -/
inductive Stage where
  | held
  | dispatched
  | decided
deriving DecidableEq, Repr

/-- Why a descriptor was ordered to stop: the loss of its context (R165) or a drain (R607). -/
inductive Cancel where
  | contextLost
  | draining
deriving DecidableEq, Repr

/-- A status code with its DETAIL word (R125). -/
structure Result where
  status : Nat
  detail : Nat := 0
deriving DecidableEq, Repr

/-- A fetched, unretired descriptor. -/
structure Desc where
  id : DescId
  /-- The context slot that owned the ring when it was fetched (R113); none on an unowned ring (R149). -/
  ctx : Option Nat
  /-- W0 to W7 (R118). -/
  words : List DWord
  /-- The address it was read from, for DETAIL of R125. -/
  addr : Nat := 0
  chained : Bool := false
  /-- The resolved gate G of R63, as a 64-bit LT value. -/
  gate : Nat := 0
  stage : Stage := .held
  /-- A WAIT has been evaluated for the first time (R157). -/
  evaluated : Bool := false
  /-- A WAIT holds a pending-wait entry (R158). -/
  waitEntry : Bool := false
  /-- A WAIT was found satisfied, at this counter value (R157). -/
  satisfied : Option Nat := none
  /-- A satisfied WAIT has been presented for dispatch (R157). -/
  presented : Bool := false
  /-- Lines of LT since dispatch (R153). -/
  lines : Nat := 0
  /-- The number of its dispatch, counted over all descriptors (the order of R204, R221). -/
  dispatchNo : Nat := 0
  cancel : Option Cancel := none
  /-- The unit has taken the descriptor up, and its action is under way or has taken effect (R714). -/
  started : Bool := false
  /-- The first status condition of the best rank noted so far (R127). -/
  noted : Option Result := none
  /-- DETAIL that OK or LATE carries (R126). -/
  okDetail : Nat := 0
  /-- The completion stamp, once the unit has reported it (R65). -/
  stamp : Nat := 0
  /-- Urgency last computed for a gated descriptor (R69). -/
  urgency : Nat := 0
  /-- It runs again in the repeat of its segment (R547). -/
  rep : Bool := false
  /-- Cores that ran its heats (R193). -/
  cores : List Nat := []
  /-- Null returns of ALLOC, and the smallest size class refused (R222). -/
  nulls : Nat := 0
  minClass : Nat := 15
deriving DecidableEq, Repr

/-- An active chain (R135). -/
structure Chain where
  /-- VA of the next chained descriptor. -/
  next : Nat
  remaining : Nat
  seq : Nat
  fref : Nat
deriving DecidableEq, Repr

/-- What one ring pair holds beside its registers. -/
structure RingState where
  chain : Option Chain := none
  /-- Accepted doorbells whose entries are not all fetched: SQ_TAIL after each, and the frame of R63. -/
  bells : List (Nat × Nat) := []
  /-- Enables of the ring so far: each begins a stream of its own (R112). -/
  stream : Nat := 0
deriving DecidableEq, Repr

/-- The command front end. -/
structure Cfe where
  rings : List RingState := List.replicate 64 {}
  /-- Fetched, unretired descriptors in fetch order. -/
  descs : List Desc := []
  /-- Descriptors dispatched so far. -/
  dispatchCtr : Nat := 0
deriving DecidableEq, Repr

/-- The slot states of R143. -/
inductive SlotState where
  | free
  | loaded
  | lost
  | tearingDown
deriving DecidableEq, Repr

/-- The fields of a context image (R170). -/
structure CtxImage where
  cls : Nat := 0
  safety : Bool := false
  ptRoot : Nat := 0
  rings : DWord := 0
  outputs : BitVec 4 := 0
  cameras : BitVec 4 := 0
  stripRings : BitVec 16 := 0
  sigFirst : Nat := 0
  sigLast : Nat := 0
  waitFirst : Nat := 0
  waitLast : Nat := 0
  heapLimit : Nat := 0
  budget : Nat := 0
  watchdog : Nat := 0
deriving DecidableEq, Repr

/-- One context slot (R143, R144). -/
structure Slot where
  state : SlotState := .free
  image : CtxImage := {}
  lostStatus : Nat := 0
  lostRing : Nat := 0
  lostSeq : Nat := 0
  /-- The next object of the poison walk of R159, while it runs. -/
  walk : Option Nat := none
deriving DecidableEq, Repr

/-- Who asked for a context operation: a CONTEXT_CTRL descriptor or a write of CTX0_CTRL.LOAD. -/
inductive CtxSource where
  | desc (d : DescId)
  | ctx0
deriving DecidableEq, Repr

/-- A context operation in progress: an update waiting for its rings (R163) or a release waiting for its slot (R166, R168). -/
inductive CtxJob where
  | update (target : Nat) (image : CtxImage) (src : CtxSource)
  | release (target : Nat) (src : CtxSource)
deriving DecidableEq, Repr

/-- A change of a sync entry that waits for room in the mirror queue (R540). -/
inductive SyncOp where
  | signal (obj v ctx : Nat)
  | poison (obj ctx : Nat)
  | init (obj v : Nat)
deriving DecidableEq, Repr

/-- The context and sync block. -/
structure Ctx where
  /-- Sync changes that wait for their SYNC record to fit, oldest first (R540). -/
  syncQ : List SyncOp := []
  slots : List Slot := List.replicate 128 {}
  /-- The operation of the CONTEXT_CTRL that executes, and that of a CTX0 load (R163, R166, R168). -/
  job : Option CtxJob := none
  job0 : Option CtxJob := none
  /-- CONTEXT_CTRL descriptors dispatched and waiting for the CTX, in order of dispatch. -/
  queue : List DescId := []
  /-- A CTX0 load waits for the CONTEXT_CTRL that executes (R168). -/
  ctx0Waiting : Option DescId := none
deriving DecidableEq, Repr

end Sys2Proof.Machine
end

