-- ==== Sys2Proof/Machine/TypesCon.lean ====
section
/-!
DEFINITION. The schedulers' state (spec/19_contention.md): rank data, and per scheduler the pass of each pool
under the weighted share of R518, and the CON settings in effect (R529).
-/

namespace Sys2Proof.Machine

/-- Rank data of R514, with the orders of R516. -/
structure Rank where
  /-- Service class 0 to 3 (R513). -/
  cls : Nat := 3
  gated : Bool := false
  /-- Rank deadline of a gated item, in LT format. -/
  rd : Nat := 0
  /-- Urgency of a gated item. -/
  u : Nat := 0
  /-- The cycle in which it became a candidate at this scheduler. -/
  since : Nat := 0
  ring : Nat := 0
  seq : Nat := 0
  step : Nat := 0
  /-- Which item of the descriptor's or step's work it is: by this a scheduler knows it again. -/
  stream : Nat := 0
  item : List Nat := []
deriving DecidableEq, Repr

/-- One scheduler's pass values for the pools GP, C0, C1, C2, C3 (R518), and what it has seen of its candidates. -/
structure Share where
  passes : List Nat := [0, 0, 0, 0, 0]
  /-- The pools that held candidates at the start of the cycle, and those whose arrival has been counted. -/
  had : List Bool := [false, false, false, false, false]
  seen : List Bool := [false, false, false, false, false]
  /-- The candidates at the start of the cycle, each with the cycle in which it became one (R516). -/
  cands : List (List Nat × Nat) := []
  /-- A tier-0 item was among them. -/
  tier0 : Bool := false
deriving DecidableEq, Repr

/-- Rank data of a gated layer step that has become a candidate: RD as it was fixed then, and U as it was last
recomputed (R374, R514). -/
structure StepRank where
  id : DescId
  step : Nat
  rd : Nat
  u : Nat
deriving DecidableEq, Repr

/-- The CON settings in effect (R529) and the shares of the schedulers that serve the whole device. -/
structure Con where
  ctrl : Word := 4
  weight0 : Word := 0x20408080
  weight1 : Word := 0x10
  /-- Fetch: the weighted share over C0 to C3, and per pool the ring pair last served (R520). -/
  fetch : Share := {}
  fetchLast : List Nat := [63, 63, 63, 63, 63]
  dispatch : Share := {}
  geo : Share := {}
  /-- Window allocators and lift engines, one per cluster. -/
  window : List Share := List.replicate 16 {}
  lift : List Share := List.replicate 16 {}
  /-- Placement engines and TNS units, one per core. -/
  place : List Share := List.replicate 64 {}
  tns : List Share := List.replicate 64 {}
  /-- CMP instances. -/
  cmp : List Share := List.replicate 2 {}
  /-- Cycles in which the schedulers had something to look at: the dates of R516. -/
  cycle : Nat := 0
  /-- Line events of LT up to the last recomputation of the steps' urgency, and the rank data of the gated steps. -/
  lineSeen : Nat := 0
  steps : List StepRank := []
deriving DecidableEq, Repr

end Sys2Proof.Machine
end

