-- ==== Sys2Proof/Machine/TypesDsp.lean ====
section
/-!
DEFINITION. The display block's and the camera ports' state (spec/15_race_rendering.md to
spec/17_display_and_camera_ports.md): shadow registers, coefficient banks, COMMITs and loads in their queues, the
lines being fetched and sent by each output, and the capture side of each camera port. The active copies of the
shadowed registers stand in the register store.
-/

namespace Sys2Proof.Machine

/-- The active registers of a plane that the composition of one line uses (R476). -/
structure PlaneCfg where
  p : Nat
  cfg : Word
  addr0 : Nat
  addr1 : Nat
  pitch : Word
  srcPos : Word
  srcSize : Word
  dstPos : Word
  dstSize : Word
  alpha : Word
  constRg : Word
  constB : Word
deriving DecidableEq, Repr

/-- The state that governs one line of an output (R473): its registers, and the planes that are composed, in
composition order. -/
structure OutCfg where
  bgRg : Word := 0
  bgB : Word := 0
  color : Word := 0
  ctm : List Word := []
  planes : List PlaneCfg := []
deriving DecidableEq, Repr

/-- The fetched data of a plane for one output line: linear R, G, B and alpha for each destination column. -/
structure PlaneLine where
  p : Nat
  line : Nat
  px : List (Nat × Nat × Nat × Nat)
deriving DecidableEq, Repr

/-- The header of a DSI-2 packet (R481): virtual channel, data type, the word count or the two data bytes, and the ECC. -/
structure DsiHdr where
  vc : Nat
  dt : Nat
  wc : Nat
  ecc : Nat
deriving DecidableEq, Repr

/-- What a DSI port sends (R481, R482, R484): a short packet, a long packet with its payload and CRC-16, a stay of the
data lanes in LP-11 with whether the clock lane keeps its HS clock, or the deskew calibration sequence. -/
inductive DsiPkt where
  | short (h : DsiHdr)
  | long (h : DsiHdr) (payload : List Byte) (crc : Nat)
  | lp11 (clock : Bool)
  | deskew
deriving DecidableEq, Repr

/-- An output: its timing generator, its COMMIT and SCALER_LOAD descriptors and the lines under way. -/
structure OutState where
  /-- The pixel PLL has locked and the timing generator runs; the line it is in. -/
  running : Bool := false
  line : Nat := 0
  /-- FRAME of LT at the frame events of the present and of the previous frame (R440). -/
  tag : Option Nat := none
  prevTag : Option Nat := none
  /-- COMMITs and SCALER_LOADs held, in hand-over order, and the one that is armed (R471). -/
  queue : List DescId := []
  armed : Option DescId := none
  /-- The commit line has begun with a COMMIT armed before it (R71). -/
  due : Bool := false
  /-- The head has begun to read its list. -/
  writing : Bool := false
  /-- OUT_m_COMMIT_LINE in effect (R474). -/
  commitLine : Nat := 8191
  /-- The state of the line being sent, and of the next one. -/
  cur : OutCfg := {}
  next : OutCfg := {}
  fetched : List PlaneLine := []
  /-- Panel codes of the last active line, and what the port has sent since that line's start. -/
  codes : List (Nat × Nat × Nat) := []
  sent : List DsiPkt := []
  /-- The output drives its lanes (R556). -/
  live : Bool := true
deriving DecidableEq, Repr

/-- A scaler's coefficient banks (R475): a staged table with its SCALER_LOAD and the output it belongs to. -/
structure ScalerSt where
  staged : Option (DescId × Option Nat × List Byte) := none
  shadow : List Byte := []
  active : List Byte := []
deriving DecidableEq, Repr

/-- The DSP. -/
structure Dsp where
  /-- Shadow copies of S registers that differ from their reset values, by BAR0 offset (R453). -/
  shadow : Store Word := []
  outs : List OutState := List.replicate 4 {}
  scalers : List ScalerSt := List.replicate 8 {}
  /-- SCALER_LOADs of unmapped scalers. -/
  loads : List DescId := []
deriving DecidableEq, Repr

/-- What waits behind captured bytes in a port's buffer, in order of arrival (R488, R492). -/
inductive CamItem where
  /-- Bytes for the sheet of a cluster, or for LOCAL DRAM. -/
  | sheet (c o : Nat) (bs : List Byte)
  | dram (pa : Nat) (bs : List Byte)
  /-- A Frame Start; a Line Start, with whether the source position and LT have synthesised that line before; a
  synthesised line of the source position, and one of LT that follows the port (R50, R57). -/
  | frame
  | line (late lateLt : Bool)
  | synth
  | synthLt
  /-- A Frame End's signal of an object. -/
  | signal (obj v : Nat)
deriving DecidableEq, Repr

/-- A camera port. -/
structure CamPort where
  /-- A Frame Start has arrived since the enable, and a frame is open. -/
  started : Bool := false
  isOpen : Bool := false
  /-- Frames captured since the enable, and lines signalled in the open frame. -/
  frames : Nat := 0
  lines : Nat := 0
  /-- Items not yet accepted, oldest first. -/
  queue : List CamItem := []
  /-- How long each event of the queue has been held, oldest first, in 1/256 REF cycle. -/
  holds : List Rat := []
  /-- The rest of the line being received is dropped (R493). -/
  dropping : Bool := false
  /-- Sheet capture has stopped with its cluster (R490). -/
  sheetLost : Bool := false
deriving DecidableEq, Repr

end Sys2Proof.Machine
end

