-- ==== Sys2Proof/Machine/TypesHeap.lean ====
section
/-!
DEFINITION. The allocator's state (spec/07_allocators_and_heaps.md): the units of each slot's heap reserve, the
chunks of its bin heap, and the growth request it waits on. The registers of R232 stand in the register store.
-/

namespace Sys2Proof.Machine

/-- A 64 KiB unit of a reserve (R213, R216): its PA, its class and its allocated blocks. -/
structure HeapUnit where
  pa : Nat
  cls : Option Nat := none
  /-- Indices of the allocated blocks. -/
  used : List Nat := []
deriving DecidableEq, Repr

/-- A chunk of a bin heap (R224): its PA, its units, and the payload bytes that each pass counts as used. -/
structure BinChunk where
  pa : Nat
  units : Nat
  uses : List (DescId × Nat) := []
deriving DecidableEq, Repr

/-- What the allocator holds for one slot. -/
structure SlotHeap where
  /-- Units in the order of R213. -/
  units : List HeapUnit := []
  /-- Chunks in the order of their grants. -/
  chunks : List BinChunk := []
  /-- KIND 0 grants since LOAD (R231). -/
  grants : Nat := 0
  /-- The pass of the pending growth request, and the bytes of the item that did not fit (R227). -/
  want : Option (DescId × Nat) := none
  /-- Passes that wait for bin heap space. -/
  waiting : List DescId := []
deriving DecidableEq, Repr

end Sys2Proof.Machine
end

