-- ==== Sys2Proof/Machine/TypesMem.lean ====
section
/-!
DEFINITION. The memory hierarchy's state (spec/06_memory_hierarchy.md): cache lines and sets, cached translations,
ECC marks, sheet windows, lift moves and the maintenance engines. DRAM and sheet contents are Mem values.
-/

namespace Sys2Proof.Machine

/-- A 128-byte cache line with a dirty bit per byte (R183, R184). -/
structure Line where
  /-- The line's address: PA / 128. -/
  tag : Nat
  data : List Byte
  dirty : List Bool
  /-- 64-bit words of an L2 line that hold a correctable, or an uncorrectable error, one bit each. -/
  corr : Nat := 0
  uncorr : Nat := 0
deriving DecidableEq, Repr

/-- One cache set: its ways and the bits of the pseudo-LRU tree, bit n for node n, the root being node 1. -/
structure CacheSet where
  ways : List (Option Line)
  plru : Nat := 0
deriving DecidableEq, Repr

/-- An empty set of n ways. -/
def emptySet (n : Nat) : CacheSet := { ways := List.replicate n none }

/-- What a cached translation is: a pointer to a table of a level, or a leaf of a page size (R179, R182). -/
inductive TlbKind where
  | table (level : Nat)
  | leaf (bits : Nat)
deriving DecidableEq, Repr

/-- One cached valid entry: its slot, kind, the VA bits it covers and the entry itself (R182). -/
structure TlbEntry where
  slot : Nat
  kind : TlbKind
  /-- VA divided by the size that the entry covers. -/
  vpn : Nat
  pte : Nat
deriving DecidableEq, Repr

/-- A failed access (R208): what MMU_FAULT_INFO and DETAIL show. -/
structure MFault where
  reason : Nat
  level : Nat := 0
  /-- 0 read, 1 write, 2 fetch, 3 atomic (DETAIL[49:48] of R125). -/
  access : Nat := 0
  /-- What MMU_FAULT_ADDR holds (R209). -/
  addr : Nat := 0
  /-- What DETAIL[47:0] holds (R125): the VA, or the SHEET-space address. -/
  detail : Nat := 0
deriving DecidableEq, Repr

/-- A sheet window on one cluster (R196): the descriptor that holds it, the tile job or virtual cluster it is for,
and its granules in ascending order. -/
structure Window where
  owner : DescId
  part : Nat
  cluster : Nat
  /-- Work-area granules by absolute granule number of the sheet. -/
  granules : List Nat
deriving DecidableEq, Repr

/-- One LP5 channel's window of 256 bursts (R525): bursts granted in all, to scanout and to capture, the
MEM_RESERVE in effect, and what the channel has done since reset. -/
structure LpChan where
  total : Nat := 0
  scan : Nat := 0
  cap : Nat := 0
  reserve : Nat := 0
  refreshes : Nat := 0
deriving DecidableEq, Repr

/-- The units outside the caches: translation, maintenance engines, windows and the LP5 controller. -/
structure MemSys where
  tlb : List TlbEntry := []
  /-- Sets of the L2, keyed by bank * 256 + set, and of the 64 L1s, keyed by core * 128 + set. -/
  l2 : Store CacheSet := []
  l1 : Store CacheSet := []
  /-- ECC marks of DRAM words and of sheet words: 1 correctable, 2 uncorrectable. -/
  dramErr : Store Nat := []
  sheetErr : Store Nat := []
  /-- Sheet contents, byte o of CLUSTER_c at c * 2^22 + o. -/
  sheet : Mem := []
  /-- STREAM in effect, per cluster, in granules (R212). -/
  stream : List Nat := List.replicate 16 0
  windows : List Window := []
  /-- The operation that L2C_SETWAY started, until it completes (R205). -/
  setway : Option Word := none
  /-- Writes from the L1s that wait in the write queue of each L2 bank, 64 at most (R186). -/
  bankQ : List Nat := List.replicate 16 0
  /-- The side of the item whose accesses are being made, and the requests that LP5 channels hold, oldest first (R524). -/
  side : BurstSide := .shared false
  reqs : List BurstReq := []
  /-- The 16 LP5 channels. -/
  chans : List LpChan := List.replicate 16 {}
deriving DecidableEq, Repr

end Sys2Proof.Machine
end

