-- ==== Sys2Proof/Machine/TypesHeat.lean ====
section
/-!
DEFINITION. The cores' state (spec/08_heats_and_blocks.md to spec/11_tensor_arithmetic.md): heats with their register
files, pending writes and outstanding operations, blocks, the TNS queue, the instruction cache and the saved blocks;
and the lift engines' requests.
-/

namespace Sys2Proof.Machine

/-- A register of a heat: vector, scalar or predicate (R263). -/
inductive RegId where
  | v (n : Nat)
  | s (n : Nat)
  | p (n : Nat)
deriving DecidableEq, Repr

/-- A write of a register: the lanes written, and a value per lane, or one value for a scalar or predicate. -/
structure RegWrite where
  reg : RegId
  mask : Nat := 0xFFFFFFFF
  vals : List Word
deriving DecidableEq, Repr

/-- A fixed-latency write that has not taken effect, with the distance at which it does (R275). -/
structure PendWrite where
  due : Nat
  w : RegWrite
deriving DecidableEq, Repr

/-- One access of a lane: its place in the lane's value, its bytes, address, operand and compare value. -/
structure LaneAcc where
  lane : Nat
  pos : Nat
  n : Nat
  addr : Nat
  data : Nat := 0
  cmp : Nat := 0
deriving DecidableEq, Repr

/-- What an outstanding variable-latency operation still has to do. -/
inductive VarWork where
  /-- Its result is known. -/
  | ready
  /-- Accesses that wait for other devices (R580): opcode, width, space, those left, values got by lane and place. -/
  | mem (opc width space : Nat) (left : List LaneAcc) (got : List (Nat × Nat × Nat))
  /-- A texture operation whose texels wait for other devices: TLD, SUBOP, IMM8, descriptor VA, sources. -/
  | tex (tld : Bool) (subop imm desc : Nat) (src : List (List Word)) (em : Nat)
  /-- A SWAIT on an object for a value (R307). -/
  | swait (obj value : Nat)
  /-- A local SIG whose change waits for room in the mirror queue: object and value (R306, R540). -/
  | sig (obj value : Nat)
  /-- A remote SIG waits for its response (R306). -/
  | reply (tag : Nat)
  /-- A long instruction, TMMA or LIFT, that the TNS unit or the lift engine performs (R324). -/
  | engine
  /-- A TOUT or TCLR in the TNS unit. -/
  | tns
deriving DecidableEq, Repr

/-- An outstanding variable-latency operation. -/
structure VarOp where
  num : Nat
  tok : Option Nat := none
  dests : List RegId := []
  writes : List RegWrite := []
  work : VarWork := .ready
  /-- The scope of the acquire after its access (R304). -/
  acquire : Option Nat := none
  /-- First destination vector register, or scalar when sdest is set. -/
  vd : Nat := 0
  sdest : Bool := false
deriving DecidableEq, Repr

/-- A heat (R241, R250, R263). -/
structure Heat where
  idx : Nat
  age : Nat
  lm : Nat
  am : Nat
  pc : Nat := 0
  /-- The divergence stack, top first: (MASK, ADDR). -/
  stack : List (Nat × Nat) := []
  spilled : Nat := 0
  /-- It has arrived at the block barrier and waits (R253). -/
  waiting : Bool := false
  ended : Bool := false
  /-- An instruction of it has faulted: it issues nothing more (R334). -/
  faulted : Bool := false
  /-- Vector registers by register * 32 + lane, scalars and predicates by index. -/
  vregs : Store Word := []
  sregs : Store Word := []
  preds : Store Word := []
  toks : List Nat := List.replicate 8 0
  /-- The cycle of its core after the one in which each token's count last reached 0 (R279). -/
  tokAt : List Nat := List.replicate 8 0
  /-- The first cycle of its core in which its next instruction may issue by STALL, its barrier and the zeroing of its
  block (R241, R253, R274). -/
  readyAt : Nat := 0
  progress : Nat := 0
  /-- The sum of the STALL fields of the instructions issued (R274). -/
  dist : Nat := 0
  pend : List PendWrite := []
  ops : List VarOp := []
  opNum : Nat := 0
  /-- Tokens with destination registers that no later WAIT has named (R279). -/
  unnamed : List (Nat × RegId) := []
  /-- Consecutive instructions not preceded by a quiet point (R282). -/
  nonQuiet : Nat := 0
  /-- LT [63:32] of the last LT_LO read (R270). -/
  ltHi : Nat := 0
  /-- Helper lanes of a fragment heat (R422). -/
  helper : Nat := 0
deriving DecidableEq, Repr

/-- What a block is (R238). -/
inductive BlkKind where
  /-- A block of a DISPATCH. -/
  | grid
  /-- A block of a BLOCK step of a LAYER. -/
  | step
  /-- A heat of vertices. -/
  | vertex
  /-- A tile job. -/
  | tile
deriving DecidableEq, Repr

/-- A resident or saved block. -/
structure Blk where
  id : DescId
  kind : BlkKind
  /-- Block index, step index, batch number or tile index. -/
  idx : Nat
  core : Nat
  slot : Nat
  cls : Nat
  code : Nat
  vregs : Nat
  /-- Heat slots and block memory units held. -/
  slots : Nat
  bmemUnits : Nat := 0
  bmem : Mem := []
  barGen : Nat := 0
  window : Option Window := none
  /-- The layer and virtual cluster of a BLOCK step, and its layer's map-sensitivity. -/
  layer : Nat := 0
  vcl : Nat := 0
  mapSens : Bool := false
  /-- The number of its placement on the core. -/
  placed : Nat := 0
  /-- It was told to stop for preemption (R257). -/
  stopping : Bool := false
  heats : List Heat := []
deriving DecidableEq, Repr

/-- Who issued a TNS instruction or a lift: a heat's operation, a layer step, or a LIFT descriptor. -/
inductive UnitOwner where
  | heat (core age num : Nat)
  | step (id : DescId) (step : Nat)
  | desc
deriving DecidableEq, Repr

/-- The kinds of TNS instruction (R319). -/
inductive TnsKind where
  | tmma
  | tout
  | tclr
deriving DecidableEq, Repr

/-- An instruction of a TNS unit: its parameters as read at issue, and its progress in K-steps. -/
structure TnsOp where
  owner : UnitOwner
  id : DescId
  kind : TnsKind
  window : Window
  params : List Nat
  layer : Nat := 0
  vcl : Nat := 0
  mapSens : Bool := false
  progress : Nat := 0
  begun : Bool := false
  /-- What its K-steps before a stop have brought about: SAT_COUNT rose, an element became NaN, UNDERFLOW rose (R356). -/
  satRose : Bool := false
  nanRose : Bool := false
  underRose : Bool := false
deriving DecidableEq, Repr

/-- A core. -/
structure CoreSt where
  blocks : List Blk := []
  saved : List Blk := []
  ageCtr : Nat := 0
  /-- The cluster cycle it has reached, the instructions issued in it, and the cycle from which each busy unit accepts
  again (R248, R273). -/
  cycle : Nat := 0
  issues : Nat := 0
  units : List (Nat × Nat) := []
  placeCtr : Nat := 0
  /-- Sets of the instruction cache (R328). -/
  icache : Store CacheSet := []
  /-- Descriptors whose first block has made its device acquire (R245). -/
  acquired : List DescId := []
  tns : List TnsOp := []
  parked : List TnsOp := []
deriving DecidableEq, Repr

/-- One side of a lift: a VA, an absolute sheet offset, or an offset in a window. -/
inductive LiftSide where
  | va (a : Nat)
  | sheet (o : Nat)
  | win (w : Window) (o : Nat)
  /-- Lines of a camera port from a first one on, in its line window (R362). -/
  | cam (csi l0 : Nat)
deriving DecidableEq, Repr

/-- A request of a lift engine (R199 to R202). -/
structure LiftReq where
  owner : UnitOwner
  id : DescId
  slot : Nat
  src : LiftSide
  dst : LiftSide
  rowBytes : Nat
  rows : Nat
  srcStride : Nat
  dstStride : Nat
  comp : Nat := 0
  layer : Option Nat := none
  vcl : Nat := 0
  mapSens : Bool := false
  /-- Units moved, or 4 KiB blocks with COMP; destination bytes written. -/
  units : Nat := 0
  bytes : Nat := 0
  fails : Nat := 0
  firstFail : Nat := 0
  parked : Bool := false
  /-- It waits for another device between two progress points. -/
  mid : Bool := false
deriving DecidableEq, Repr

/-- What a cluster holds beside its cores: the settings of R262 in effect, and the lift requests. -/
structure ClusterSt where
  /-- CORE cycles since its last cluster cycle, below its clock divider (R603). -/
  phase : Nat := 0
  saveBase : Nat := 0
  preempt : Word := 0x70
  lifts : List LiftReq := []
deriving DecidableEq, Repr

/-- The cores and clusters. -/
structure Clu where
  cores : List CoreSt := List.replicate 64 {}
  clusters : List ClusterSt := List.replicate 16 {}
deriving DecidableEq, Repr

end Sys2Proof.Machine
end

