-- ==== Sys2Proof/Machine/TypesHiu.lean ====
section
/-!
DEFINITION. The host interface's state (spec/03_host_link.md): configuration space, BAR4 size, MSI-X structures,
messages sent, the pair captures and staged halves of R19 and R20, and host memory.
-/

namespace Sys2Proof.Machine

/-- State of the PCI Express link (R106). -/
inductive LinkState where
  | down
  | training
  | up
deriving DecidableEq, Repr

/-- What the device last answered to a host or SPI read or a configuration request. -/
inductive HostReply where
  | data (v : Word)
  | bytes (bs : List Byte)
  | cfgRetry
  | none
deriving DecidableEq, Repr

/-- The unlisted contents of the MSI-X table by dword index: vector control has its mask bit set, the rest is 0. -/
def msixDefault (k : Nat) : Word := if k % 4 = 3 then 1 else 0

/-- The host interface unit. -/
structure Hiu where
  link : LinkState := .down
  /-- Negotiated width and rate of a link that is up, shown in HIU_STATUS (R102, R106). -/
  width : Nat := 0
  speed : Nat := 0
  perstN : Bool := false
  /-- Configuration requests complete normally (R106, R644), and an FLR is in progress (R108). -/
  cfgEnabled : Bool := false
  flr : Bool := false
  /-- Command and control bits of configuration space. -/
  memSpaceEn : Bool := false
  busMasterEn : Bool := false
  msixEn : Bool := false
  funcMask : Bool := false
  d3hot : Bool := false
  pmeEn : Bool := false
  pmeStatus : Bool := false
  /-- Codes of Max Payload Size and Max Read Request Size: 128 bytes times a power of 2 (R85). -/
  mps : Fin 3 := 0
  mrrs : Fin 6 := 2
  tag10 : Bool := false
  aspmL1 : Bool := false
  bar0 : DWord := 0
  bar2 : DWord := 0
  bar4 : DWord := 0
  /-- log2 of the BAR4 size in effect, and of the Resizable BAR control value stored (R88). -/
  bar4Log2 : Nat := 28
  rbarLog2 : Nat := 28
  subVendor : BitVec 16 := 0xE6C4
  subId : BitVec 16 := 0x0064
  serial : DWord := 0
  /-- AER (R85, R103): uncorrectable status with poisoned TLP received, completion timeout and malformed TLP; the bit of the
  first of them; the header log; the enables of ECRC generation and check. -/
  aerPoisoned : Bool := false
  aerCplTimeout : Bool := false
  aerMalformed : Bool := false
  aerFirst : BitVec 5 := 0
  aerHdr : BitVec 128 := 0
  ecrcGen : Bool := false
  ecrcCheck : Bool := false
  /-- The MSI-X table, four dwords per vector, and the PBA (R99). -/
  msix : Store Word := []
  pba : BitVec 128 := 0
  /-- Causes of the software vectors (R102). -/
  swCause : BitVec 128 := 0
  /-- Messages sent: address and data, oldest first. -/
  msgs : List (DWord × Word) := []
  /-- Pair captures and staged low halves, keyed by 2 * offset of the low half + path. -/
  captures : Store (Option Word) := []
  staged : Store (Option Word) := []
  /-- PME messages sent. -/
  pmeSent : Nat := 0
  reply : HostReply := .none
  /-- Host requests that wait in the posted buffer behind a throttled BAR4 write, oldest first (R540), each with the BAR4
  base in effect at its receipt (R90). -/
  posted : List (Instr × Nat) := []
  /-- Host requests that the host holds back for want of credits, oldest first (R94, R95). -/
  unsent : List Instr := []
  /-- Host memory as the device reads and writes it. -/
  hostMem : Mem := []
deriving DecidableEq, Repr

end Sys2Proof.Machine
end

