-- ==== Sys2Proof/Machine/TypesHlt.lean ====
section
/-!
DEFINITION. The health unit's state (spec/22_silent_errors_and_reproducibility.md): segment accumulators, layer
digests in formation, known-answer tests, the derating ladder and the drain.
-/

namespace Sys2Proof.Machine

/-- The segment accumulators of a ring (R535, R591): strict and map-sensitive, and the parts of each that
unrepeatable descriptors contributed, with the clusters that ran the segment's work. -/
structure Segment where
  strict : DWord := 0
  mapSens : DWord := 0
  strictU : DWord := 0
  mapSensU : DWord := 0
  clusters : BitVec 16 := 0
  /-- The number of the ring's next CHECKPOINT (R535). -/
  n : Nat := 0
  /-- The repeatable descriptors that the segment has dispatched (R547). -/
  descs : List Desc := []
deriving DecidableEq, Repr

/-- How far the test of a fenced cluster has come: it waits for the cluster to empty, the test runs, or a step of the
ladder settles (R600, R603). -/
inductive KatPhase where
  | fenced
  | running
  | settling
deriving DecidableEq, Repr

/-- Why clusters are tested, and so what follows when the last test has ended (R602, R632). -/
inductive KatWhy where
  | test
  | mailbox
  | periodic
  | strip
  | permanent
  /-- The known-answer tests of a verdict on a ring (R549). -/
  | verdict (ring : Nat)
deriving DecidableEq, Repr

/-- Tests asked for together: the clusters still to be tested, in ascending order, those that passed and failed, and
whether the ladder is stepped before the test (R602). -/
structure KatGroup where
  why : KatWhy
  mask : BitVec 16
  left : List Nat
  passed : List Nat := []
  failed : List Nat := []
  step : Bool := false
  /-- What a DERATE record gives as the reason of that step (R626): 1 suspects, 2 aging. -/
  reason : Nat := 0
deriving DecidableEq, Repr

/-- The health unit. Registers of R610 stand in the register store. -/
structure Hlt where
  seg : List Segment := List.replicate 64 {}
  /-- The accumulators of each ring's repeat (R547). -/
  rep : List Segment := List.replicate 64 {}
  /-- Layer digests in formation: LAYER, layer and sum (R375). -/
  layers : List (DescId × Nat × DWord) := []
  /-- LT line events counted when the drain began (R607). -/
  drainFrom : Nat := 0
  /-- The descriptors that remain have been cancelled (R607). -/
  drainCut : Bool := false
  /-- Tests asked for, the group under way first; and the fenced clusters with their phase (R601). -/
  groups : List KatGroup := []
  runs : List (Nat × KatPhase) := []
  /-- Aging steps taken per cluster (R602), and the last aging measurements of each, newest first (R619). -/
  agingSteps : List Nat := List.replicate 16 0
  aging : List (List Nat) := List.replicate 16 []
  /-- Error counts that the groomer has already seen: sheet corrected and uncorrectable per cluster, corrected sheet
  errors of the present calendar hour, L2 uncorrectable, LP5 corrected and uncorrectable, Virzel retrains, strip
  mismatches. -/
  seenCorr : List Nat := List.replicate 16 0
  seenUncorr : List Nat := List.replicate 16 0
  hourCorr : List Nat := List.replicate 16 0
  seenL2 : Nat := 0
  seenDram : Nat × Nat := (0, 0)
  seenRetrains : Nat := 0
  seenStrips : Nat := 0
deriving DecidableEq, Repr

end Sys2Proof.Machine
end

