-- ==== Sys2Proof/Machine/TypesTime.lean ====
section
/-!
DEFINITION. The line timebase's state (spec/02_line_time.md): line time, the eleven source positions, the period
measurement, the loss and re-lock counters, the settings in effect and the sync outputs.
Elapsed times are exact rationals in units of 1/256 REF cycle (R55, R56).
-/

namespace Sys2Proof.Machine

/-- One source position of R48, with its own elapsed time and period samples. -/
structure SrcPos where
  /-- FRAME of the position (R46). -/
  frame : Nat := 0
  /-- LINE of the position (R46). -/
  line : Nat := 0
  /-- Lines of the position's last complete frame, 0 before it has had one (R374). -/
  prevLines : Nat := 0
  /-- Elapsed time since the position's last line or frame event. -/
  elapsed : Rat := 0
  /-- The last eight measured periods of this source, newest first. -/
  samples : List Rat := []
  /-- Elapsed time since the last real measuring event of this source. -/
  sinceReal : Rat := 0
  /-- A real measuring event has been seen and nothing was synthesised since (R55). -/
  clean : Bool := false
  /-- A line or frame event of this source has been seen: before it no line of the source is in progress (R48). -/
  begun : Bool := false
  /-- The last event of this source was a synthesised line (R50). -/
  synth : Bool := false
deriving DecidableEq, Repr

/-- A source that was lost and may recover (R80). -/
structure LostSrc where
  src : Nat
  /-- It has recovered and waits for its next frame event. -/
  recovered : Bool := false
  /-- The re-lock count has begun, and the good events counted so far. -/
  begun : Bool := false
  good : Nat := 0
  /-- Time since its last real event. -/
  since : Rat := 0
deriving DecidableEq, Repr

/-- Why LT runs on flywheel: not at all, after a loss (R79), or after a power-state return (R82). -/
inductive Flywheel where
  | none
  | loss
  | powerReturn
deriving DecidableEq, Repr

/-- The line timebase. Register words of R83 that hold set-up stand in the register store. -/
structure Ltb where
  /-- FRAME of LT. -/
  frame : Nat := 0
  /-- LINE of LT. -/
  line : Nat := 0
  /-- t of R56. -/
  elapsed : Rat := 0
  /-- The FRAC that the present line has reached; FRAC never decreases within a line (R56). -/
  fracFloor : Nat := 0
  /-- Whole REF cycles since the LTB's reset (R59), with the part of a cycle beyond them in refPart,
  in units of 1/256 REF cycle. -/
  refcount : Nat := 0
  refPart : Rat := 0
  /-- The source that LT follows (LTB_STATUS.ACTIVE_SRC). -/
  active : Nat := 15
  /-- The source of a pending switch (LTB_STATUS.SWITCH_PENDING). -/
  pendingSrc : Option Nat := none
  flywheel : Flywheel := .none
  /-- The sources that were lost and may recover: the one LT followed first, and a fallback that was lost too (R80). -/
  losts : List LostSrc := []
  /-- Consecutive expected events of the active source that failed to arrive (R78). -/
  missed : Nat := 0
  /-- Time since the last real event of the active source, or since its last missed expectation. -/
  sinceEvent : Rat := 0
  /-- Measured periods of LT's source since the last switch, re-lock or reset (R55), newest first. -/
  samples : List Rat := []
  /-- Time since the last real measuring event of the active source. -/
  sinceReal : Rat := 0
  clean : Bool := false
  /-- The last event of LT was a synthesised line of the camera that it follows (R50, R57). -/
  synthLine : Bool := false
  /-- The last P, held while LT runs on flywheel (R79). -/
  heldP : Rat := 54613
  /-- LT waits for a frame event after re-enable (R712). -/
  resumeHold : Bool := false
  /-- The pending switch was begun by a loss (R79). -/
  lossSwitch : Bool := false
  /-- LTB_SRC was written while LTB_CTRL.ENABLE was 0 (R712). -/
  srcWritten : Bool := false
  /-- LT holds until the primary's LT passes it (R74). -/
  twinHold : Bool := false
  /-- Settings in effect (R84): LTB_NOMINAL, LTB_NOM_PERIOD, LTB_LOSS, LTB_EXT, LTB_SYNC_OUT. -/
  nominal : Word := 0x2EE
  nomPeriod : Word := 0xD555
  lossCfg : Word := 0x3210
  ext : Word := 0
  syncOut : Word := 0
  /-- Levels of FSYNC_IN and LSYNC_IN that the LTB last recognised (R54, R76). -/
  fsyncSeen : Bool := false
  lsyncSeen : Bool := false
  /-- FSYNC_OUT and LSYNC_OUT are asserted, with the lines and the time since assertion (R77). -/
  fsyncOut : Bool := false
  fsyncLines : Nat := 0
  lsyncOut : Bool := false
  lsyncTime : Rat := 0
  /-- Line events of LT so far: the clock of delays that the spec states in lines. -/
  lineEvents : Nat := 0
  /-- Source positions 0 to 10. -/
  pos : List SrcPos := List.replicate 11 {}
deriving DecidableEq, Repr

end Sys2Proof.Machine
end

