-- ==== Sys2Proof/Machine/TypesTwin.lean ====
section
/-!
DEFINITION. The twin pair's state (spec/20_twin_pair.md).
-/

namespace Sys2Proof.Machine

/-- A mirror record: its 64-bit words, W0 first (R559). -/
abbrev TwinRec := List DWord

/-- What a CKPT record carries (R545, R559). ds is D_S as it stands in the record. -/
structure CkptRec where
  repeated : Bool := false
  salted : Bool := false
  n : Nat := 0
  ckptId : Nat := 0
  ds : DWord := 0
  dm : DWord := 0
  used : BitVec 16 := 0
  map : BitVec 16 := 0
  fw : Word := 0
deriving DecidableEq, Repr

/-- What a VERDICT record carries (R549, R551, R559). -/
structure VerdictRec where
  status : Nat
  side : Nat := 0
  kat : Bool := false
  /-- The cause with which the sender enters UNCHECKED. -/
  cause : Option Nat := none
  n : Nat
deriving DecidableEq, Repr

/-- The exchange of a CHECKPOINT on a twin ring (R545 to R551). Digests are the unsalted local ones. -/
structure Exchange where
  id : DescId
  n : Nat
  ckptId : Nat
  salted : Bool := false
  /-- It is made in UNCHECKED after RESUME (R555). -/
  forced : Bool := false
  /-- The salt test of a salted exchange has passed here. -/
  saltOk : Bool := false
  own : CkptRec
  peer : Option CkptRec := none
  /-- The repeat of the segment: the descriptors still to run, and the records of both twins after it. -/
  repeating : Bool := false
  left : List Desc := []
  own1 : Option CkptRec := none
  peer1 : Option CkptRec := none
  /-- The known-answer tests of the last row of R549 run; and how those ended here. -/
  testing : Bool := false
  tested : Option Bool := none
  verdict : Option VerdictRec := none
  peerVerdict : Option VerdictRec := none
  /-- Lines of LT when this twin sent its last record (R551). -/
  sentAt : Nat := 0
deriving DecidableEq, Repr

/-- The twin logic of the HLT. -/
structure Twin where
  /-- Level of TWIN_ALIVE (R557). -/
  alive : Bool := false
  /-- TAKEOVER is asserted (R556). -/
  takeover : Bool := false
  /-- Records waiting for port T: control records and data records (R539, R540). -/
  ctrlQ : List TwinRec := []
  dataQ : List TwinRec := []
  /-- A HELLO has been sent since ENABLE, and a matching one received (R531). -/
  helloSent : Bool := false
  helloOk : Bool := false
  /-- The exchange of each ring's CHECKPOINT, and CKPT records that came before the local one, with their ring. -/
  exchanges : List Exchange := []
  early : List (Nat × CkptRec) := []
  /-- The rings whose next first-run exchange RESUME forces to be salted; and port T has trained since the device
  entered UNCHECKED (R555). -/
  resume : DWord := 0
  retrained : Bool := false
  /-- LT records received and not yet due: the LT of the event and whether it is a frame event (R543). -/
  ltQ : List (Nat × Bool) := []
  /-- Strip digest entries of either twin: ring, frame, strip, digest, whether the pass is MAP_SENS (R558). -/
  ownStrips : List (Nat × Nat × Nat × DWord × Bool) := []
  peerStrips : List (Nat × Nat × Nat × DWord × Bool) := []
  /-- Lines of LT when the last ECHO request was sent (R552). -/
  echoAt : Nat := 0
  /-- A timing generator waits for its TGSYNC, and its PLL has locked (R544). -/
  tgWait : List Bool := [false, false, false, false]
  tgReady : List Bool := [false, false, false, false]
deriving DecidableEq, Repr

end Sys2Proof.Machine
end

