-- ==== Sys2Proof/Machine/TypesVzl.lean ====
section
/-!
DEFINITION. The Virzel block's state (spec/21_virzel_fabric.md): packets, outstanding requests and the four ports.
Counters, events and port status stand in the register store.
-/

namespace Sys2Proof.Machine

/-- A packet: its two header words and the bytes after them (R569); the port it came from, 4 for a local one; the
receive class and the slots of that port's buffer that it occupies (R576). -/
structure VzlPkt where
  h0 : DWord
  h1 : DWord := 0
  body : List Byte := []
  port : Nat := 4
  cls : Nat := 0
  flits : Nat := 0
deriving DecidableEq, Repr

/-- A request waiting for its response, or answered and not yet taken by its requester (R580, R581). -/
structure VzlReq where
  tag : Nat
  dev : Nat
  /-- 1 READ, 2 WRITE, 3 ATOMIC, 4 SIGNAL. -/
  op : Nat
  addr : Nat
  len : Nat
  /-- The requester it serves. -/
  owner : Nat := 0
  /-- The data of the response, once it has arrived. -/
  data : Option (List Byte) := none
deriving DecidableEq, Repr

/-- Training states of R571. -/
inductive PortState where
  | down
  | detect
  | lock
  | deskew
  | config
  | latency
  | active
deriving DecidableEq, Repr

/-- A DATA flit: its VC, whether it starts a packet or record, and its 28 payload bytes (R565). -/
structure VzlFlit where
  vc : Nat
  sop : Bool
  payload : List Byte
deriving DecidableEq, Repr

/-- What a port has sent: a DATA flit with its number, or a LINK flit (R565, R566), each with the bits its lanes carried
(R570), and NULL flits. -/
inductive VzlSent where
  | data (num : Nat) (flit wire : BitVec 256)
  | link (flit wire : BitVec 256)
  | null (n : Nat)
deriving DecidableEq, Repr

/-- One direction of a port (R570): the slots counted since ACTIVE, and the scrambler of each lane; bit i of a register
holds s_(n − 58 + i). -/
structure VzlDir where
  slots : Nat := 0
  lanes : List (BitVec 58) := List.replicate 4 0
deriving DecidableEq, Repr

/-- A packet or record that waits for its first slot: its VC, the peer's receive class, its bytes (R577, R578), and
where a packet in transit still lies: the port it came from, 4 for a local one, its class there and its slots. -/
structure VzlItem where
  vc : Nat
  cls : Nat
  bytes : List Byte
  port : Nat := 4
  fromCls : Nat := 0
  fromFlits : Nat := 0
deriving DecidableEq, Repr

/-- What is being received on a VC: the bytes and flits so far, the receive class, and whether the rest is discarded. -/
structure VzlRx where
  bytes : List Byte := []
  flits : Nat := 0
  cls : Nat := 0
  drop : Bool := false
deriving DecidableEq, Repr

/-- One Virzel port. -/
structure VzlPort where
  st : PortState := .down
  /-- Consecutive failed attempts (R575). -/
  failed : Nat := 0
  /-- The port has trained since reset (R573), and the present training is a retrain. -/
  trained : Bool := false
  /-- Items waiting for their first slot, oldest first. -/
  txq : List VzlItem := []
  /-- Flits of the packet or record being sent that wait for room in the replay buffer. -/
  ready : List VzlFlit := []
  /-- Unacknowledged DATA flits, oldest first, and the number of the oldest. -/
  replay : List VzlFlit := []
  ackNum : Nat := 0
  /-- Resends of the oldest flit without an advance of ACK. -/
  resends : Nat := 0
  /-- The number of the next DATA flit expected, and whether a NAK is outstanding. -/
  expect : Nat := 0
  nak : Bool := false
  /-- The next LINK flit is to carry a NAK. -/
  sayNak : Bool := false
  /-- The last TYPE-2 flit had a wrong MARK (R575). -/
  badMark : Bool := false
  /-- Credits: slots freed here and reported, and slots of the peer used and granted, per receive class (R576, R577). -/
  freed : List Nat := List.replicate 16 0
  reported : List Nat := List.replicate 16 0
  spent : List Nat := List.replicate 16 0
  granted : List Nat := List.replicate 16 0
  /-- The packet or record being received on each VC. -/
  rx : List VzlRx := List.replicate 4 {}
  /-- The lane offsets in UI that training has found, and NEXT_SEQ of the peer's TS2 (R568, R571). -/
  skew : List Nat := []
  peerNext : Nat := 0
  /-- What the port has sent since it last became ACTIVE, oldest first. -/
  sent : List VzlSent := []
  /-- The slot counts and scramblers of the transmitter and of the receiver (R570). -/
  tx : VzlDir := {}
  rxd : VzlDir := {}
  /-- The transmitter's slot after the last LINK flit, and those at which each class came to have unreported slots (R578). -/
  linkAt : Nat := 0
  freedAt : List Nat := List.replicate 16 0
  /-- The training words of lanes 0 to 3 in the first slot of the present training state (R568). -/
  training : List (BitVec 64) := []
  /-- The REQ and MDATA alternation of R578: the next one is MDATA. -/
  mdataNext : Bool := false
deriving DecidableEq, Repr

/-- The Virzel block. -/
structure Vzl where
  /-- Ports T, A, B, C. -/
  ports : List VzlPort := List.replicate 4 {}
  reqs : List VzlReq := []
  /-- Packets of this device and of transit waiting to be routed. -/
  routeQ : List VzlPkt := []
  /-- Requests and responses that reached this device and wait to be served, in arrival order. -/
  inQ : List VzlPkt := []
  rspQ : List VzlPkt := []
  /-- Mirror records that reached this device's HLT, in order: words, and the slots and class they occupy. -/
  records : List (List DWord × Nat × Nat) := []
deriving DecidableEq, Repr

end Sys2Proof.Machine
end

