-- ==== Sys2Proof/Machine/TypesWork.lean ====
section
/-!
DEFINITION. Work held by units (spec/08_heats_and_blocks.md, spec/12_layer_programs.md to
spec/15_race_rendering.md, spec/18_compression.md): grids of DISPATCH, PACK and UNPACK jobs, layer programs, render
passes in the GEO and on the tiles, and the strips of race passes.
-/

namespace Sys2Proof.Machine

/-- A DISPATCH in the placement engine: its blocks, and those placed so far. -/
structure Grid where
  id : DescId
  total : Nat
  placed : List Nat := []
deriving DecidableEq, Repr

/-- A PACK or UNPACK bound to a CMP instance (R508, R509): the next block, the raw or failing blocks with the lowest
of them, and the bytes written. -/
structure CmpJob where
  id : DescId
  pack : Bool
  next : Nat := 0
  bad : Nat := 0
  firstBad : Nat := 0
  sum : Nat := 0
deriving DecidableEq, Repr

/-- Who has blocks for a CMP instance: a PACK or UNPACK, a lift request of a cluster, or a tile job that stores or loads
(R508). -/
inductive CmpUser where
  | job (id : DescId)
  | lift (c : Nat) (owner : UnitOwner) (id : DescId)
  | tile (id : DescId) (t : Nat) (pack : Bool)
deriving DecidableEq, Repr

/-- The descriptor whose work a block is. -/
def CmpUser.id : CmpUser → DescId
  | .job id => id
  | .lift _ _ id => id
  | .tile id _ _ => id

/-- The block in progress on an instance (R507): whose it is, what it has made of the bytes read, its size entry, the
cause of a failed check and the PA of its slot, and whether its slot has been written. -/
structure CmpCur where
  user : CmpUser
  bytes : Option (List Byte) := none
  size : Nat := 0
  cause : Option Nat := none
  pa : Nat := 0
  slotDone : Bool := false
deriving DecidableEq, Repr

/-! ### Layers -/

/-- A layer of a running LAYER: its table entry and what its steps have reported (R359, R365). -/
structure LayerStat where
  nsteps : Nat
  mapSens : Bool
  finished : Nat := 0
  late : Nat := 0
  overrun : Bool := false
  sat : Bool := false
  nan : Bool := false
  underflow : Bool := false
  /-- LT at the completion of its last step, once that is judged; its entry is due then, and written (R375). -/
  doneLt : Option Nat := none
  written : Bool := false
deriving DecidableEq, Repr

/-- A step whose instruction or block has completed and that is not judged yet, with LT, the camera position and the
overrun found in the cycle of its completion (R372, R373). -/
structure StepEnd where
  step : Nat
  lt : Nat
  cam : Nat
  overrun : Bool
  sat : Bool := false
  nan : Bool := false
  underflow : Bool := false
deriving DecidableEq, Repr

/-- A LAYER held by the layer sequencer (R368). -/
structure LayerRun where
  id : DescId
  stream : Bool
  csi : Nat
  /-- F granules, steps, layers, MAX_G and the tables of the header (R358). -/
  granules : Nat
  steps : Nat
  maxG : Nat
  layerTable : Nat
  stepTable : Nat
  /-- The cluster of each virtual cluster (R367). -/
  vcls : List Nat
  /-- The bound frame F_c, and the display reference F_d once it is fixed (R371). -/
  fc : Nat := 0
  fd : Option Nat := none
  /-- Its windows are allocated. -/
  ready : Bool := false
  /-- The layer table has been read. -/
  tableRead : Bool := false
  layers : List LayerStat := []
  /-- Step records read so far, in order. -/
  recs : List (List DWord) := []
  /-- Steps started and not judged, steps that overran at their start, and steps judged. -/
  started : List Nat := []
  overStart : List Nat := []
  ended : List StepEnd := []
  finished : List Nat := []
  lateSteps : Nat := 0
  firstLate : Option Nat := none
deriving DecidableEq, Repr

/-! ### Geometry -/

/-- A vertex as the vertex program returns it: clip position and varyings (R388). -/
structure Vtx where
  pos : List Word
  vary : List Word
deriving DecidableEq, Repr

/-- A vertex batch (R386, R395): the lane of each index position, none for a restart; or points of a patch. -/
structure GeoBatch where
  no : Nat
  /-- The instance in its draw, and the instance ID: FIRST_INSTANCE of the draw and that (R384). -/
  inst : Nat
  instId : Nat
  topo : Nat
  entries : List (Option Nat) := []
  /-- Vertex IDs by lane, or indices of domain points. -/
  lanes : List Nat
  /-- The patch it belongs to, by its number in the render pass. -/
  patch : Option Nat := none
  placed : Bool := false
  outs : Option (List Vtx) := none
  /-- It ends its instance. -/
  last : Bool := false
deriving DecidableEq, Repr

/-- A tessellated patch (R391 to R395). -/
structure Patch where
  /-- Its number in the render pass, and in its instance. -/
  total : Nat
  num : Nat
  inst : Nat
  instId : Nat
  first : Nat
  pts : List (Rat × Rat × Rat)
  tris : List (Nat × Nat × Nat)
  batched : Nat := 0
  outs : List Vtx := []
deriving DecidableEq, Repr

/-- A vertex after screen mapping and snapping (R399, R400). -/
structure SVtx where
  x : Int
  y : Int
  z : Word
  rw1 : Word
  vary : List Word
deriving DecidableEq, Repr

/-- A primitive handed to the BIN (R402): 1, 2 or 3 vertices, the provoking vertex, and whether it faces back. -/
structure Prim where
  vs : List SVtx
  prov : SVtx
  back : Bool := false
deriving DecidableEq, Repr

/-- A render pass (R380, R406, R417). -/
structure GeoPass where
  id : DescId
  /-- G0 to G31 and K0 to K55. -/
  sect : List DWord
  /-- The GEO still holds it. -/
  inGeo : Bool := true
  /-- The tile directory has been allocated. -/
  began : Bool := false
  /-- The draw being fetched: its number and record, the instance, the index positions taken of it. -/
  draw : Nat := 0
  drawRec : List DWord := []
  inst : Nat := 0
  pos : Nat := 0
  fetched : Bool := false
  batchNo : Nat := 0
  batches : List GeoBatch := []
  /-- Patches of the pass and of the instance so far, and those with points or triangles left. -/
  patchTotal : Nat := 0
  patchNum : Nat := 0
  patches : List Patch := []
  /-- Vertices of the current segment kept for assembly, and how many it has had. -/
  asm : List Vtx := []
  asmN : Nat := 0
  /-- Primitives on their way to the BIN; what of the first one is binned: its record and lists. -/
  outq : List Prim := []
  binDone : Nat := 0
  /-- Its last allocation of bin heap failed and waits (R227). -/
  stalled : Bool := false
  prims : List Prim := []
  /-- References of each tile's list, in submission order. -/
  lists : Store (List Nat) := []
  /-- Tile jobs placed, and ended. -/
  tilesPlaced : List Nat := []
  tilesEnded : Nat := 0
  /-- Compressed blocks that failed on LOAD, and the first failing tile (R429). -/
  badBlocks : Nat := 0
  badTile : Nat := 0
deriving DecidableEq, Repr

/-- A launched fragment heat (R421): its age on the core, primitive, quads and covered samples per lane, and the heat
as it stood at its end. -/
structure FragRun where
  age : Nat
  prim : Nat
  quads : List (Nat × Nat)
  cover : List Nat
  result : Option Heat := none
deriving DecidableEq, Repr

/-- A tile job on a core (R416, R417). -/
structure TileJob where
  id : DescId
  tile : Nat
  core : Nat
  window : Window
  /-- Clusters in service when it was placed (R435). -/
  clusters : List Nat
  /-- Pieces of the load operations done so far, and whether all of them are. -/
  loadedPieces : Nat := 0
  loaded : Bool := false
  /-- The list entry and quad to launch next, and the fragment heats launched. -/
  cur : Nat := 0
  quad : Nat := 0
  heatNo : Nat := 0
  runs : List FragRun := []
  /-- Pieces of the store operations done so far, and whether all of them are. -/
  storedPieces : Nat := 0
  stored : Bool := false
deriving DecidableEq, Repr

/-! ### Race rendering -/

/-- A strip of a race pass (R433 to R448). -/
structure Strip where
  /-- Tile jobs placed, those whose store of colour target 0 is done, and those ended, and the clusters in service at the
  first placement. -/
  placed : Nat := 0
  stored : Nat := 0
  ended : Nat := 0
  clusters : Option (List Nat) := none
  /-- A tile had no place, or the set of clusters in service changed (R443). -/
  spoiled : Bool := false
  /-- Tiles stored: tile column, cluster and tile position. -/
  homes : List (Nat × Nat × Nat) := []
  /-- Shown or substituted, once decided. -/
  shown : Option Bool := none
  /-- Its deadline has passed. -/
  deadline : Bool := false
  windowEnded : Bool := false
  /-- First image line that reads the fallback after R444. -/
  fallFrom : Option Nat := none
  digest : DWord := 0
  /-- Its digest entry has been written. -/
  entry : Bool := false
deriving DecidableEq, Repr

/-- A race pass handed over for a ring (R439 to R447). -/
structure RacePass where
  id : DescId
  fshow : Nat
  /-- It stores no strip in the ring (R441), or its ring was disabled (R438). -/
  superseded : Bool := false
  discarded : Bool := false
  strips : List Strip
  /-- The frame that it is shown in, or would be, has begun on TG_m. -/
  begun : Bool := false
  /-- Its frame is over. -/
  past : Bool := false
  /-- The RENDER_PASS has reported completion. -/
  finished : Bool := false
  /-- MAP_SENS of the RENDER_PASS (R558). -/
  mapSens : Bool := false
deriving DecidableEq, Repr

/-- What a strip ring holds beside its registers: its passes, oldest first, and the settings in effect. -/
structure RaceRing where
  passes : List RacePass := []
  fbEn : Bool := false
  fbPitch : Nat := 0
  fb : Nat := 0
  digest : Nat := 0
  /-- The strip last assigned to each slot (R442). -/
  slots : List (Option (DescId × Nat)) := List.replicate 8 none
  /-- F_show of the last race pass handed over, if there was one. -/
  lastShow : Option Nat := none
deriving DecidableEq, Repr

/-- The units' work. -/
structure Work where
  grids : List Grid := []
  /-- Descriptors bound to each CMP instance, in order. -/
  cmp : List (List CmpJob) := [[], []]
  /-- The block in progress on each instance, and the lifts and tile jobs that wait for one (R507, R508). -/
  cmpCur : List (Option CmpCur) := [none, none]
  cmpWaits : List CmpUser := []
  layers : List LayerRun := []
  passes : List GeoPass := []
  /-- The pass the GEO works on. -/
  current : Option DescId := none
  tiles : List TileJob := []
  race : List RaceRing := List.replicate 16 {}
deriving DecidableEq, Repr

end Sys2Proof.Machine
end

