-- ==== Sys2Proof/Machine/State.lean ====
section
/-!
DEFINITION. The block's state as plain data, its faults and refusals, and the state right after reset.
-/

namespace Sys2Proof.Machine

/-- Why a command would end the run. -/
inductive Fault where
  /-- Raised by no command: every event of the spec has an effect or is discarded (R3). Safe. -/
  | unreachable
deriving DecidableEq, Repr

/-- Why a command has no meaning in the model. -/
inductive Refusal where
  /-- A command whose meaning is not written yet, by its mnemonic. Safe. -/
  | notModelled (mnemonic : String)
deriving DecidableEq, Repr

/-- The whole block. -/
structure State where
  /-- BAR0 registers that differ from their reset values, by offset. -/
  regs : Store Word := []
  ltb : Ltb := {}
  hiu : Hiu := {}
  cfe : Cfe := {}
  ctx : Ctx := {}
  con : Con := {}
  twin : Twin := {}
  mem : MemSys := {}
  vzl : Vzl := {}
  hlt : Hlt := {}
  /-- The allocator, per slot. -/
  heap : List SlotHeap := List.replicate 128 {}
  /-- Cores, TNS units and lift engines. -/
  clu : Clu := {}
  /-- Grids, layers, render passes, tile jobs and CMP jobs. -/
  work : Work := {}
  /-- Display outputs, planes and scalers. -/
  dsp : Dsp := {}
  /-- Camera ports. -/
  cam : List CamPort := List.replicate 4 {}
  aon : Aon := {}
  fuse : Fuses := {}
  grm : Grm := {}
  pmu : Pmu := {}
  pins : Pins := {}
  /-- LOCAL DRAM by physical address. -/
  dram : Mem := []
  /-- The model's own record of the event bits that the last command set, by register: the hardware sets of the cycle in
  which a host write may fall (R21, log entry 4). -/
  cycleSets : List (Nat × Word) := []
  /-- The model's own counter of free values drawn (log entry 1). -/
  freeCtr : Nat := 0
  /-- Commands waiting, first in, first out. -/
  pending : List Instr := []
deriving DecidableEq, Repr

/-- The state after the AON, DEVICE and FUNCTION scopes have been reset, with SYS_RST_N and PERST_N still low. -/
def State.reset : State := {}

end Sys2Proof.Machine
end

