-- ==== Sys2Proof/Machine/Regs.lean ====
section
/-!
DEFINITION. The register store of BAR0: finding a register's row, reading and writing a stored register, event
bits, saturating counters, pairs, and the capture rule of R104.
-/

namespace Sys2Proof.Machine

/-- The indices (i, j) of the copy of a register row that lies at an offset, if one does. -/
def regIndex (r : RegRow) (off : Nat) : Option (Nat × Nat) :=
  if off < r.base then none
  else
    let d := off - r.base
    if r.s1 = 0 then (if d = 0 then some (0, 0) else none)
    else
      let i := d / r.s1
      let e := d % r.s1
      if r.n1 ≤ i then none
      else if r.s2 = 0 then (if e = 0 then some (i, 0) else none)
      else if e % r.s2 = 0 ∧ e / r.s2 < r.n2 then some (i, e / r.s2) else none

/-- The first of some rows that has a copy at an offset, with that copy's indices. -/
def regFindIn : List RegRow → Nat → Option (RegRow × Nat × Nat)
  | [], _ => none
  | r :: rs, off => match regIndex r off with
    | some (i, j) => some (r, i, j)
    | none => regFindIn rs off

/-- The register at a BAR0 offset (R37). -/
def regFind (off : Nat) : Option (RegRow × Nat × Nat) := regFindIn (regBlock (off / 0x100000)) off

/-- The value that the register at an offset has after its scope's reset (R24); 0 where no register lies (R17). -/
def regReset (off : Nat) : Word :=
  match regFind off with
  | some (r, _, _) => BitVec.ofNat 32 r.reset
  | none => 0

/-- The stored value of a register. -/
def rd (s : State) (off : Nat) : Word := storeGet regReset s.regs off

/-- The stored value of a register whose reset value is 0, such as an event or enable register. -/
def rd0 (s : State) (off : Nat) : Word := storeGet (fun _ => 0) s.regs off

/-- The stored value of a register as a number. -/
def rdN (s : State) (off : Nat) : Nat := (rd s off).toNat

/-- A field of a stored register. -/
def rdF (s : State) (off lo w : Nat) : Nat := fld (rd s off) lo w

/-- The state with a register stored. -/
def wr (s : State) (off : Nat) (v : Word) : State := { s with regs := storePut regReset s.regs off v }

/-- The state with a register stored from a number modulo 2^32. -/
def wrN (s : State) (off v : Nat) : State := wr s off (BitVec.ofNat 32 v)

/-- The state with one field of a register replaced. -/
def wrF (s : State) (off lo w v : Nat) : State := wr s off (setFld (rd s off) lo w v)

/-- Hardware sets event bits of a register (R14); the cycle's sets are kept for R21. -/
def orReg (s : State) (off bits : Nat) : State :=
  { wr s off (rd s off ||| BitVec.ofNat 32 bits) with cycleSets := s.cycleSets ++ [(off, BitVec.ofNat 32 bits)] }

/-- Hardware clears bits of a register. -/
def clrReg (s : State) (off bits : Nat) : State := wr s off (rd s off &&& ~~~ (BitVec.ofNat 32 bits))

/-- Hardware sets event bit i. -/
def setEv (s : State) (off i : Nat) : State := orReg s off (2 ^ i)

/-- Adds to a counter that saturates at 0xFFFF_FFFF. -/
def satInc (s : State) (off k : Nat) : State := wr s off (satAdd32 (rd s off) k)

/-- The 64-bit value of the pair whose low half lies at an offset (R19). -/
def rd64 (s : State) (off : Nat) : Nat := rdN s off + 2 ^ 32 * rdN s (off + 4)

/-- The state with a 64-bit pair stored. -/
def wr64 (s : State) (off v : Nat) : State := wrN (wrN s off (v % 2 ^ 32)) (off + 4) (v / 2 ^ 32)

/-- Adds to a 64-bit counter pair, modulo 2^64. -/
def inc64 (s : State) (off k : Nat) : State := wr64 s off ((rd64 s off + k) % 2 ^ 64)

/-- The capture rule of R104: an error sets its bit, and fills the capture only if the register was all zero. -/
def captureErr (s : State) (off b : Nat) (cap : State → State) : State :=
  if rd s off = 0 then setEv (cap s) off b else setEv s off b

/-- An error of HIU_ERR with its captured address, byte enables and space (R102 to R104). -/
def hiuErr (s : State) (b addr be space : Nat) : State :=
  captureErr s Reg.hiuErr b fun s =>
    wrN (wrN s Reg.hiuErrAddrLo (addr % 2 ^ 32)) Reg.hiuErrAddrHi (be % 16 * 16 + space % 4)

/-- Whether HIU_STATUS.READY is 1 (R102). -/
def ready (s : State) : Bool := bit (rd0 s Reg.hiuStatus) 0

/-- Whether a BAR0 offset is live: everything once READY is 1; the HIU and GRM mailbox ranges before it, and the
PMU range too in STANDBY (R107, R655). -/
def liveAt (s : State) (off : Nat) : Bool :=
  ready s || decide (off < 0x100000) || (decide (0xF80000 ≤ off) && decide (off < 0x1000000)) ||
    (decide (fld (rd0 s Reg.pmuStatus) 0 2 = 1) && decide (0xF00000 ≤ off) && decide (off < 0xF80000))

/-- First-dword byte enables of n bytes at an address. -/
def firstDwBe (a n : Nat) : Nat :=
  (List.range 4).foldl (fun m i => if a % 4 ≤ i ∧ i < a % 4 + n then m + 2 ^ i else m) 0

/-- First-dword byte enables of a write of bytes at an offset. -/
def firstBe (off : Nat) (bytes : List (Option Byte)) : Nat :=
  (List.range 4).foldl (fun a i =>
    if off % 4 ≤ i ∧ ((bytes[i - off % 4]?).getD none).isSome then a + 2 ^ i else a) 0

/-- A 32-bit BAR0 write to a live offset takes effect; elsewhere it is discarded and NOT_READY is set (R103, R107). -/
def liveWrite (s : State) (off : Nat) (f : State → State) : State :=
  if liveAt s off then f s else hiuErr s 6 off 0xF 0

/-- Whether the disabled-unit map shows a cluster as in service: its bit of HLT_MAP.IN_SERVICE is 1 (R596). -/
def inService (s : State) (c : Nat) : Bool := decide (c < 16) && bit (rd0 s Reg.hltMap) c

/-- The clusters in service, lowest first. -/
def clustersInService (s : State) : List Nat := (List.range 16).filter (inService s)

/-- The device is draining (HLT_STATUS, R607). -/
def draining (s : State) : Bool := bit (rd0 s Reg.hltStatus) 0

/-- The pair state of R530: 0 OFF, 1 PAIRING, 2 CHECKED, 3 UNCHECKED. -/
def twinState (s : State) : Nat := fld (rd0 s Reg.hltTwinStatus) 0 3

/-- The cause of UNCHECKED: 1 CHECKER, 2 LINK_TIMING, 3 LINK_DOWN. -/
def twinCause (s : State) : Nat := fld (rd0 s Reg.hltTwinStatus) 3 2

/-- ROLE of R530; 3 acts as 0. -/
def twinRole (s : State) : Nat :=
  let r := fld (rd0 s Reg.hltTwinCtrl) 0 2
  if r = 3 then 0 else r

/-- A SECONDARY out of OFF: it discards its own host's BAR2 and BAR4 writes, writes no completion record, raises no
completion vector and reaches neither HOST nor REMOTE (R536, R580). -/
def hostDropped (s : State) : Bool := decide (twinRole s = 2) && decide (twinState s ≠ 0)

/-- Draws the next free value's index (log entry 1). -/
def drawFree (s : State) : Nat × State := (s.freeCtr, { s with freeCtr := s.freeCtr + 1 })

/-- n fresh bytes that the spec leaves open. -/
def drawBytes (s : State) (n : Nat) : List (Option Byte) × State :=
  ((List.range n).map fun i => some (Config.freeByte (s.freeCtr + i)), { s with freeCtr := s.freeCtr + n })

end Sys2Proof.Machine
end

