-- ==== Sys2Proof/Machine/GrmBase.lean ====
section
/-!
DEFINITION. What every decision of the groomer uses (spec/23_lifetime_and_groomer.md R618, R625, R626, R629):
wear counters and the forming of wear records.
-/

namespace Sys2Proof.Machine

/-- The state with its groomer changed. -/
def onGrm (s : State) (f : Grm → Grm) : State := { s with grm := f s.grm }

/-- The state with its always-on domain changed. -/
def onAon (s : State) (f : Aon → Aon) : State := { s with aon := f s.aon }

/-- The state with its health unit changed. -/
def onHlt (s : State) (f : Hlt → Hlt) : State := { s with hlt := f s.hlt }

/-- A counter that is not listed reads 0. -/
def counterDefault (_ : Nat) : Word := 0

/-- Wear counter i (R618). -/
def wearCounter (s : State) (i : Nat) : Word := storeGet counterDefault s.aon.counters i

/-- A wear counter is set. -/
def wearSet (s : State) (i : Nat) (v : Word) : State :=
  onAon s fun a => { a with counters := storePut counterDefault a.counters i v }

/-- k is added to a wear counter, which saturates (R618). -/
def wearAdd (s : State) (i k : Nat) : State := wearSet s i (satAdd32 (wearCounter s i) k)

/-- Index of device-wide counter i (R618). -/
def deviceCounter (i : Nat) : Nat := 1024 + i

/-- Index of counter i of CLUSTER_c (R618). -/
def clusterCounter (c i : Nat) : Nat := 64 * c + i

/-- A wear record is formed: it takes the calendar as its STAMP and the next SEQ; at most 256 wait, and the oldest is
dropped first (R629, R631). -/
def wearRecord (s : State) (kind : Nat) (payload : List Nat) : State :=
  let r : WearRec := { kind := kind, stamp := s.aon.cal, payload := payload.map fun w => BitVec.ofNat 64 w, seq := s.grm.seq }
  onGrm s fun g => { g with
    seq := (g.seq + 1) % 2 ^ 32
    recs := (if 256 ≤ g.recs.length then g.recs.drop 1 else g.recs) ++ [r] }

/-- A field of HLT_CLUSTER_c (R610). -/
def hltClu (s : State) (c lo w : Nat) : Nat := rdF s (Reg.hltCluster c) lo w

/-- The payload of a STATE record (R626). -/
def statePayload (s : State) : List Nat :=
  let sum := fun (f : Nat → Nat) => ((List.range 16).map f).foldl (· + ·) 0
  let gone := sum fun c => if 2 ≤ hltClu s c 10 2 then 2 ^ c else 0
  let flagged := bit (rd0 s Reg.hltStatus) 5
  let fails := sum fun c => hltClu s c 16 8 * 2 ^ (8 * c)
  [sum fun c => hltClu s c 0 4 * 2 ^ (4 * c),
   gone + b2n flagged * 2 ^ 16 + (if flagged then s.grm.flagCause % 8 else 0) * 2 ^ 17 + rdN s Reg.grmFwVersion * 2 ^ 32,
   fails % 2 ^ 64, fails / 2 ^ 64]

/-- The payload of the SNAPSHOT record of a part: its 64 counters (R626). -/
def snapshotPayload (s : State) (part : Nat) : List Nat :=
  part :: (List.range 32).map fun i =>
    (wearCounter s (64 * part + 2 * i)).toNat + (wearCounter s (64 * part + 2 * i + 1)).toNat * 2 ^ 32

/-- A STATE record (R629). -/
def stateRecord (s : State) : State := wearRecord s 2 (statePayload s)

/-- A STATE record and a full SNAPSHOT set (R629). -/
def snapshotSet (s : State) : State := (List.range 17).foldl (fun s p => wearRecord s 1 (snapshotPayload s p)) (stateRecord s)

/-- Step 5 of a drain (R607, R629): the replacement flag, unless the cause is HOST, and the records. -/
def drainFinish (s : State) : State :=
  let cause := rdF s Reg.hltStatus 2 3
  let s := if cause = 4 ∨ bit (rd0 s Reg.hltStatus) 5 then s
    else onGrm (orReg s Reg.hltStatus 32) fun g => { g with flagCause := cause }
  snapshotSet s

end Sys2Proof.Machine
end

