-- ==== Sys2Proof/Machine/Sched.lean ====
section
/-!
DEFINITION. Scheduling (spec/19_contention.md R513 to R519): tiers, pools, the orders of R516 and the weighted
share of R518, as one operation over any list of ranked candidates.
-/

namespace Sys2Proof.Machine

/-- The difference a - b of two LT values as the signed 64-bit order of R47 reads it: whether a >= b. -/
def ltGe (a b : Nat) : Bool := decide ((a + 2 ^ 64 - b % 2 ^ 64) % 2 ^ 64 < 2 ^ 63)

/-- Whether a < b in the order of R47. -/
def ltLt (a b : Nat) : Bool := !ltGe a b

/-- The least URGENT value of tier 0 in effect (R515). -/
def conUrgent (s : State) : Nat := fld s.con.ctrl 0 3

/-- The weight of pool p, GP first; 0 acts as 1 (R518). -/
def conWeight (s : State) (p : Nat) : Nat :=
  let w := if p < 4 then fld s.con.weight0 (8 * p) 8 else fld s.con.weight1 0 8
  if w = 0 then 1 else w

/-- Whether an item is in tier 0 (R515). -/
def rankTier0 (s : State) (r : Rank) : Bool := r.gated && decide (conUrgent s ≤ r.u)

/-- The pool of a tier-1 item: 0 is GP, 1 + c is the pool of class c (R515). -/
def rankPool (r : Rank) : Nat := if r.gated then 0 else 1 + r.cls % 4

/-- The order of R516 within tier 0 and GP (byDeadline) or within C0 to C3: whether a comes strictly before b. -/
def rankBefore (byDeadline : Bool) (a b : Rank) : Bool :=
  let tail := decide (a.ring < b.ring) || (decide (a.ring = b.ring) && (decide (a.seq < b.seq) ||
    (decide (a.seq = b.seq) && decide (a.step < b.step))))
  if byDeadline then ltLt a.rd b.rd || (decide (a.rd = b.rd) && tail)
  else decide (a.since < b.since) || (decide (a.since = b.since) && tail)

/-- The first of a list of candidates in an order; equal ranks keep list order. -/
def rankFirst {α : Type} (byDeadline : Bool) : List (Rank × α) → Option (Rank × α)
  | [] => none
  | c :: cs => match rankFirst byDeadline cs with
    | none => some c
    | some d => if rankBefore byDeadline d.1 c.1 then some d else some c

/-- Which pools have tier-1 candidates. -/
def poolsWith {α : Type} (s : State) (cs : List (Rank × α)) : List Bool :=
  (List.range 5).map fun p => cs.any fun c => !rankTier0 s c.1 && decide (rankPool c.1 = p)

/-- The pass of pool p. -/
def sharePass (sh : Share) (p : Nat) : Nat := (sh.passes[p]?).getD 0

/-- What a scheduler knows an item by. -/
def rankKey (r : Rank) : List Nat := [r.ring, r.stream, r.seq, r.step] ++ r.item

/-- The cycle in which an item became a candidate: as noted, or the present one (R516). -/
def candSince (s : State) (sh : Share) (r : Rank) : Nat :=
  ((sh.cands.find? fun c => decide (c.1 = rankKey r)).map Prod.snd).getD s.con.cycle

/-- The candidates with the cycles in which they became so. -/
def candsDated {α : Type} (s : State) (sh : Share) (cs : List (Rank × α)) : List (Rank × α) :=
  cs.map fun c => ({ c.1 with since := candSince s sh c.1 }, c.2)

/-- A pool that gains its first candidate is raised to the least pass of the pools that held some at the start of the
cycle (R518). -/
def shareArrive (sh : Share) (has : List Bool) : Share :=
  let held := (List.range 5).filter fun q => (sh.had[q]?).getD false
  match held.map (sharePass sh) with
  | [] => { sh with seen := has }
  | v :: vs =>
    let m := vs.foldl min v
    { sh with
      passes := (List.range 5).map fun p =>
        if (has[p]?).getD false && !(sh.seen[p]?).getD false then max (sharePass sh p) m else sharePass sh p
      seen := has }

/-- The end of a cycle at a scheduler: what arrived in it is raised, and its candidates are those that the next cycle
starts with. -/
def shareSettle {α : Type} (s : State) (sh : Share) (cs : List (Rank × α)) : Share :=
  let has := poolsWith s cs
  let sh := shareArrive sh has
  { sh with had := has, cands := cs.map fun c => (rankKey c.1, candSince s sh c.1), tier0 := cs.any fun c => rankTier0 s c.1 }

/-- The pool with the least pass among those that have candidates, the lower pool on a tie (R518). -/
def shareLeast (sh : Share) : List Nat → Option Nat
  | [] => none
  | p :: ps => match shareLeast sh ps with
    | none => some p
    | some q => if sharePass sh q < sharePass sh p then some q else some p

/-- After serving an item of cost c from pool p (R518). -/
def shareCharge (s : State) (sh : Share) (p c : Nat) : Share :=
  { sh with passes := setAt sh.passes p (sharePass sh p + c * (2 ^ 24 / conWeight s p)) }

/-- The choice of R517 among candidates whose dates are given, with the scheduler's share after the arrivals; none
without candidates. -/
def schedChoose {α : Type} (s : State) (sh : Share) (cs : List (Rank × α)) : Share × Option (Rank × α) :=
  let has := poolsWith s cs
  let sh := shareArrive sh has
  match rankFirst true (cs.filter fun c => rankTier0 s c.1) with
  | some c => (sh, some c)
  | none =>
    match shareLeast sh ((List.range 5).filter fun p => (has[p]?).getD false) with
    | none => (sh, none)
    | some p => (sh, rankFirst (decide (p = 0)) (cs.filter fun c => decide (rankPool c.1 = p)))

/-- The choice of R517 among candidates. -/
def schedPick {α : Type} (s : State) (sh : Share) (cs : List (Rank × α)) : Share × Option (Rank × α) :=
  schedChoose s sh (candsDated s sh cs)

/-- The share after the chosen item of cost c is served (R518). -/
def schedServe (s : State) (sh : Share) (r : Rank) (c : Nat) : Share :=
  shareCharge s sh (if rankTier0 s r then 0 else rankPool r) c

end Sys2Proof.Machine
end

