-- ==== Sys2Proof/Machine/LtbBase.lean ====
section
/-!
DEFINITION. Line time as every unit sees it (spec/02_line_time.md R46 to R70): the LT value, periods and
fractions, gates and urgency, and the mirror-record queue that LT events feed (R543).
-/

namespace Sys2Proof.Machine

/-- The core clock in effect in MHz (PMU_CORE_FREQ); 0 while it is stopped or not yet set. -/
def coreMHz (s : State) : Nat := fld (rd0 s Reg.pmuCoreFreq) 0 12

/-- LTB_CTRL.ENABLE. -/
def ltbEnabled (s : State) : Bool := bit (rd s Reg.ltbCtrl) 0

/-- Whether TG_n is enabled (TG_n_CTRL.ENABLE). -/
def tgEnabled (s : State) (n : Nat) : Bool := bit (rd0 s (Reg.tgCtrl n)) 0

/-- Htotal of TG_n in pixel cycles (R477). -/
def tgHtotal (s : State) (n : Nat) : Nat :=
  rdF s (Reg.tgHtime1 n) 0 13 + rdF s (Reg.tgHtime1 n) 16 12 + rdF s (Reg.tgHtime2 n) 0 12 + rdF s (Reg.tgHtime2 n) 16 12

/-- Vactive of TG_n (R477). -/
def tgVactive (s : State) (n : Nat) : Nat := rdF s (Reg.tgVtime1 n) 0 12

/-- Vtotal of TG_n in lines (R477). -/
def tgVtotal (s : State) (n : Nat) : Nat :=
  tgVactive s n + rdF s (Reg.tgVtime1 n) 16 12 + rdF s (Reg.tgVtime2 n) 0 12 + rdF s (Reg.tgVtime2 n) 16 12

/-- RATIO of TG_n (R478). -/
def tgRatio (s : State) (n : Nat) : Nat := rdF s (Reg.tgPclk n) 0 30

/-- LTB_NOM_PERIOD in effect; values below 0x0100 act as 0x0100 (R83). -/
def nomPeriod (s : State) : Rat := (max 0x100 (fld s.ltb.nomPeriod 0 24) : Nat)

/-- LTB_NOMINAL.LINES in effect; 0 acts as 1 (R83). -/
def nomLines (s : State) : Nat := max 1 (fld s.ltb.nominal 0 16)

/-- The exact line period of TG_n in 1/256 REF cycle (R55, R478); LTB_NOM_PERIOD while RATIO or Htotal is 0. -/
def tgPeriod (s : State) (n : Nat) : Rat :=
  if tgRatio s n = 0 ∨ tgHtotal s n = 0 then nomPeriod s
  else (256 * tgHtotal s n * 2 ^ 24 : Nat) / (tgRatio s n : Nat)

/-- Sources counted in lines for loss (R48): the TGs, EXT and TWIN. -/
def srcInLines (src : Nat) : Bool := decide (src < 4) || decide (src = 8) || decide (src = 10)

/-- Whether two source codes name one source: 11 to 15 all name FREE (R48). -/
def srcSame (a b : Nat) : Bool := decide (a = b) || (decide (11 ≤ a) && decide (11 ≤ b))

/-- N of R70 for a source. -/
def srcLines (s : State) (src : Nat) : Nat := if src < 4 then max 1 (tgVtotal s src) else nomLines s

/-- The mean of eight samples, kept exactly; d with fewer (R55). -/
def meanOr (d : Rat) (samples : List Rat) : Rat :=
  if samples.length < 8 then d else (samples.take 8).foldl (· + ·) 0 / 8

/-- P of LT (R55); on flywheel the last P (R79). -/
def ltP (s : State) : Rat :=
  if s.ltb.flywheel ≠ .none then s.ltb.heldP
  else if s.ltb.active < 4 then tgPeriod s s.ltb.active
  else if 11 ≤ s.ltb.active then nomPeriod s
  else meanOr (nomPeriod s) s.ltb.samples

/-- Source position k. -/
def srcPos (s : State) (k : Nat) : SrcPos := (s.ltb.pos[k]?).getD {}

/-- The period of source position k, kept from its own events. -/
def posP (s : State) (k : Nat) : Rat :=
  if k < 4 then tgPeriod s k else meanOr (nomPeriod s) (srcPos s k).samples

/-- FRAC for an elapsed time t and period p (R56); 0 in the cycle in which a line starts (R52). -/
def fracOf (t p : Rat) : Nat :=
  if t ≤ 0 then 0 else if p ≤ 0 then 0xFFFF else min 0xFFFF (65536 * t / p).floor.toNat

/-- A 64-bit LT value from its fields (R46). -/
def ltMake (frame line frac : Nat) : Nat :=
  frame % 2 ^ 32 * 2 ^ 32 + line % 2 ^ 16 * 2 ^ 16 + frac % 2 ^ 16

/-- FRAC of LT: it never decreases within a line (R56), stands at its top in the hold of R74, and does not advance
while LT is disabled or waits to resume (R712). -/
def ltFrac (s : State) : Nat :=
  if s.ltb.twinHold then 0xFFFF
  else if !ltbEnabled s || s.ltb.resumeHold then s.ltb.fracFloor
  else max s.ltb.fracFloor (fracOf s.ltb.elapsed (ltP s))

/-- LT (R46, R74). -/
def ltNow (s : State) : Nat := ltMake s.ltb.frame s.ltb.line (ltFrac s)

/-- Source position k as a 64-bit value (R48). -/
def posNow (s : State) (k : Nat) : Nat :=
  let p := srcPos s k
  ltMake p.frame p.line (fracOf p.elapsed (posP s k))

/-- The FRAME field of an LT value. -/
def ltFrameOf (v : Nat) : Nat := v / 2 ^ 32

/-- The LINE field of an LT value. -/
def ltLineOf (v : Nat) : Nat := v / 2 ^ 16 % 2 ^ 16

/-- The resolved gate G of a gate field and a doorbell frame (R62, R63). -/
def gateResolve (fref gate : Nat) : Nat := ltMake ((fref + nfld gate 18 2) % 2 ^ 32) (nfld gate 0 16) 0

/-- Whether LT has reached a gate (R64). -/
def gateReached (s : State) (g : Nat) : Bool := ltGe (ltNow s) g

/-- Urgency from the lines d to a gate and the horizon (R69); a negative d is taken as 0. -/
def urgencyFrom (d : Int) (h : Nat) : Nat := 7 - min 7 (8 * min d.toNat 65535 / h)

/-- H of R69; 0 acts as 1. -/
def horizon (s : State) : Nat := max 1 (rdF s Reg.ltbUrgency 0 12)

/-- The lines from an LT value to a gate, with n lines a frame; the frame difference is signed (R69). -/
def gateLines (now g n : Nat) : Int :=
  sext (ltFrameOf g + 2 ^ 32 - ltFrameOf now % 2 ^ 32) 32 * (n : Int) + (ltLineOf g : Int) - (ltLineOf now : Int)

/-- U of a gate (R69, R70). -/
def urgencyOf (s : State) (g : Nat) : Nat :=
  if gateReached s g then 7
  else urgencyFrom (gateLines (ltNow s) g (srcLines s s.ltb.active)) (horizon s)

/-- The device is out of OFF with a peer: CHECKED or UNCHECKED. -/
def twinPaired (s : State) : Bool := decide (twinState s = 2) || decide (twinState s = 3)

/-- Mirroring runs: paired, and not stopped by a LINK_DOWN since which port T has not trained (R553, R555). -/
def twinLinked (s : State) : Bool :=
  twinPaired s && !(decide (twinState s = 3) && decide (twinCause s = 3) && !s.twin.retrained)

/-- The device is the primary of a running pair. -/
def mirroring (s : State) : Bool := twinLinked s && decide (twinRole s = 1)

/-- A control record is put on the control queue of port T (R539). -/
def sendCtrl (s : State) (r : TwinRec) : State := { s with twin := { s.twin with ctrlQ := s.twin.ctrlQ ++ [r] } }

/-- Bytes of data records that wait for port T. -/
def mirrorBytes (s : State) : Nat := (s.twin.dataQ.map fun r => 8 * r.length).foldl (· + ·) 0

/-- Whether records of some bytes fit in the 64 KiB data queue (R540). -/
def mirrorFits (s : State) (bytes : Nat) : Bool := decide (mirrorBytes s + bytes ≤ 65536)

/-- A data record is put on the data queue of port T, and HLT_MIRROR_QUEUE follows (R540, R560). -/
def sendData (s : State) (r : TwinRec) : State :=
  let s := { s with twin := { s.twin with dataQ := s.twin.dataQ ++ [r] } }
  let n := mirrorBytes s / 16
  wrN s Reg.hltMirrorQueue (n % 2 ^ 16 + max n (rdF s Reg.hltMirrorQueue 16 16) % 2 ^ 16 * 2 ^ 16)

/-- W0 of a mirror record (R559). -/
def recW0 (kind ring hi : Nat) : DWord := BitVec.ofNat 64 (kind + ring % 64 * 2 ^ 8 + hi % 2 ^ 32 * 2 ^ 32)

/-- The LT record of the primary (R543, R559). -/
def ltRecord (s : State) (frameEvent : Bool) : TwinRec :=
  [recW0 5 0 (b2n frameEvent), BitVec.ofNat 64 (ltNow s), BitVec.ofNat 64 ((ltP s).floor.toNat % 2 ^ 24)]

/-- Whether a descriptor header has GATE_EN set (R119). -/
def descGated (d : Desc) : Bool := bit ((d.words[0]?).getD 0) 8

end Sys2Proof.Machine
end

