-- ==== Sys2Proof/Machine/Cache.lean ====
section
/-!
DEFINITION. DRAM, the L2 and the L1s (spec/06_memory_hierarchy.md R173 to R192, R203): line fills, evictions,
reads and writes at the L2, the L1 of a core, and the release and acquire actions of the scopes.
-/

namespace Sys2Proof.Machine

/-! ### Addresses -/

/-- U: the usable DRAM capacity in bytes (MEM_USABLE, R174). -/
def usable (s : State) : Nat := rd64 s Reg.memUsableLo

/-- The space of a PA: 0 LOCAL, 1 HOST, 2 REMOTE, 3 SHEET (R173). -/
def paSpace (pa : Nat) : Nat := nfld pa 46 2

/-- The state with its memory units changed. -/
def onMem (s : State) (f : MemSys → MemSys) : State := { s with mem := f s.mem }

/-! ### DRAM with inline ECC -/

/-- MEM_CFG.ECC_EN. -/
def eccOn (s : State) : Bool := bit (rd0 s Reg.memCfg) 4

/-- No ECC mark. -/
def noMark (_ : Nat) : Nat := 0

/-- The ECC mark of the DRAM word that holds address pa; marks count only with inline ECC on (R176). -/
def dramMark (s : State) (pa : Nat) : Nat := if eccOn s then storeGet noMark s.mem.dramErr (pa / 8) else 0

/-- An ECC finding of a unit: the event bit, the captured address and the count (R104, R203). -/
def eccReport (s : State) (events b addrReg addr count : Nat) : State :=
  satInc (captureErr s events b fun s => wr64 s addrReg addr) count 1

/-- The LP5 channel of a LOCAL address (R177). -/
def paChannel (pa : Nat) : Nat := nfld pa 8 4 ^^^ nfld pa 12 4 ^^^ nfld pa 16 4

/-- The accesses made from here on are those of scanout, capture, or an item in or below tier 0 (R524). -/
def accessAs (s : State) (side : BurstSide) : State := onMem s fun m => { m with side := side }

/-- An access of n bytes at pa issues a request for each of its 64-byte bursts, on the side of the item that it serves
(R524). -/
def lpIssue (s : State) (pa n : Nat) (write : Bool) : State :=
  if n = 0 then s
  else onMem s fun m => { m with reqs := m.reqs ++ (List.range ((pa + n - 1) / 64 - pa / 64 + 1)).map fun i =>
    { side := m.side, addr := BitVec.ofNat 48 ((pa / 64 + i) * 64), write := write } }

/-- Reading the DRAM word at pa: a single-bit error is corrected and written back, a double-bit error reported. -/
def dramCheckWord (s : State) (pa : Nat) : State :=
  let w := pa / 8 * 8
  match dramMark s pa with
  | 0 => s
  | 1 => eccReport (onMem s fun m => { m with dramErr := storePut noMark m.dramErr (pa / 8) 0 })
      Reg.memEvents 0 Reg.memEccAddrLo w Reg.memEccCorrCount
  | _ => eccReport s Reg.memEvents 1 Reg.memEccAddrLo w Reg.memEccUncorrCount

/-- The words that n bytes at pa touch. -/
def wordsOf (pa n : Nat) : List Nat := (List.range ((pa + n + 7) / 8 - pa / 8)).map fun i => (pa / 8 + i) * 8

/-- Reading n bytes of DRAM: the checks of each word, the bytes as stored, and the first uncorrectable word. -/
def dramRead (s : State) (pa n : Nat) : State × List Byte × Option Nat :=
  let ws := wordsOf pa n
  ((ws.foldl dramCheckWord (lpIssue s pa n false)), memRead s.dram pa n, ws.find? fun w => decide (dramMark s w = 2))

/-- Writing bytes to DRAM, each present byte alone; a whole word clears its mark (R176). -/
def dramWriteBytes (s : State) (pa : Nat) : List (Option Byte) → State
  | [] => s
  | b :: bs =>
    let s := match b with
      | some v => { s with dram := memPutByte s.dram pa v }
      | none => s
    dramWriteBytes s (pa + 1) bs

/-- Whether a write of bytes at pa covers the word at w whole. -/
def wordWhole (pa : Nat) (bs : List (Option Byte)) (w : Nat) : Bool :=
  decide (pa ≤ w) && decide (w + 8 ≤ pa + bs.length) && ((bs.drop (w - pa)).take 8).all Option.isSome

/-- The words that a write of bytes at pa changes in part: the controller reads and merges them (R176). -/
def wordsMerged (pa : Nat) (bs : List (Option Byte)) : List Nat :=
  (wordsOf pa bs.length).filter fun w => !wordWhole pa bs w &&
    ((bs.drop (w - pa)).take (w + 8 - max pa w)).any Option.isSome

/-- Clears the marks of the words that a write covers whole. -/
def dramClearMarks (s : State) (pa : Nat) (bs : List (Option Byte)) : State :=
  onMem s fun m => { m with dramErr := ((wordsOf pa bs.length).filter (wordWhole pa bs)).foldl
                              (fun e w => storePut noMark e (w / 8) 0) m.dramErr }

/-- Writing bytes to DRAM: words changed in part are read, checked and merged (R176). -/
def dramWrite (s : State) (pa : Nat) (bs : List (Option Byte)) : State :=
  let s := (wordsMerged pa bs).foldl dramCheckWord (lpIssue s pa bs.length true)
  dramClearMarks (dramWriteBytes s pa bs) pa bs

/-- Writing bytes to DRAM for a context's work: the address of an uncorrectable word that a merge would read stops it
(R176, R203). -/
def dramWriteWork (s : State) (pa : Nat) (bs : List (Option Byte)) : State × Option Nat :=
  match (wordsMerged pa bs).find? fun w => decide (dramMark s w = 2) with
  | some w => (dramCheckWord s w, some w)
  | none => (dramWrite s pa bs, none)

/-! ### Pseudo-LRU trees -/

/-- The nodes on the path to a way in a tree of the given depth, with the side taken at each. -/
def plruPath (depth way : Nat) : List (Nat × Bool) :=
  (List.range depth).map fun i => (2 ^ i + way / 2 ^ (depth - i), (way / 2 ^ (depth - 1 - i)) % 2 = 1)

/-- The tree bits after a way is used: every node on its path points to the other side. -/
def plruTouch (depth way bits : Nat) : Nat :=
  (plruPath depth way).foldl (fun b p =>
    if p.2 then b - (if b.testBit p.1 then 2 ^ p.1 else 0) else b ||| 2 ^ p.1) bits

/-- The way that the tree points to. -/
def plruVictim (bits : Nat) : Nat → Nat → Nat
  | 0, node => node
  | d + 1, node => plruVictim bits d (2 * node + b2n (bits.testBit node))

/-- The way to fill: the lowest invalid one, else the tree's choice. -/
def cacheVictim (depth : Nat) (c : CacheSet) : Nat :=
  match c.ways.findIdx? Option.isNone with
  | some w => w
  | none => plruVictim c.plru depth 1 - 2 ^ depth

/-- The way that holds a line address. -/
def cacheFind (c : CacheSet) (tag : Nat) : Option Nat :=
  c.ways.findIdx? fun w => match w with | some l => decide (l.tag = tag) | none => false

/-- The line in a way. -/
def cacheWay (c : CacheSet) (w : Nat) : Option Line := (c.ways[w]?).getD none

/-! ### Lines -/

/-- The bytes of a write that fall on a line, merged, each marked dirty. -/
def lineWrite (l : Line) (o : Nat) (bs : List (Option Byte)) : Line :=
  let put := fun (i : Nat) (b : Byte) =>
    if o ≤ i then (match bs[i - o]? with | some (some v) => v | _ => b) else b
  let mark := fun (i : Nat) (d : Bool) =>
    d || (decide (o ≤ i) && (match bs[i - o]? with | some (some _) => true | _ => false))
  let whole := fun (w : Nat) => decide (o ≤ 8 * w) && decide (8 * w + 8 ≤ o + bs.length) &&
    ((bs.drop (8 * w - o)).take 8).all Option.isSome
  let keep := fun (m : Nat) => (List.range 16).foldl (fun a w =>
    if m.testBit w && !whole w then a + 2 ^ w else a) 0
  { l with data := l.data.mapIdx put, dirty := l.dirty.mapIdx mark, corr := keep l.corr, uncorr := keep l.uncorr }

/-- The dirty bytes of a line, for writing them out. -/
def lineDirtyBytes (l : Line) : List (Option Byte) :=
  l.data.zipWith (fun b d => if d then some b else none) l.dirty

/-- Whether a line has a dirty byte. -/
def lineDirty (l : Line) : Bool := l.dirty.any id

/-- A clean line. -/
def lineClean (l : Line) : Line := { l with dirty := List.replicate 128 false }

/-! ### The L2 -/

/-- The key of the L2 set of a PA: bank * 256 + set (R184). -/
def l2Key (pa : Nat) : Nat := (nfld pa 7 4 ^^^ nfld pa 15 4) * 256 + nfld pa 11 8

/-- A set of the L2. -/
def l2Set (s : State) (key : Nat) : CacheSet := storeGet (fun _ => emptySet 16) s.mem.l2 key

/-- Stores a set of the L2. -/
def l2PutSet (s : State) (key : Nat) (c : CacheSet) : State :=
  onMem s fun m => { m with l2 := storePut (fun _ => emptySet 16) m.l2 key c }

/-- Writes the dirty bytes of an L2 line to DRAM; a word with an uncorrectable error keeps its mark there
when inline ECC is on (R187, R203). -/
def l2WriteBack (s : State) (l : Line) : State :=
  let s := dramWrite s (l.tag * 128) (lineDirtyBytes l)
  let bad := (List.range 16).filter fun w => l.uncorr.testBit w && ((l.dirty.drop (8 * w)).take 8).any id
  onMem s fun m => { m with dramErr := bad.foldl (fun e w => storePut noMark e (l.tag * 16 + w) 2) m.dramErr }

/-- A line read from DRAM for a fill. -/
def lineFill (s : State) (tag : Nat) : State × Line × Option Nat :=
  let (s, bs, bad) := dramRead s (tag * 128) 128
  (s, { tag := tag, data := bs, dirty := List.replicate 128 false }, bad)

/-- Installs a line in the L2, writing out a dirty victim first (R187). -/
def l2Install (s : State) (l : Line) : State :=
  let key := l2Key (l.tag * 128)
  let c := l2Set s key
  let w := cacheVictim 4 c
  let s := match cacheWay c w with
    | some v => if lineDirty v then l2WriteBack s v else s
    | none => s
  l2PutSet s key { ways := setAt c.ways w (some l), plru := plruTouch 4 w c.plru }

/-- The L2 line of a PA, filled when absent and made most recently used; the PA of an uncorrectable word that
kept the line from being installed. -/
def l2Line (s : State) (pa : Nat) : State × Line × Option Nat :=
  let key := l2Key pa
  let c := l2Set s key
  match cacheFind c (pa / 128) with
  | some w =>
    let l := (cacheWay c w).getD { tag := pa / 128, data := [], dirty := [] }
    (l2PutSet s key { c with plru := plruTouch 4 w c.plru }, l, none)
  | none =>
    let (s, l, bad) := lineFill s (pa / 128)
    match bad with
    | some a => (s, l, some a)
    | none => (l2Install s l, l, none)

/-- Stores a changed line in the way of the L2 that holds it. -/
def l2Update (s : State) (l : Line) : State :=
  let key := l2Key (l.tag * 128)
  let c := l2Set s key
  match cacheFind c l.tag with
  | some w => l2PutSet s key { c with ways := setAt c.ways w (some l) }
  | none => s

/-- The SECDED checks of the L2 words that a read touches (R184, R203). -/
def l2CheckWords (s : State) (l : Line) (o n : Nat) : State × Option Nat :=
  let ws := (List.range 16).filter fun w => decide (o < 8 * w + 8) && decide (8 * w < o + n)
  let fixed := ws.filter fun w => l.corr.testBit w
  let s := fixed.foldl (fun s w => eccReport s Reg.l2cEvents 0 Reg.l2cEccAddrLo (l.tag * 128 + 8 * w) Reg.l2cEccCorrCount) s
  let s := if fixed = [] then s else l2Update s { l with corr := fixed.foldl (fun c w => c - 2 ^ w) l.corr }
  match ws.find? fun w => l.uncorr.testBit w with
  | some w => (eccReport s Reg.l2cEvents 1 Reg.l2cEccAddrLo (l.tag * 128 + 8 * w) Reg.l2cEccUncorrCount,
      some (l.tag * 128 + 8 * w))
  | none => (s, none)

/-- A read of n bytes that lie in one line, through the L2: the bytes, and the PA of an uncorrectable word. -/
def l2Read (s : State) (pa n : Nat) : State × List Byte × Option Nat :=
  let (s, l, bad) := l2Line s pa
  match bad with
  | some a => (s, (l.data.drop (pa % 128)).take n, some a)
  | none =>
    let (s, bad) := l2CheckWords s l (pa % 128) n
    (s, (l.data.drop (pa % 128)).take n, bad)

/-- A write of bytes that lie in one line, through the L2 (write-allocate, R184), for a context's work: a fill that meets
an uncorrectable word installs nothing, and the write is not made (R203). -/
def l2WriteWork (s : State) (pa : Nat) (bs : List (Option Byte)) : State × Option Nat :=
  match l2Line s pa with
  | (s, _, some a) => (s, some a)
  | (s, l, none) => (l2Update s (lineWrite l (pa % 128) bs), none)

/-- A write of bytes that lie in one line, through the L2 (write-allocate, R184). It is not the work of a context: where
its fill meets an uncorrectable word the line is installed with the mark and no fault results (DESIGN CHOICE, log entry
72). -/
def l2Write (s : State) (pa : Nat) (bs : List (Option Byte)) : State :=
  let (s, l, bad) := l2Line s pa
  match bad with
  | some _ =>
    let mark := fun (m : Nat) (w : Nat) => if dramMark s (l.tag * 128 + 8 * w) = 2 then m + 2 ^ w else m
    l2Install s (lineWrite { l with uncorr := (List.range 16).foldl mark 0 } (pa % 128) bs)
  | none => l2Update s (lineWrite l (pa % 128) bs)

/-- The pieces (address, offset, length) of n bytes at a that lie in single 128-byte lines. -/
def linePieces (a n : Nat) : List (Nat × Nat × Nat) :=
  (List.range (if n = 0 then 0 else (a % 128 + n + 127) / 128)).map fun i =>
    let lo := max a ((a / 128 + i) * 128)
    let hi := min (a + n) ((a / 128 + i + 1) * 128)
    (lo, lo - a, hi - lo)

/-- Reads n bytes of LOCAL memory through the L2. -/
def l2ReadN (s : State) (pa n : Nat) : State × List Byte × Option Nat :=
  (linePieces pa n).foldl (fun (acc : State × List Byte × Option Nat) p =>
    let (s, bs, bad) := l2Read acc.1 p.1 p.2.2
    (s, acc.2.1 ++ bs, acc.2.2 <|> bad)) (s, [], none)

/-- Writes bytes of LOCAL memory through the L2. -/
def l2WriteN (s : State) (pa : Nat) (bs : List (Option Byte)) : State :=
  (linePieces pa bs.length).foldl (fun s p => l2Write s p.1 ((bs.drop p.2.1).take p.2.2)) s

/-- A read of one little-endian value through the L2. -/
def l2ReadLE (s : State) (pa n : Nat) : State × Nat × Option Nat :=
  let (s, bs, bad) := l2ReadN s pa n
  (s, leValue bs, bad)

/-- A write of one little-endian value through the L2. -/
def l2WriteLE (s : State) (pa n v : Nat) : State := l2WriteN s pa ((leBytes v n).map some)

/-! ### Maintenance of one line (R204, R205) -/

/-- OP 1 clean, 2 invalidate, 3 clean and invalidate, on the L2 line in a way of a set. -/
def l2OpWay (s : State) (op key w : Nat) : State :=
  match cacheWay (l2Set s key) w with
  | none => s
  | some l =>
    let s := if op % 2 = 1 then l2WriteBack s l else s
    let c := l2Set s key
    l2PutSet s key { c with ways := setAt c.ways w (if op = 1 then some (lineClean l) else none) }

/-- The operation on the L2 line of a PA, when it is present. -/
def l2OpPa (s : State) (op pa : Nat) : State :=
  match cacheFind (l2Set s (l2Key pa)) (pa / 128) with
  | some w => l2OpWay s op (l2Key pa) w
  | none => s

/-! ### The L1s -/

/-- The key of the L1 set of a PA in a core (R183). -/
def l1Key (core pa : Nat) : Nat := core * 128 + nfld pa 7 7

/-- A set of an L1. -/
def l1Set (s : State) (key : Nat) : CacheSet := storeGet (fun _ => emptySet 4) s.mem.l1 key

/-- Stores a set of an L1. -/
def l1PutSet (s : State) (key : Nat) (c : CacheSet) : State :=
  onMem s fun m => { m with l1 := storePut (fun _ => emptySet 4) m.l1 key c }

/-- L2C_CTRL.VICTIM_THRESH; larger values act as 64. -/
def victimThresh (s : State) : Nat := min 64 (rdF s Reg.l2cCtrl 0 7)

/-- The L2 bank of a PA (R184). -/
def l2Bank (pa : Nat) : Nat := nfld pa 7 4 ^^^ nfld pa 15 4

/-- Entries of the write queue of a PA's bank. -/
def bankHeld (s : State) (pa : Nat) : Nat := (s.mem.bankQ[l2Bank pa]?).getD 0

/-- A write of an L1 takes an entry of its bank's write queue; on a full queue it waits for one to leave (R186). -/
def bankPush (s : State) (pa : Nat) : State :=
  onMem s fun m => { m with bankQ := modAt m.bankQ (l2Bank pa) fun n => min 64 (n + 1) }

/-- Every bank serves one write of its queue (log entry 72). -/
def bankServe (s : State) : State := onMem s fun m => { m with bankQ := m.bankQ.map fun n => n - 1 }

/-- Dirty bytes of an L1 line go to the L2 through its bank's write queue. -/
def l1WriteBack (s : State) (l : Line) : State := l2WriteN (bankPush s (l.tag * 128)) (l.tag * 128) (lineDirtyBytes l)

/-- An L1 victim: its dirty bytes go to the L2; a clean line that the L2 lacks is taken while the bank's write queue holds
fewer than VICTIM_THRESH entries (R186). -/
def l1Evict (s : State) (l : Line) : State :=
  if lineDirty l then l1WriteBack s l
  else if (cacheFind (l2Set s (l2Key (l.tag * 128))) l.tag).isNone ∧ bankHeld s (l.tag * 128) < victimThresh s then
    l2Install s l
  else s

/-- A read of n bytes in one line through the L1 of a core. -/
def l1Read (s : State) (core pa n : Nat) : State × List Byte × Option Nat :=
  let key := l1Key core pa
  match cacheFind (l1Set s key) (pa / 128) with
  | some w =>
    let c := l1Set s key
    let l := (cacheWay c w).getD { tag := pa / 128, data := [], dirty := [] }
    (l1PutSet s key { c with plru := plruTouch 2 w c.plru }, (l.data.drop (pa % 128)).take n, none)
  | none =>
    let (s, bs, bad) := l2Read s (pa / 128 * 128) 128
    match bad with
    | some a => (s, (bs.drop (pa % 128)).take n, some a)
    | none =>
      let w := cacheVictim 2 (l1Set s key)
      let s := match cacheWay (l1Set s key) w with
        | some v => l1Evict s v
        | none => s
      let c := l1Set s key
      let l : Line := { tag := pa / 128, data := bs, dirty := List.replicate 128 false }
      (l1PutSet s key { ways := setAt c.ways w (some l), plru := plruTouch 2 w c.plru },
        (bs.drop (pa % 128)).take n, none)

/-- A write in one line through the L1 of a core: a hit updates the line, a miss goes to the L2 (R183). -/
def l1Write (s : State) (core pa : Nat) (bs : List (Option Byte)) : State × Option Nat :=
  let key := l1Key core pa
  let c := l1Set s key
  match cacheFind c (pa / 128) with
  | some w =>
    let l := (cacheWay c w).getD { tag := pa / 128, data := [], dirty := [] }
    (l1PutSet s key { ways := setAt c.ways w (some (lineWrite l (pa % 128) bs)), plru := plruTouch 2 w c.plru }, none)
  | none => l2WriteWork (bankPush s pa) pa bs

/-- OP 1 clean, 2 invalidate, 3 both, on the line in a way of an L1 set: dirty bytes go to the L2. -/
def l1OpWay (s : State) (op key w : Nat) : State :=
  match cacheWay (l1Set s key) w with
  | none => s
  | some l =>
    let s := if op % 2 = 1 ∧ lineDirty l then l1WriteBack s l else s
    let c := l1Set s key
    l1PutSet s key { c with ways := setAt c.ways w (if op = 1 then some (lineClean l) else none) }

/-- The operation on a PA's line in the L1 of one core. -/
def l1OpPa (s : State) (op core pa : Nat) : State :=
  match cacheFind (l1Set s (l1Key core pa)) (pa / 128) with
  | some w => l1OpWay s op (l1Key core pa) w
  | none => s

/-- The operation on every line of the L1 of a core. -/
def l1OpAll (s : State) (op core : Nat) : State :=
  let keys := (s.mem.l1.map Prod.fst).filter fun k => decide (k / 128 = core)
  keys.foldl (fun s k => (List.range 4).foldl (fun s w => l1OpWay s op k w) s) s

/-- Device release of a core: every dirty byte of its L1 goes to the L2 (R192). -/
def l1Release (s : State) (core : Nat) : State := l1OpAll s 1 core

/-- Device acquire of a core: its L1 is written back and invalidated (R192). -/
def l1Acquire (s : State) (core : Nat) : State := l1OpAll s 3 core

end Sys2Proof.Machine
end

