-- ==== Sys2Proof/Machine/VzlBase.lean ====
section
/-!
DEFINITION. Virzel routing and the requester side (spec/21_virzel_fabric.md R563, R564, R579, R580).
-/

namespace Sys2Proof.Machine

/-- The state with its Virzel block changed. -/
def onVzl (s : State) (f : Vzl → Vzl) : State := { s with vzl := f s.vzl }

/-- Port p: 0 T, 1 A, 2 B, 3 C. -/
def vzlPort (s : State) (p : Nat) : VzlPort := (s.vzl.ports[p]?).getD {}

/-- The state with port p changed. -/
def onPort (s : State) (p : Nat) (f : VzlPort → VzlPort) : State := onVzl s fun v => { v with ports := modAt v.ports p f }

/-- This device's ID (VZL_ID). -/
def vzlId (s : State) : Nat := rdF s Reg.vzlId 0 7

/-- The ring size of dimension 0 x, 1 y, 2 z: 0 acts as 1, 5 to 7 as 4 (R584). -/
def vzlDim (s : State) (dim : Nat) : Nat := min 4 (max 1 (rdF s Reg.vzlDims (4 * dim) 3))

/-- The coordinate of a device in a dimension (R563). -/
def devCoord (dev dim : Nat) : Nat := nfld dev (1 + 2 * dim) 2

/-- Whether the pair of a device exists (R563). -/
def devExists (s : State) (dev : Nat) : Bool := (List.range 3).all fun d => decide (devCoord dev d < vzlDim s d)

/-- The next hop toward a destination by dimension order, with its port and whether it crosses a wrap link;
none at the destination (R579, R576). keep is the direction already taken in a dimension, true for plus. -/
def vzlRoute (s : State) (dest : Nat) (keep : Nat → Option Bool) : Option (Nat × Bool) :=
  let here := vzlId s
  let step := fun (d : Nat) =>
    let k := vzlDim s d
    let delta := (devCoord dest d + 4 * k - devCoord here d) % k
    if delta = 0 then none
    else
      let plus := (keep d).getD (decide (2 * delta ≤ k))
      let wrap := if plus then decide (devCoord here d + 1 = k) else decide (devCoord here d = 0)
      if (here % 2 = 0) = plus then some (d + 1, wrap) else some (0, false)
  match [0, 1, 2].findSome? step with
  | some h => some h
  | none => if here % 2 = dest % 2 then none else some (0, false)

/-- Whether port p is ACTIVE. -/
def portActive (s : State) (p : Nat) : Bool := decide ((vzlPort s p).st = .active)

/-- Whether a device is unreachable for an engine access (R580), other than this device itself. -/
def vzlUnreachable (s : State) (dev : Nat) : Bool :=
  !bit (rd s (Reg.vzlReach (dev / 32))) (dev % 32) || !devExists s dev ||
    hostDropped s ||
    match vzlRoute s dev (fun _ => none) with
    | some (p, _) => !portActive s p
    | none => true

/-- The lowest free tag of the 1,024 (R580). -/
def vzlFreeTag (s : State) : Option Nat :=
  (List.range 1024).find? fun t => !s.vzl.reqs.any fun r => decide (r.tag = t) && r.data.isNone

/-- The request header Q0 (R569). -/
def vzlQ0 (s : State) (op dev tag len aop : Nat) (w64 : Bool) : DWord :=
  BitVec.ofNat 64 (op + dev % 128 * 2 ^ 4 + vzlId s * 2 ^ 11 + tag % 1024 * 2 ^ 18 + (len - 1) % 128 * 2 ^ 28 +
    aop % 16 * 2 ^ 35 + b2n w64 * 2 ^ 39)

/-- Sends a request with a free tag; none when no tag is free. -/
def vzlSend (s : State) (op dev addr len aop : Nat) (w64 : Bool) (body : List Byte) (owner : Nat) : Option State :=
  match vzlFreeTag s with
  | none => none
  | some t =>
    let lenField := if op = 1 ∨ op = 2 then len else 1
    let pkt : VzlPkt := { h0 := vzlQ0 s op dev t lenField aop w64, h1 := BitVec.ofNat 64 (addr % 2 ^ 39), body := body }
    let req : VzlReq := { tag := t, dev := dev, op := op, addr := addr % 2 ^ 39, len := len, owner := owner }
    some (onVzl s fun v => { v with reqs := v.reqs ++ [req], routeQ := v.routeQ ++ [pkt] })

end Sys2Proof.Machine
end

