-- ==== Sys2Proof/Machine/Mmu.lean ====
section
/-!
DEFINITION. Translation, and accesses of units to virtual and physical memory (spec/06_memory_hierarchy.md R178 to
R185, R206 to R209; R536, R580, R713): the walk with its cached entries, the checks, and reads and writes that
reach LOCAL, HOST or REMOTE memory.
-/

namespace Sys2Proof.Machine

/-- The slot state of a context. -/
def ctxSlot (s : State) (c : Nat) : Slot := (s.ctx.slots[c]?).getD {}

/-- The state with slot c changed. -/
def onSlot (s : State) (c : Nat) (f : Slot → Slot) : State :=
  { s with ctx := { s.ctx with slots := modAt s.ctx.slots c f } }

/-- A translation: the PA and the memory type, 3 acting as 2 (R185). -/
structure Xlat where
  pa : Nat
  mtype : Nat
deriving DecidableEq, Repr

/-- The kinds of access: codes of DETAIL[49:48] (R125). -/
abbrev accLoad : Nat := 0

/-- A store or an atomic. -/
abbrev accStore : Nat := 1

/-- An instruction fetch. -/
abbrev accFetch : Nat := 2

/-- A descriptor fetch. -/
abbrev accDesc : Nat := 3

/-- A cached entry that covers a VA. -/
def tlbFind (s : State) (slot va : Nat) (kind : TlbKind) (bits : Nat) : Option Nat :=
  (s.mem.tlb.find? fun e => decide (e.slot = slot) && decide (e.kind = kind) && decide (e.vpn = va / 2 ^ bits)).map
    TlbEntry.pte

/-- Caches a valid entry (R182). -/
def tlbAdd (s : State) (slot va : Nat) (kind : TlbKind) (bits pte : Nat) : State :=
  onMem s fun m => { m with tlb := m.tlb ++ [{ slot := slot, kind := kind, vpn := va / 2 ^ bits, pte := pte }] }

/-- Reads the table entry at index idx of the table at a PA, through the L2 (R178, R203). -/
def pteRead (s : State) (level table idx access va : Nat) : State × Except MFault Nat :=
  if paSpace table ≠ 0 ∨ usable s < table + 4096 then
    (s, .error { reason := 6, level := level, access := access, addr := va, detail := va })
  else
    let (s, v, bad) := l2ReadLE s (table + 8 * idx) 8
    match bad with
    | some a => (s, .error { reason := 8, level := level, access := access, addr := a, detail := va })
    | none => (s, .ok v)

/-- ADDR of an entry (R207). -/
def pteAddr (pte : Nat) : Nat := nfld pte 12 36 * 4096

/-- The permission checks of a leaf (R180, R208). -/
def leafCheck (access va pte : Nat) : Option MFault :=
  let w := pte.testBit 3
  let x := pte.testBit 4
  if access = accStore ∧ x then some { reason := 4, access := access, addr := va, detail := va }
  else if access = accStore ∧ !w then some { reason := 3, access := access, addr := va, detail := va }
  else if access = accFetch ∧ !x then some { reason := 5, access := access, addr := va, detail := va }
  else none

/-- The PA of a leaf whose page has the given number of offset bits (R207). -/
def leafPa (pte va bits : Nat) : Nat := pteAddr pte / 2 ^ bits * 2 ^ bits + va % 2 ^ bits

/-- A leaf found: its checks and its PA. -/
def leafUse (s : State) (access va pte bits : Nat) : State × Except MFault Xlat :=
  match leafCheck access va pte with
  | some f => (s, .error f)
  | none => (s, .ok { pa := leafPa pte va bits, mtype := min 2 (nfld pte 6 2) })

/-- The last level: the entry of the 64 KiB group first, then the page's own (R179). -/
def walkPt0 (s : State) (slot va access table : Nat) : State × Except MFault Xlat :=
  match pteRead s 0 table (nfld va 16 5 * 16) access va with
  | (s, .error f) => (s, .error f)
  | (s, .ok g) =>
    if g.testBit 0 && g.testBit 2 then leafUse (tlbAdd s slot va (.leaf 16) 16 g) access va g 16
    else
      match pteRead s 0 table (nfld va 12 9) access va with
      | (s, .error f) => (s, .error f)
      | (s, .ok e) =>
        if e.testBit 0 then leafUse (tlbAdd s slot va (.leaf 12) 12 e) access va e 12
        else (s, .error { reason := 1, level := 0, access := access, addr := va, detail := va })

/-- The walk from a table of a level down to the table of level 0, or to a 2 MiB leaf at level 1 (R178). -/
def walkFrom (slot va access : Nat) : Nat → Nat → State → State × Except MFault (Nat × Option Nat)
  | 0, table, s => (s, .ok (table, none))
  | l + 1, table, s =>
    match pteRead s (l + 1) table (nfld va (12 + 9 * (l + 1)) 9) access va with
    | (s, .error f) => (s, .error f)
    | (s, .ok e) =>
      if !e.testBit 0 then (s, .error { reason := 1, level := l + 1, access := access, addr := va, detail := va })
      else if e.testBit 1 then
        if l = 0 then (tlbAdd s slot va (.leaf 21) 21 e, .ok (0, some e))
        else (s, .error { reason := 2, level := l + 1, access := access, addr := va, detail := va })
      else walkFrom slot va access l (pteAddr e) (tlbAdd s slot va (.table l) (12 + 9 * (l + 1)) (pteAddr e))

/-- The walk from the deepest cached table pointer, or from the PT3 table at PT_ROOT (R178, R182). -/
def walkTable (s : State) (slot va access : Nat) : State × Except MFault (Nat × Option Nat) :=
  match tlbFind s slot va (.table 0) 21, tlbFind s slot va (.table 1) 30, tlbFind s slot va (.table 2) 39 with
  | some t, _, _ => walkFrom slot va access 0 t s
  | none, some t, _ => walkFrom slot va access 1 t s
  | none, none, some t => walkFrom slot va access 2 t s
  | none, none, none => walkFrom slot va access 3 (ctxSlot s slot).image.ptRoot s

/-- Translates a 48-bit VA in a slot's address space (R178 to R182). -/
def translate (s : State) (slot va access : Nat) : State × Except MFault Xlat :=
  let va := va % 2 ^ 48
  match tlbFind s slot va (.leaf 12) 12, tlbFind s slot va (.leaf 16) 16, tlbFind s slot va (.leaf 21) 21 with
  | some e, _, _ => leafUse s access va e 12
  | _, some e, _ => leafUse s access va e 16
  | _, _, some e => leafUse s access va e 21
  | none, none, none =>
    match walkTable s slot va access with
    | (s, .error f) => (s, .error f)
    | (s, .ok (_, some leaf)) => leafUse s access va leaf 21
    | (s, .ok (table, none)) => walkPt0 s slot va access table

/-! ### Accesses -/

/-- What an access comes to: done, a fault, or waiting for a response of another device. -/
inductive AccRes (α : Type) where
  | ok (v : α)
  | fault (f : MFault)
  | wait
deriving Repr

/-- Who makes an access: a core through its L1, or a unit that works at the L2. -/
inductive Agent where
  | core (k : Nat) (owner : Nat)
  | unit (owner : Nat := 0)
deriving DecidableEq, Repr

/-- An outbound read of n bytes that is withheld while Bus Master Enable is 0 (R104, R713). -/
def hostBlocked (s : State) (bus n : Nat) : State := hiuErr s 7 bus (firstDwBe bus n) 3

/-- Reading bytes of host memory (R98, R536, R713). -/
def hostRead (s : State) (bus n va : Nat) : State × AccRes (List Byte) :=
  if hostDropped s then
    (s, .fault { reason := 7, addr := 2 ^ 46 + bus, detail := va })
  else if !s.hiu.busMasterEn then (hostBlocked s bus n, .fault { reason := 9, addr := va, detail := va })
  else (s, .ok (memRead s.hiu.hostMem bus n))

/-- Stores the present bytes of a write in a memory. -/
def memPutSome (m : Mem) (a : Nat) : List (Option Byte) → Mem
  | [] => m
  | b :: bs => memPutSome (match b with | some v => memPutByte m a v | none => m) (a + 1) bs

/-- Writing bytes of host memory: dropped while Bus Master Enable is 0 (R713). -/
def hostWrite (s : State) (bus : Nat) (bs : List (Option Byte)) : State :=
  if !s.hiu.busMasterEn then hiuErr s 7 bus (firstBe bus bs) 3
  else { s with hiu := { s.hiu with hostMem := memPutSome s.hiu.hostMem bus bs } }

/-- A LOCAL access that does not go through the caches (R185). -/
def uncachedRead (s : State) (pa n : Nat) : State × List Byte × Option Nat := dramRead s pa n

/-- A read of n bytes inside one line at a PA of the LOCAL space under a memory type (R183 to R185). -/
def localRead (s : State) (who : Agent) (pa mtype n : Nat) : State × List Byte × Option Nat :=
  match mtype, who with
  | 0, .core k _ => l1Read s k pa n
  | 0, .unit _ => l2Read s pa n
  | 1, _ => l2Read s pa n
  | _, _ => uncachedRead s pa n

/-- A write inside one line at a PA of the LOCAL space under a memory type (R183 to R185), with the address of an
uncorrectable word that stopped it (R203). -/
def localWrite (s : State) (who : Agent) (pa mtype : Nat) (bs : List (Option Byte)) : State × Option Nat :=
  match mtype, who with
  | 0, .core k _ => l1Write s k pa bs
  | 0, .unit _ => l2WriteWork s pa bs
  | 1, _ => l2WriteWork s pa bs
  | _, _ => dramWriteWork s pa bs

/-- The fault of a PA outside what may be reached (R208). -/
def paFault (pa access va : Nat) : MFault := { reason := 7, access := access, addr := pa, detail := va }

/-- The requester number of an agent, by which it finds its own responses. -/
def agentOwner (a : Agent) : Nat := match a with
  | .core _ o => o
  | .unit o => o

/-- A read of another device: sent once, and answered from the response when it has arrived (R580, R581). The
answer is kept for its requester until remoteFlush. -/
def remoteRead (s : State) (owner dev addr n : Nat) : State × AccRes (List Byte) :=
  match s.vzl.reqs.find? fun r => decide (r.owner = owner) && decide (r.op = 1) && decide (r.dev = dev) &&
      decide (r.addr = addr) && decide (r.len = n) with
  | some r => match r.data with
    | some d => (s, .ok ((d ++ List.replicate n 0).take n))
    | none => (s, .wait)
  | none => ((vzlSend s 1 dev addr n 0 false [] owner).getD s, .wait)

/-- Drops the answers kept for a requester whose operation is done. -/
def remoteFlush (s : State) (owner : Nat) : State :=
  onVzl s fun v => { v with reqs := v.reqs.filter fun r => !(decide (r.owner = owner) && r.data.isSome) }

/-- An operation that must wait for a response leaves only its requests behind, and is tried again later. -/
def retryWait (s s' : State) : State := { s with vzl := s'.vzl }

/-- The runs (offset, bytes) of present bytes of a write, for the packets of a remote write. -/
def presentRuns : Nat → List (Option Byte) → List (Nat × List Byte)
  | _, [] => []
  | o, none :: bs => presentRuns (o + 1) bs
  | o, some b :: bs => match presentRuns (o + 1) bs with
    | (o', r) :: rest => if o' = o + 1 then (o, b :: r) :: rest else (o, [b]) :: (o', r) :: rest
    | [] => [(o, [b])]

/-- A write of another device: one WRITE packet per run of bytes (R580); it waits while no tag is free. -/
def remoteWrite (s : State) (owner dev addr : Nat) (bs : List (Option Byte)) : State × AccRes Unit :=
  (presentRuns 0 bs).foldl (fun (acc : State × AccRes Unit) r =>
    match acc.2 with
    | .ok _ => match vzlSend acc.1 2 dev (addr + r.1) r.2.length 0 false r.2 owner with
      | some s => (s, .ok ())
      | none => (acc.1, .wait)
    | e => (acc.1, e)) (s, .ok ())

/-- A read of n bytes inside one line at any PA. -/
def paRead (s : State) (who : Agent) (x : Xlat) (n access va : Nat) : State × AccRes (List Byte) :=
  let lo := x.pa % 2 ^ 46
  let atLocal := fun (mtype pa : Nat) =>
    if usable s < pa + n then (s, AccRes.fault (paFault x.pa access va))
    else
      let (s, bs, bad) := localRead s who pa mtype n
      match bad with
      | some a => (s, AccRes.fault { reason := 8, access := access, addr := a, detail := va })
      | none => (s, AccRes.ok bs)
  match paSpace x.pa with
  | 0 => atLocal x.mtype lo
  | 1 =>
    let (s, r) := hostRead s lo n va
    (s, match r with | .fault f => .fault { f with access := access } | r => r)
  | 2 =>
    let dev := nfld x.pa 39 7
    if dev = vzlId s ∧ !hostDropped s then atLocal 2 (x.pa % 2 ^ 39)
    else if vzlUnreachable s dev then (s, .fault (paFault x.pa access va))
    else remoteRead s (agentOwner who) dev (x.pa % 2 ^ 39) n
  | _ => (s, .fault (paFault x.pa access va))

/-- A write inside one line at any PA. -/
def paWrite (s : State) (who : Agent) (x : Xlat) (bs : List (Option Byte)) (va : Nat) : State × AccRes Unit :=
  let lo := x.pa % 2 ^ 46
  let ended := fun (r : State × Option Nat) => match r.2 with
    | some a => (r.1, AccRes.fault { reason := 8, access := accStore, addr := a, detail := va })
    | none => (r.1, AccRes.ok ())
  match paSpace x.pa with
  | 0 =>
    if usable s < lo + bs.length then (s, .fault (paFault x.pa accStore va))
    else ended (localWrite s who lo x.mtype bs)
  | 1 =>
    if hostDropped s then (s, .fault (paFault x.pa accStore va))
    else (hostWrite s lo bs, .ok ())
  | 2 =>
    let dev := nfld x.pa 39 7
    if dev = vzlId s ∧ !hostDropped s then
      let pa := x.pa % 2 ^ 39
      if usable s < pa + bs.length then (s, .fault (paFault x.pa accStore va))
      else ended (dramWriteWork s pa bs)
    else if vzlUnreachable s dev then (s, .fault (paFault x.pa accStore va))
    else remoteWrite s (agentOwner who) dev (x.pa % 2 ^ 39) bs
  | _ => (s, .fault (paFault x.pa accStore va))

/-- A read of n bytes at a VA of a slot, line by line. -/
def vaRead (s : State) (who : Agent) (slot va n access : Nat) : State × AccRes (List Byte) :=
  (linePieces va n).foldl (fun (acc : State × AccRes (List Byte)) p =>
    match acc.2 with
    | .ok bs => match translate acc.1 slot p.1 access with
      | (s, .error f) => (s, .fault f)
      | (s, .ok x) => match paRead s who x p.2.2 access (p.1 % 2 ^ 48) with
        | (s, .ok b) => (s, .ok (bs ++ b))
        | r => r
    | _ => acc) (s, .ok [])

/-- A write at a VA of a slot, line by line. -/
def vaWrite (s : State) (who : Agent) (slot va : Nat) (bs : List (Option Byte)) : State × AccRes Unit :=
  (linePieces va bs.length).foldl (fun (acc : State × AccRes Unit) p =>
    match acc.2 with
    | .ok _ => match translate acc.1 slot p.1 accStore with
      | (s, .error f) => (s, .fault f)
      | (s, .ok x) => paWrite s who x ((bs.drop p.2.1).take p.2.2) (p.1 % 2 ^ 48)
    | _ => acc) (s, .ok ())

/-- A little-endian value read at a VA by a unit. -/
def vaReadLE (s : State) (slot va n access : Nat) : State × AccRes Nat :=
  match vaRead s .unit slot va n access with
  | (s, .ok bs) => (s, .ok (leValue bs))
  | (s, .fault f) => (s, .fault f)
  | (s, .wait) => (s, .wait)

/-- The capture of a fault in the MMU registers (R208, R209): MMU_FAULT_INFO, MMU_FAULT_ADDR and the count. -/
def mmuCapture (s : State) (slot : Nat) (f : MFault) : State :=
  let s := captureErr s Reg.mmuEvents 0 fun s =>
    wrN (wr64 s Reg.mmuFaultAddrLo (f.addr % 2 ^ 48)) Reg.mmuFaultInfo
      (slot % 128 + f.access % 4 * 2 ^ 8 + f.level % 4 * 2 ^ 10 + f.reason % 16 * 2 ^ 12)
  satInc s Reg.mmuFaultCount 1

/-- The status and DETAIL of a failed access (R125): FAULT_WRITE_EXEC for reason 4, else FAULT_PAGE. -/
def faultResult (f : MFault) : Result :=
  if f.reason = 4 then { status := 0x23, detail := f.detail % 2 ^ 48 }
  else { status := 0x21, detail := f.detail % 2 ^ 48 + f.access % 4 * 2 ^ 48 + b2n (decide (f.reason = 9)) * 2 ^ 50 }

/-- Drops the cached translations of a slot (R163, R166, R206). -/
def tlbDropSlot (s : State) (slot : Nat) : State :=
  onMem s fun m => { m with tlb := m.tlb.filter fun e => decide (e.slot ≠ slot) }

/-- The VA bits below the size that a cached entry covers. -/
def tlbBits (k : TlbKind) : Nat := match k with
  | .table l => 12 + 9 * (l + 1)
  | .leaf b => b

/-- Drops the cached entries of a slot that overlap [lo, hi) (R206). -/
def tlbDropRange (s : State) (slot lo hi : Nat) : State :=
  onMem s fun m => { m with tlb := m.tlb.filter fun e =>
                              !(decide (e.slot = slot) && decide (e.vpn * 2 ^ tlbBits e.kind < hi) &&
                                decide (lo < (e.vpn + 1) * 2 ^ tlbBits e.kind)) }

end Sys2Proof.Machine
end

