-- ==== Sys2Proof/Machine/Sync.lean ====
section
/-!
DEFINITION. Sync objects (spec/05_contexts_and_objects.md R154 to R160): reading and writing entries through the
L2, signals, poisoning and the evaluation of waits.
-/

namespace Sys2Proof.Machine

/-- The descriptors in flight changed by f. -/
def mapDescs (s : State) (f : Desc → Desc) : State := { s with cfe := { s.cfe with descs := s.cfe.descs.map f } }

/-- The descriptor of an identity changed by f. -/
def onDesc (s : State) (id : DescId) (f : Desc → Desc) : State :=
  mapDescs s fun d => if d.id = id then f d else d

/-- The descriptor of an identity. -/
def findDesc (s : State) (id : DescId) : Option Desc := s.cfe.descs.find? fun d => decide (d.id = id)

/-- The descriptor in flight that a command names by ring and SEQ: the oldest one, were the SEQ in flight of two
streams. -/
def descNamed (s : State) (ring : Fin 64) (seq : Word) : DescId :=
  match s.cfe.descs.find? fun d => decide (d.id.ring = ring.val) && decide (d.id.seq = seq.toNat) with
  | some d => d.id
  | none => { ring := ring.val, seq := seq.toNat }

/-- Whether two descriptors belong to one stream (R112). -/
def sameStream (a b : DescId) : Bool := decide (a.ring = b.ring) && decide (a.stream = b.stream)

/-- Word i of a descriptor (R118). -/
def descWord (d : Desc) (i : Nat) : DWord := (d.words[i]?).getD 0

/-- OPCODE (R118). -/
def descOp (d : Desc) : Nat := fld (descWord d 0) 0 8

/-- Whether a descriptor is a WAIT. -/
def descIsWait (d : Desc) : Bool := decide (descOp d = 3)

/-- The device physical address of entry i (R154). -/
def syncAddr (s : State) (obj : Nat) : Nat := rd64 s Reg.ctxSyncTableLo + 16 * obj

/-- Whether entry i lies in usable DRAM (R154). -/
def syncInRange (s : State) (obj : Nat) : Bool := decide (syncAddr s obj + 16 ≤ usable s)

/-- A sync entry: COUNTER and E1 (R171). -/
structure SyncEntry where
  counter : Nat
  e1 : Nat
deriving DecidableEq, Repr

/-- What an entry outside usable DRAM, or an uncorrectable one, reads as (R154, R203). -/
def poisonedEntry (c : Nat) : SyncEntry := { counter := 2 ^ 64 - 1, e1 := 128 + c % 128 }

/-- Reads an entry through the L2; the flag says that an uncorrectable error was met. -/
def syncRead (s : State) (obj : Nat) : State × SyncEntry × Bool :=
  if !syncInRange s obj then (setEv s Reg.ctxEvents 4, poisonedEntry 0, false)
  else
    let (s, c, bad) := l2ReadLE s (syncAddr s obj) 8
    let (s, e, bad') := l2ReadLE s (syncAddr s obj + 8) 8
    if bad.isSome || bad'.isSome then (s, poisonedEntry 0, true) else (s, { counter := c, e1 := e }, false)

/-- Writes an entry through the L2; discarded outside usable DRAM (R154). -/
def syncWrite (s : State) (obj : Nat) (e : SyncEntry) : State :=
  if !syncInRange s obj then setEv s Reg.ctxEvents 4
  else l2WriteLE (l2WriteLE s (syncAddr s obj) 8 e.counter) (syncAddr s obj + 8) 8 e.e1

/-- POISONED of an entry. -/
def entryPoisoned (e : SyncEntry) : Bool := e.e1.testBit 7

/-- The entry after a signal with value v by a context (R155). -/
def entrySignal (e : SyncEntry) (v ctx : Nat) : SyncEntry :=
  if entryPoisoned e then e
  else
    let c := max e.counter (min v (2 ^ 64 - 2))
    if c = e.counter then e
    else { counter := c, e1 := e.e1 - nfld e.e1 9 7 * 2 ^ 9 + ctx % 128 * 2 ^ 9 }

/-- The entry after poisoning on behalf of a context (R159). -/
def entryPoison (e : SyncEntry) (ctx : Nat) : SyncEntry :=
  { counter := 2 ^ 64 - 1, e1 := e.e1 - e.e1 % 256 + 128 + ctx % 128 }

/-- The entry with WAITERS as given (R171). -/
def entryWaiters (e : SyncEntry) (w : Bool) : SyncEntry :=
  { e with e1 := e.e1 - nfld e.e1 8 1 * 2 ^ 8 + b2n w * 2 ^ 8 }

/-- OBJ of a SIGNAL or WAIT descriptor (R120). -/
def descObj (d : Desc) : Nat := fld (descWord d 2) 0 16

/-- VALUE of a SIGNAL or WAIT descriptor (R120). -/
def descValue (d : Desc) : Nat := (descWord d 3).toNat

/-- A WAIT that is evaluated, unsatisfied and still in hold on an object. -/
def waitsOn (d : Desc) (obj : Nat) : Bool :=
  descIsWait d && d.evaluated && d.satisfied.isNone && decide (d.stage = .held) && decide (descObj d = obj)

/-- Whether a pending-wait entry is held on an object (R158). -/
def hasWaiter (s : State) (obj : Nat) : Bool := s.cfe.descs.any fun d => d.waitEntry && decide (descObj d = obj)

/-- Pending-wait entries held (CTX_STATUS.WAITS_USED). -/
def waitsUsed (s : State) : Nat := (s.cfe.descs.filter fun d => d.waitEntry).length

/-- WAITERS of an object's entry is brought up to date. -/
def syncWaiters (s : State) (obj : Nat) : State :=
  if !syncInRange s obj then s
  else
    let (s, e, _) := syncRead s obj
    let e' := entryWaiters e (hasWaiter s obj)
    if e' = e then s else syncWrite s obj e'

/-- Waits that have been evaluated but wait for an entry take one while the table has room (R130, R158). -/
def grantWaitEntries (s : State) : State :=
  let want := s.cfe.descs.filter fun d =>
    descIsWait d && d.evaluated && d.satisfied.isNone && !d.waitEntry && decide (d.stage = .held)
  want.foldl (fun s d =>
    if waitsUsed s < 4096 then syncWaiters (onDesc s d.id fun d => { d with waitEntry := true }) (descObj d)
    else s) s

/-- Every wait on an object is evaluated against the entry's counter; a satisfied one frees its entry (R157, R158). -/
def evalWaits (s : State) (obj counter : Nat) : State :=
  let s := mapDescs s fun d =>
    if waitsOn d obj && decide (descValue d ≤ counter) then
      { d with satisfied := some counter, waitEntry := false }
    else d
  grantWaitEntries (syncWaiters s obj)

/-- The SYNC record of a change that the secondary does not make itself (R537, R559). -/
def syncRecord (obj : Nat) (poison init : Bool) (counter : Nat) : TwinRec :=
  [recW0 4 0 (obj % 2 ^ 16 + b2n poison * 2 ^ 16 + b2n init * 2 ^ 17), BitVec.ofNat 64 counter]

/-- Whether a ring is a twin ring (HLT_TWIN_RINGS, R533). -/
def twinRing (s : State) (ring : Nat) : Bool := bit (rd0 s (if ring < 32 then Reg.hltTwinRingsLo else Reg.hltTwinRingsHi)) (ring % 32)

/-- A change of a sync entry is mirrored unless a twin ring or the CAM made it (R537). -/
def mirrorSync (s : State) (twinMade : Bool) (r : TwinRec) : State :=
  if mirroring s && !twinMade then sendData s r else s

/-- Whether a mirrored sync change must wait: its record does not fit, or another waits before it (R540). -/
def syncMustWait (s : State) (twinMade : Bool) : Bool :=
  mirroring s && !twinMade && (!mirrorFits s 16 || !s.ctx.syncQ.isEmpty)

/-- A sync change waits in the CTX. -/
def syncPush (s : State) (o : SyncOp) : State := { s with ctx := { s.ctx with syncQ := s.ctx.syncQ ++ [o] } }

/-- A signal of an object (R155): the counter after it, and whether the entry was uncorrectable. One that changes
nothing still evaluates the object's waits, which a write of the entry by another path may have satisfied (R154). -/
def signalObj (s : State) (obj v ctx : Nat) (twinMade : Bool) : State × Nat × Bool :=
  let (s, e, bad) := syncRead s obj
  let e' := entrySignal e v ctx
  if e' = e then (evalWaits s obj e.counter, e.counter, bad)
  else if syncMustWait s twinMade then (syncPush s (.signal obj v ctx), e.counter, bad)
  else
    let s := mirrorSync (syncWrite s obj e') twinMade (syncRecord obj false false e'.counter)
    (evalWaits s obj e'.counter, e'.counter, bad)

/-- Poisoning of an object (R159). -/
def poisonObj (s : State) (obj ctx : Nat) (twinMade : Bool) : State :=
  if syncMustWait s twinMade then syncPush s (.poison obj ctx)
  else
    let (s, e, _) := syncRead s obj
    let s := syncWrite s obj (entryPoison e ctx)
    let s := mirrorSync s twinMade (syncRecord obj true false (2 ^ 64 - 1))
    evalWaits s obj (2 ^ 64 - 1)

/-- Initialisation of an object (R169). -/
def initObj (s : State) (obj v : Nat) (twinMade : Bool) : State :=
  if syncMustWait s twinMade then syncPush s (.init obj v)
  else
    let s := syncWrite s obj (entryWaiters { counter := v, e1 := 0 } (hasWaiter s obj))
    let s := mirrorSync s twinMade (syncRecord obj false true v)
    let (s, e, _) := syncRead s obj
    evalWaits s obj e.counter

/-- The sync changes that wait take effect in order while their records fit (R540). -/
def syncDrain : Nat → State → State
  | 0, s => s
  | n + 1, s =>
    match s.ctx.syncQ with
    | [] => s
    | o :: os =>
      if mirroring s && !mirrorFits s 16 then s
      else
        let s := { s with ctx := { s.ctx with syncQ := [] } }
        let s := match o with
          | .signal obj v c => (signalObj s obj v c false).1
          | .poison obj c => poisonObj s obj c false
          | .init obj v => initObj s obj v false
        syncDrain n { s with ctx := { s.ctx with syncQ := os } }

/-- Whether an object lies in the signal range of a slot; slot 0's is all objects (R146). -/
def inSignalRange (s : State) (c obj : Nat) : Bool :=
  decide (c = 0) || (decide ((ctxSlot s c).image.sigFirst ≤ obj) && decide (obj ≤ (ctxSlot s c).image.sigLast))

/-- Whether an object lies in the wait range of a slot (R146). -/
def inWaitRange (s : State) (c obj : Nat) : Bool :=
  decide (c = 0) || (decide ((ctxSlot s c).image.waitFirst ≤ obj) && decide (obj ≤ (ctxSlot s c).image.waitLast))

/-- A Kamir or remote signal outside the range is discarded and counted (R156). -/
def sigReject (s : State) (c obj : Nat) : State :=
  setEv (wrN (satInc s Reg.ctxSigRejects 1) Reg.ctxSigRejectLast (obj % 2 ^ 16 + c % 128 * 2 ^ 16)) Reg.ctxEvents 2

/-- SYNC_INIT: a write of CTX_SYNC_INIT with GO (R169). -/
def syncInit (s : State) (v : Word) : State :=
  if bit v 31 then initObj s (fld v 0 16) (rd64 s Reg.ctxSyncInitValLo) false else s

end Sys2Proof.Machine
end

