-- ==== Sys2Proof/Machine/HeapBase.lean ====
section
/-!
DEFINITION. The allocator (spec/07_allocators_and_heaps.md R213 to R233): reserves and size classes, ALLOC and FREE,
bin heap space, growth requests, and the discard of a slot's heaps.
-/

namespace Sys2Proof.Machine

/-- What the allocator holds for slot c. -/
def slotHeap (s : State) (c : Nat) : SlotHeap := (s.heap[c]?).getD {}

/-- Units of a slot's bin heap. -/
def binUnits (h : SlotHeap) : Nat := (h.chunks.map BinChunk.units).foldl (· + ·) 0

/-- The state with a slot's heap changed, and HEAP_c_UNITS, FREE_UNITS and BIN_UNITS brought up to date (R232). -/
def onHeap (s : State) (c : Nat) (f : SlotHeap → SlotHeap) : State :=
  let s := { s with heap := modAt s.heap c f }
  let h := slotHeap s c
  let free := (h.units.filter fun u => u.cls.isNone).length
  wrN (wrN (wrN s (Reg.heapUnits c) h.units.length) (Reg.heapFreeUnits c) free) (Reg.heapBinUnits c) (binUnits h)

/-- The heap metadata table's entries of units change: 128 bytes each, of U / 512 in all, whose layout is no part of the
contract, are free values (R215; the place of an entry is a DESIGN CHOICE, log entry 41). -/
def metaTouch (s : State) (pas : List Nat) : State :=
  pas.foldl (fun s pa =>
    let a := rd64 s Reg.heapMetaBaseLo + pa / 65536 * 128
    let (bs, s) := drawBytes s 128
    if a + 128 ≤ usable s then l2WriteN s a bs else s) s

/-- The PAs of the units of a chunk. -/
def chunkUnits (k : BinChunk) : List Nat := (List.range k.units).map fun i => k.pa + 65536 * i

/-- The PAs of the 64 KiB units that a slot's reserve and bin heap own. -/
def slotUnits (h : SlotHeap) : List Nat := h.units.map HeapUnit.pa ++ h.chunks.flatMap chunkUnits

/-- The PAs of the 64 KiB units that reserves and bin heaps own, as the heap metadata table has them (R215). -/
def ownedUnits (s : State) : List Nat :=
  s.heap.flatMap slotUnits

/-- The PA of unit k of a slot's reserve, as a list. -/
def unitPa (s : State) (c k : Nat) : List Nat := (((slotHeap s c).units[k]?).map HeapUnit.pa).toList

/-! ### ALLOC and FREE -/

/-- The class of a request of n bytes (R216); none for 0 and for more than 65,536. -/
def heapClass (n : Nat) : Option Nat := if n = 0 then none else (List.range 11).find? fun m => decide (n ≤ 64 * 2 ^ m)

/-- Blocks in a unit of class m. -/
def blocksPerUnit (m : Nat) : Nat := 1024 / 2 ^ m

/-- The block that an ALLOC of class m takes: unit and block (R217). -/
def heapPick (h : SlotHeap) (m : Nat) : Option (Nat × Nat) :=
  let freeBlock := fun (u : HeapUnit) => (List.range (blocksPerUnit m)).find? fun b => !u.used.contains b
  match h.units.findIdx? fun u => decide (u.cls = some m) && (freeBlock u).isSome with
  | some k => ((h.units[k]?).bind freeBlock).map fun b => (k, b)
  | none => (h.units.findIdx? fun u => u.cls.isNone).map fun k => (k, 0)

/-- The VA of a block (R213). -/
def heapVa (s : State) (c k m b : Nat) : Nat := rd64 s (Reg.heapVaBaseLo c) + k * 65536 + b * (64 * 2 ^ m)

/-- ALLOC of n bytes in slot c: the VA, the status, and the class asked for (R217, R218). -/
def heapAlloc (s : State) (c n : Nat) : State × Nat × Nat :=
  match heapClass n with
  | none => (s, 0, 2)
  | some m =>
    match heapPick (slotHeap s c) m with
    | none => (s, 0, 1)
    | some (k, b) =>
      let take := fun (u : HeapUnit) => { u with cls := some m, used := b :: u.used }
      (metaTouch (onHeap s c fun h => { h with units := modAt h.units k take }) (unitPa s c k), heapVa s c k m b, 0)

/-- The null return of an ALLOC is counted for its descriptor (R222). -/
def allocNull (s : State) (id : DescId) (n status : Nat) : State :=
  onDesc s id fun d => { d with
    nulls := d.nulls + 1
    minClass := if status = 1 then min d.minClass ((heapClass n).getD 15) else d.minClass }

/-- FREE of an address in slot c: the status (R219). -/
def heapFree (s : State) (c a : Nat) : State × Nat :=
  let base := rd64 s (Reg.heapVaBaseLo c)
  let k := (a - base) / 65536
  let bad := (satInc s (Reg.heapBadFrees c) 1, 3)
  if a < base then bad
  else
    match (slotHeap s c).units[k]? with
    | none => bad
    | some u =>
      match u.cls with
      | none => bad
      | some m =>
        let o := (a - base) % 65536
        let b := o / (64 * 2 ^ m)
        if o % (64 * 2 ^ m) = 0 ∧ u.used.contains b then
          let left := u.used.filter fun x => decide (x ≠ b)
          (metaTouch (onHeap s c fun h => { h with units := modAt h.units k fun u =>
            { u with used := left, cls := if left = [] then none else some m } }) (unitPa s c k), 0)
        else bad

/-! ### The bin heap -/

/-- Payload bytes of a chunk (R231). -/
def chunkBytes (k : BinChunk) : Nat := k.units * 65536 - 64

/-- Payload bytes of a chunk counted as used. -/
def chunkUsed (k : BinChunk) : Nat := (k.uses.map Prod.snd).foldl (· + ·) 0

/-- Bin heap bytes that a pass has used (R411). -/
def passBytes (h : SlotHeap) (id : DescId) : Nat :=
  (h.chunks.map fun k => ((k.uses.filter fun u => decide (u.1 = id)).map Prod.snd).foldl (· + ·) 0).foldl (· + ·) 0

/-- The chunk in use by a pass: the last one it has taken bytes from, or the first. -/
def chunkInUse (h : SlotHeap) (id : DescId) : Nat :=
  (List.range h.chunks.length).foldl (fun a i =>
    match h.chunks[i]? with
    | some k => if k.uses.any fun u => decide (u.1 = id) then i else a
    | none => a) 0

/-- Takes n bytes for a pass from the chunks after those skipped: what is left of a chunk with too little room
counts as used (R411); none when no chunk of the list has room. -/
def takeFrom (id : DescId) (n : Nat) : List BinChunk → Option (List BinChunk)
  | [] => none
  | k :: ks =>
    let free := chunkBytes k - chunkUsed k
    if n ≤ free then some ({ k with uses := k.uses ++ [(id, n)] } :: ks)
    else (takeFrom id n ks).map fun r => (if free = 0 then k else { k with uses := k.uses ++ [(id, free)] }) :: r

/-- The chunks after an item of n bytes is allocated to a pass, from its chunk in use on; none when none has room. -/
def binTake (h : SlotHeap) (id : DescId) (n : Nat) : Option (List BinChunk) :=
  let i := chunkInUse h id
  (takeFrom id n (h.chunks.drop i)).map fun r => h.chunks.take i ++ r

/-- The register that holds the growth-request bit of slot c. -/
def binPendingReg (c : Nat) : Nat := Reg.heapBinPending (c / 32)

/-- Units that an item of n bytes needs: one chunk's header and the item (R227). -/
def binNeed (n : Nat) : Nat := ceilDiv (n + 64) 65536

/-- The growth request is raised, or raised again after a grant that was too small (R227, R229). -/
def binRequest (s : State) (c : Nat) (id : DescId) (n : Nat) : State :=
  let s := orReg s (binPendingReg c) (2 ^ (c % 32))
  let s := wrN s (Reg.heapBinReq c) (binNeed n % 2 ^ 16 + id.ring % 64 * 2 ^ 16)
  let s := wrN s (Reg.heapBinSeq c) id.seq
  let s := onHeap s c fun h => { h with want := some (id, n) }
  setEv s Reg.heapEvents 0

/-- The pending request ends. -/
def binClear (s : State) (c : Nat) : State :=
  onHeap (clrReg s (binPendingReg c) (2 ^ (c % 32))) c fun h => { h with want := none }

/-- A pass needs n bytes of bin heap: taken, or the pass waits (R227). The flag says whether they were taken. While another
pass's request is pending, an item that still fits the chunks is taken, and only one that does not waits behind it (DESIGN
CHOICE, log entry 76). -/
def binAlloc (s : State) (c : Nat) (id : DescId) (n : Nat) : State × Bool :=
  let h := slotHeap s c
  let waits := fun (h : SlotHeap) => { h with waiting := if h.waiting.contains id then h.waiting else h.waiting ++ [id] }
  let take := fun (ks : List BinChunk) (h : SlotHeap) =>
    { h with chunks := ks, waiting := h.waiting.filter fun w => decide (w ≠ id) }
  if h.want.isSome && h.waiting.contains id then (s, false)
  else
    match binTake h id n with
    | some ks => (onHeap s c (take ks), true)
    | none =>
      if h.want.isSome then (onHeap s c waits, false) else (binRequest (onHeap s c waits) c id n, false)

/-- A pass ends: its bytes return to its context's chunks, and it waits no more (R226). -/
def binReturn (s : State) (c : Nat) (id : DescId) : State :=
  let drop := fun (k : BinChunk) => { k with uses := k.uses.filter fun u => decide (u.1 ≠ id) }
  let s := onHeap s c fun h => { h with chunks := h.chunks.map drop, waiting := h.waiting.filter fun w => decide (w ≠ id) }
  match (slotHeap s c).want with
  | some (w, _) => if w = id then binClear s c else s
  | none => s

/-- The allocator discards a slot's heap reserve and its bin heap, and its registers return to their reset values
(R166, R214, R233). They do so too when CTX0_CTRL.LOAD reloads a LOST slot 0, which passes R166's step 4 and never becomes
FREE (DESIGN CHOICE, log entry 76). -/
def heapDiscard (s : State) (c : Nat) : State :=
  let s := metaTouch (binClear s c) (slotUnits (slotHeap s c))
  let s := onHeap s c fun _ => {}
  [Reg.heapVaBaseLo c, Reg.heapVaBaseHi c, Reg.heapBinReq c, Reg.heapBinSeq c, Reg.heapBadFrees c].foldl
    (fun s off => wrN s off 0) s

end Sys2Proof.Machine
end

