-- ==== Sys2Proof/Machine/Irq.lean ====
section
/-!
DEFINITION. Interrupts (spec/03_host_link.md R99 to R101): the causes of the 128 MSI-X vectors and the rule that
sends messages or holds them in the PBA. Every command that can set an event bit ends with irqSettle.
-/

namespace Sys2Proof.Machine

/-- Whether an event register has a bit set that its enable register allows. -/
def evAnd (s : State) (ev en : Nat) : Bool := decide (rd0 s ev &&& rd0 s en ≠ 0)

/-- The cause of vector v: the OR of its source's event bits ANDed with their enables (R99, R100). -/
def irqCause (s : State) (v : Nat) : Bool :=
  match v with
  | 64 => evAnd s Reg.hiuErr Reg.hiuErrEn
  | 65 => evAnd s Reg.cfeErr Reg.cfeErrEn
  | 66 => evAnd s Reg.ctxEvents Reg.ctxEventEn
  | 67 => evAnd s Reg.mmuEvents Reg.mmuEventEn
  | 68 => evAnd s Reg.heapEvents Reg.heapEventEn
  | 69 => evAnd s Reg.ltbEvents Reg.ltbEventEn
  | 70 => evAnd s Reg.dspEvents Reg.dspEventEn || evAnd s Reg.dspRaceEvents Reg.dspRaceEventEn
  | 71 => (List.range 4).any fun n => evAnd s (Reg.csiErr n) (Reg.csiErrEn n)
  | 72 => evAnd s Reg.cmpEvents Reg.cmpEventEn
  | 73 => evAnd s Reg.hltEvents Reg.hltEventEn
  | 74 => evAnd s Reg.hltTwinEvents Reg.hltTwinEventEn
  | 75 => evAnd s Reg.vzlEvents Reg.vzlEventEn
  | 76 => evAnd s Reg.pmuEvents Reg.pmuEventEn
  | 77 => evAnd s Reg.grmEvents Reg.grmEventEn
  | 78 => ((List.range 8).any fun b => decide (rd0 s (Reg.pinEdge b) ≠ 0)) ||
      evAnd s Reg.pinEvents Reg.pinEventEn
  | 79 => evAnd s Reg.l2cEvents Reg.l2cEventEn || evAnd s Reg.memEvents Reg.memEventEn ||
      (List.range 16).any fun c => evAnd s (Reg.sheetEvents c) (Reg.sheetEventEn c)
  | _ =>
    if v < 32 then bit (rd0 s Reg.cfeCqEvent0 &&& rd0 s Reg.cfeCqEventEn0) v
    else if v < 64 then bit (rd0 s Reg.cfeCqEvent1 &&& rd0 s Reg.cfeCqEventEn1) (v - 32)
    else bit s.hiu.swCause v

/-- Whether vector v is outstanding (HIU_IRQ_ACK). -/
def irqOutstanding (s : State) (v : Nat) : Bool := bit (rd0 s (Reg.hiuIrqAck (v / 32))) (v % 32)

/-- Dword k of the MSI-X table. -/
def msixWord (s : State) (k : Nat) : Word := storeGet msixDefault s.hiu.msix k

/-- Whether a message of vector v would be held (R100). -/
def irqMasked (s : State) (v : Nat) : Bool :=
  !s.hiu.msixEn || !s.hiu.busMasterEn || s.hiu.funcMask || bit (msixWord s (4 * v + 3)) 0

/-- Sends the message of vector v: the address and data of its table entry. -/
def irqSend (s : State) (v : Nat) : State :=
  let a : DWord := BitVec.ofNat 64 ((msixWord s (4 * v)).toNat + 2 ^ 32 * (msixWord s (4 * v + 1)).toNat)
  { s with hiu := { s.hiu with msgs := s.hiu.msgs ++ [(a, msixWord s (4 * v + 2))] } }

/-- A vector becomes outstanding. -/
def irqMark (s : State) (v : Nat) : State :=
  wr s (Reg.hiuIrqAck (v / 32)) (rd s (Reg.hiuIrqAck (v / 32)) ||| BitVec.ofNat 32 (2 ^ (v % 32)))

/-- A vector whose cause is 1 and that is not outstanding becomes outstanding, and its message is sent or held. A
SECONDARY out of OFF raises no completion vector (R536). -/
def irqRaise (s : State) (v : Nat) : State :=
  if irqCause s v && !irqOutstanding s v && !(decide (v < 64) && hostDropped s) then
    let s := irqMark s v
    if irqMasked s v then { s with hiu := { s.hiu with pba := s.hiu.pba ||| BitVec.ofNat 128 (2 ^ v) } }
    else irqSend s v
  else s

/-- A held message is sent once its vector is no longer masked (R100). -/
def irqRelease (s : State) (v : Nat) : State :=
  if bit s.hiu.pba v && !irqMasked s v then
    irqSend { s with hiu := { s.hiu with pba := s.hiu.pba &&& ~~~ (BitVec.ofNat 128 (2 ^ v)) } } v
  else s

/-- R100 for one vector. -/
def irqVector (s : State) (v : Nat) : State := irqRelease (irqRaise s v) v

/-- R100 for the 128 vectors, the last of the effects of R710. -/
def irqSettle (s : State) : State := (List.range 128).foldl irqVector s

/-- What no command of a unit reaches keeps its value: the queue of commands, the level of SYS_RST_N, and whose accesses
are being made between commands. Of the record of R21, what this command added stays. -/
def confine (s s' : State) : State :=
  { s' with pending := s.pending, pmu := { s'.pmu with sysRstN := s.pmu.sysRstN }, mem := { s'.mem with side := s.mem.side }
            cycleSets := s'.cycleSets.drop s.cycleSets.length }

/-- Whether the units of the FUNCTION scope run: they are out of reset, the device is in ACTIVE, and no trip has stopped
the core, fabric and pixel clocks (R34, R639, R652, R653). -/
def running (s : State) : Bool :=
  s.pmu.sysRstN && !s.pmu.inReset && !s.pmu.tripped && decide (fld (rd0 s Reg.pmuStatus) 0 2 = 0)

/-- Whether the groomer's domain runs, with the PMU in it: out of reset and not tripped, in ACTIVE and in STANDBY (R34,
R653; after a trip, log entry 6). -/
def grmRunning (s : State) : Bool := s.pmu.sysRstN && !s.pmu.inReset && !s.pmu.tripped

/-- Whether the HIU serves requests: SYS_RST_N is high and no trip has stopped its clock (R639, R652). -/
def hiuRunning (s : State) : Bool := s.pmu.sysRstN && !s.pmu.tripped

end Sys2Proof.Machine
end

