-- ==== Sys2Proof/Machine/CfeBase.lean ====
section
/-!
DEFINITION. The command front end's shared operations (spec/04_uhlulo_protocol.md, spec/05_contexts_and_objects.md
R164): ring counts, status ranks, loss of a context, cancellation, and the retirement of a descriptor.
-/

namespace Sys2Proof.Machine

/-! ### Rings -/

/-- RING_n_CFG.ENABLE. -/
def ringEnabled (s : State) (n : Nat) : Bool := bit (rd0 s (Reg.ringCfg n)) 0

/-- S of RING_n_CFG.SIZE_LOG2. -/
def ringLog2 (s : State) (n : Nat) : Nat := fld (rd0 s (Reg.ringCfg n)) 4 5

/-- a - b modulo 2^32, for ring counts (R110). -/
def cntSub (a b : Word) : Nat := (a - b).toNat

/-- What a ring pair holds beside its registers. -/
def ringSt (s : State) (n : Nat) : RingState := (s.cfe.rings[n]?).getD {}

/-- The state with ring n's part changed. -/
def onRing (s : State) (n : Nat) (f : RingState → RingState) : State :=
  { s with cfe := { s.cfe with rings := modAt s.cfe.rings n f } }

/-- Descriptors of ring n that are fetched and not retired. -/
def ringInflight (s : State) (n : Nat) : Nat := (s.cfe.descs.filter fun d => decide (d.id.ring = n)).length

/-- The slot that owns a ring pair (R147). -/
def ringOwner (s : State) (n : Nat) : Option Nat :=
  (List.range 128).find? fun c => decide ((ctxSlot s c).state ≠ .free) && bit (ctxSlot s c).image.rings n

/-- Whether an earlier SEQ of the stream has not retired (R130). -/
def earlierLive (s : State) (id : DescId) : Bool :=
  match s.cfe.descs.find? fun d => sameStream d.id id with
  | some d => decide (d.id ≠ id)
  | none => false

/-- Whether a descriptor's BARRIER applies: explicit, or implied by SIGNAL, TIMESTAMP or CHECKPOINT (R119). -/
def descBarrier (d : Desc) : Bool :=
  bit (descWord d 0) 10 || [2, 4, 5].contains (descOp d)

/-! ### Status -/

/-- Whether a held descriptor holds its stream: a WAIT not satisfied, or a BARRIER before which an earlier SEQ has not
retired (R130). -/
def holdsStream (s : State) (d : Desc) : Bool :=
  decide (d.stage = .held) && ((descIsWait d && d.satisfied.isNone) || (descBarrier d && earlierLive s d.id))

/-- The rank of a status code in R127; a lower rank wins. -/
def statusRank (st : Nat) : Nat :=
  match st with
  | 0x21 => 1 | 0x22 => 1 | 0x23 => 1 | 0x24 => 1
  | 0x20 => 2
  | 0xF0 => 3
  | 0x32 => 4
  | 0x33 => 5
  | 0x31 => 6
  | 0x30 => 7
  | 0x34 => 8
  | 0x10 => 9 | 0x11 => 9 | 0x12 => 9 | 0x13 => 9 | 0x14 => 9
  | 0x41 => 10
  | 0x40 => 11
  | 0x02 => 12
  | 0x01 => 13
  | _ => 14

/-- The status that R127 keeps of one noted before and a new one: within one rank the one that arose first. Of two that
arise in one cycle the one with the lower code, or the one that R335 chooses, is queued first (log entry 4). -/
def noteResult (old : Option Result) (r : Result) : Option Result :=
  match old with
  | none => some r
  | some o => if statusRank r.status < statusRank o.status then some r else some o

/-- The DETAIL of CONTEXT_LOST from a slot's loss record (R125). -/
def lossDetail (sl : Slot) : Nat := sl.lostStatus % 2 ^ 16 + sl.lostRing % 2 ^ 6 * 2 ^ 16 + sl.lostSeq % 2 ^ 32 * 2 ^ 32

/-- CONTEXT_LOST of a slot. -/
def lostResult (s : State) (c : Nat) : Result := { status := 0x20, detail := lossDetail (ctxSlot s c) }

/-- Whether a slot is treated as lost by every check (R143). -/
def slotLost (s : State) (c : Nat) : Bool :=
  decide ((ctxSlot s c).state = .lost) || decide ((ctxSlot s c).state = .tearingDown)

/-- A status condition is noted for a descriptor (R127). -/
def noteDesc (s : State) (id : DescId) (r : Result) : State :=
  onDesc s id fun d => { d with noted := noteResult d.noted r }

/-- A descriptor's status is decided, with the stamp of this cycle; one decided already keeps its stamp (R65, R123). -/
def decideDesc (s : State) (id : DescId) (r : Result) : State :=
  let now := ltNow s
  onDesc s id fun d =>
    { d with noted := noteResult d.noted r, stage := .decided, waitEntry := false
             stamp := if d.stage = .decided then d.stamp else now }

/-- A unit reports a descriptor's completion, with the DETAIL that OK would carry (R65, R126). -/
def unitDone (s : State) (id : DescId) (detail : Nat) : State :=
  let now := ltNow s
  onDesc s id fun d => { d with okDetail := detail, stage := .decided, stamp := now }

/-- A unit reports a completion that no cancellation order changes any more (R714). -/
def unitDoneFinal (s : State) (id : DescId) (r : Result) : State :=
  decideDesc (onDesc s id fun d => { d with cancel := none }) id r

/-! ### Loss of a context -/

/-- The LOSS record of a slot (R542, R559). -/
def lossRecord (c status ring seq : Nat) : TwinRec :=
  [recW0 9 0 (c % 128), BitVec.ofNat 64 (status % 2 ^ 16 + ring % 2 ^ 6 * 2 ^ 16 + seq % 2 ^ 32 * 2 ^ 32)]

/-- Whether a slot owns a twin ring. -/
def ownsTwinRing (s : State) (c : Nat) : Bool :=
  decide ((ctxSlot s c).image.rings.toNat &&& rd64 s Reg.hltTwinRingsLo ≠ 0)

/-- The loss of a slot (R164): its loss record, CTX_EVENTS.LOST, the release of its pending waits, the cancellation
of its dispatched work and the poison walk. A slot that is not LOADED is left as it is (R167). -/
def contextLoss (s : State) (c status ring seq : Nat) (mirror : Bool) : State :=
  if (ctxSlot s c).state ≠ .loaded then s
  else
    let s := onSlot s c fun sl =>
      { sl with state := .lost, lostStatus := status, lostRing := ring, lostSeq := seq
                walk := if c = 0 ∨ sl.image.sigLast < sl.image.sigFirst then none else some sl.image.sigFirst }
    let s := binClear (setEv s Reg.ctxEvents 0) c
    let r := lostResult s c
    let now := ltNow s
    let waiting := (s.cfe.descs.filter fun d => d.waitEntry && decide (d.ctx = some c)).map descObj
    let s := mapDescs s fun d =>
      if d.ctx = some c then
        match d.stage with
        | .held => { d with noted := noteResult d.noted r, stage := .decided, stamp := now, waitEntry := false }
        | .dispatched => { d with cancel := some .contextLost }
        | .decided => d
      else d
    let s := grantWaitEntries (waiting.foldl syncWaiters s)
    if mirror && twinLinked s && ownsTwinRing s c then sendCtrl s (lossRecord c status ring seq) else s

/-! ### Records -/

/-- C0 of a completion record (R122). -/
def recordC0 (d : Desc) (status phase : Nat) : Nat :=
  status % 2 ^ 16 + descOp d * 2 ^ 16 + phase % 2 * 2 ^ 24 + b2n (bit (descWord d 0) 8) * 2 ^ 25 + d.id.seq % 2 ^ 32 * 2 ^ 32

/-- Writes bytes of a record to the completion ring's space: device memory through the L2, or host memory (R109). -/
def cqWrite (s : State) (ring addr : Nat) (bs : List Byte) : State :=
  if bit (rd0 s (Reg.ringCfg ring)) 10 then hostWrite s addr (bs.map some)
  else l2WriteN s addr (bs.map some)

/-- The completion record of a descriptor (R122 to R124): C1 to C3 first, then C0 with its PHASE bit. -/
def writeRecord (s : State) (d : Desc) (r : Result) (stamp : Nat) : State :=
  let n := d.id.ring
  let tail := rdN s (Reg.ringCqTail n)
  let sz := ringLog2 s n
  let a := rd64 s (Reg.ringCqBaseLo n) + 32 * (tail % 2 ^ sz)
  let phase := 1 - nfld tail sz 1
  let g := if bit (descWord d 0) 8 then d.gate else 0
  let s := cqWrite s n (a + 8) (leBytes g 8 ++ leBytes stamp 8 ++ leBytes r.detail 8)
  cqWrite s n a (leBytes (recordC0 d r.status phase) 8)

/-- The completion event of a ring (R138). -/
def completionEvent (s : State) (d : Desc) (r : Result) (wrote : Bool) : State :=
  let n := d.id.ring
  let cfg := rd0 s (Reg.ringCfg n)
  let thr := fld cfg 16 16
  let held := cntSub (rd s (Reg.ringCqTail n)) (rd s (Reg.ringCqHead n))
  if wrote && (bit (descWord d 0) 12 || (decide (r.status ≠ 0) && bit cfg 11) || (decide (thr ≠ 0) && decide (thr ≤ held))) then
    setEv s (if n < 32 then Reg.cfeCqEvent0 else Reg.cfeCqEvent1) (n % 32)
  else s

/-- FAULT_, CONTEXT_LOST and DEVICE_DRAINING: no header signal is given, the named objects are poisoned (R133). -/
def statusPoisons (st : Nat) : Bool := [0x20, 0x21, 0x22, 0x23, 0x24, 0xF0].contains st

/-- The header signal, performed for every status that does not poison, or the poisoning of the objects that a failed
descriptor names (R132, R133, R149, R159). -/
def headerSignal (s : State) (d : Desc) (r : Result) : State :=
  match d.ctx with
  | none => s
  | some c =>
    let en := bit (descWord d 0) 13
    let obj := fld (descWord d 0) 40 16
    let tw := twinRing s d.id.ring && decide (twinState s ≠ 0)
    if statusPoisons r.status then
      let s := if en then poisonObj s obj c tw else s
      if descOp d = 2 then poisonObj s (descObj d) c tw else s
    else if en then
      let (s, _, bad) := signalObj s obj (descWord d 1).toNat c tw
      if bad then contextLoss s c 0x21 d.id.ring d.id.seq true else s
    else s

/-- The drain is done once no descriptor remains (R607). -/
def drainCheck (s : State) : State :=
  if draining s && !bit (rd0 s Reg.hltStatus) 1 && s.cfe.descs.isEmpty then
    drainFinish (setEv (orReg s Reg.hltStatus 2) Reg.hltEvents 4)
  else s

/-- The status that a descriptor finally carries (R127): what was noted, its cancellation, a missed gate, or OK. -/
def finalResult (s : State) (d : Desc) : Result :=
  let r := match d.cancel, d.ctx with
    | some .contextLost, some c => noteResult d.noted (lostResult s c)
    | some .draining, _ => noteResult d.noted { status := 0xF0, detail := 1 }
    | _, _ => d.noted
  let late := bit (descWord d 0) 8 && ltGe d.stamp d.gate
  let r := if late then noteResult r { status := 1, detail := d.okDetail } else r
  match r with
  | some x => if x.status = 1 then { x with detail := d.okDetail } else x
  | none => { status := 0, detail := d.okDetail }

/-- Removes a descriptor from flight. -/
def dropDesc (s : State) (id : DescId) : State :=
  { s with cfe := { s.cfe with descs := s.cfe.descs.filter fun d => decide (d.id ≠ id) } }

/-- The state without the exchange of a ring's CHECKPOINT. -/
def dropExchange (s : State) (ring : Nat) : State :=
  { s with twin := { s.twin with exchanges := s.twin.exchanges.filter fun x => decide (x.id.ring ≠ ring) } }

/-- The repeat of a descriptor ends (R547): no record and no signal; a fault loses the context, and the CHECKPOINT
that waits takes it as its status. -/
def retireRepeat (s : State) (d : Desc) (r : Result) : State :=
  let n := d.id.ring
  if [0x21, 0x22, 0x23, 0x24].contains r.status then
    let s := match d.ctx with
      | some c => contextLoss s c r.status n d.id.seq true
      | none => s
    let cp := s.cfe.descs.find? fun e => decide (e.id.ring = n) && decide (descOp e = 5) && decide (e.stage = .dispatched)
    let s := match cp with
      | some e => decideDesc s e.id r
      | none => s
    dropExchange (dropDesc s d.id) n
  else dropDesc s d.id

/-- Retirement (R132): the header signal, the record unless QUIET and OK, CQ_TAIL, the interrupt condition.
A FAULT_ status loses the context (R164). On a SECONDARY out of OFF no record is written (R536). -/
def retireWith (s : State) (d : Desc) (r : Result) (stamp : Nat) : State :=
  if d.rep then retireRepeat s d r else
  let s := match d.ctx with
    | some c => if [0x21, 0x22, 0x23, 0x24].contains r.status then contextLoss s c r.status d.id.ring d.id.seq true else s
    | none => s
  let s := headerSignal s d r
  let quiet := bit (descWord d 0) 11 || decide (descOp d = 0x1F)
  let silent := (quiet && decide (r.status = 0)) || hostDropped s
  let s := if silent then s else
    let s := writeRecord s d r stamp
    wr s (Reg.ringCqTail d.id.ring) (rd s (Reg.ringCqTail d.id.ring) + 1)
  drainCheck (dropDesc (completionEvent s d r (!silent)) d.id)

/-- A device release on every core that ran a descriptor (R134, R193). -/
def releaseCores (s : State) (d : Desc) : State := d.cores.foldl l1Release s

/-- Retirement of a decided descriptor. -/
def retireDesc (s : State) (id : DescId) : State :=
  match findDesc s id with
  | some d =>
    let s := releaseCores s d
    retireWith s d (finalResult s d) d.stamp
  | none => s

/-- A descriptor whose status the CFE decides retires in the same cycle (R132). -/
def retireNow (s : State) (id : DescId) (r : Result) : State := retireDesc (decideDesc s id r) id

/-! ### CFE register readings -/

/-- A CHAIN of ring n that has passed its check and whose chain has not begun (R135). -/
def pendingChain (s : State) (n : Nat) : Option Desc :=
  if (ringSt s n).chain.isSome then none
  else s.cfe.descs.find? fun d => decide (d.id.ring = n) && decide (d.id.stream = (ringSt s n).stream) &&
    decide (descOp d = 0x1F) && decide (d.stage = .dispatched)

/-- Whether ring n is fetching a chain, or has one to begin. -/
def chainGoing (s : State) (n : Nat) : Bool := (ringSt s n).chain.isSome || (pendingChain s n).isSome

/-- Whether a context operation is an update of a slot that owns ring n. -/
def jobHolds (s : State) (n : Nat) (j : Option CtxJob) : Bool :=
  match j with
  | some (.update t _ _) => bit (ctxSlot s t).image.rings n
  | _ => false

/-- Whether an update of the ring's owner waits for its rings (R163). -/
def ringUpdating (s : State) (n : Nat) : Bool := jobHolds s n s.ctx.job || jobHolds s n s.ctx.job0

/-- RING_n_STATE (R142). -/
def ringStateWord (s : State) (n : Nat) : Nat :=
  let inf := ringInflight s n
  let ds := s.cfe.descs.filter fun d => decide (d.id.ring = n)
  let lim := max 1 (rdF s (Reg.ringLimit n) 0 10)
  let visible := decide (0 < cntSub (rd s (Reg.ringSqTail n)) (rd s (Reg.ringSqHead n))) || chainGoing s n
  let cqFull := decide (2 ^ ringLog2 s n ≤ cntSub (rd s (Reg.ringCqTail n)) (rd s (Reg.ringCqHead n)) + inf)
  let updating := ringUpdating s n
  let pairing := decide (twinState s = 1) && twinRing s n
  let holder := ds.find? (holdsStream s)
  inf % 2 ^ 16 * 2 ^ 16 +
    b2n (!ringEnabled s n && decide (inf = 0)) * 64 +
    b2n (chainGoing s n) * 32 +
    b2n (ds.any fun d => descIsWait d && d.evaluated && d.satisfied.isNone && !d.waitEntry && decide (d.stage = .held)) * 16 +
    b2n (match holder with | some d => descBarrier d && earlierLive s d.id | none => false) * 8 +
    b2n (match holder with | some d => descIsWait d && d.satisfied.isNone | none => false) * 4 +
    b2n (ringEnabled s n && visible && cqFull) * 2 +
    b2n ((ringEnabled s n && visible && (decide (lim ≤ inf) || decide (2048 ≤ s.cfe.descs.length))) || updating || pairing)

/-- CFE registers whose value is live state: until READY they hold the Reset column's values (R24, log entry 7). -/
def cfeRead (s : State) (off : Nat) : Option Word :=
  if !ready s then none
  else if off = Reg.cfeStatus then
    let unprocessed := (List.range 64).any fun n => ringEnabled s n &&
      (decide (0 < cntSub (rd s (Reg.ringSqTail n)) (rd s (Reg.ringSqHead n))) || chainGoing s n)
    some (BitVec.ofNat 32 (b2n (s.cfe.descs.isEmpty && !unprocessed) + 2 * b2n (draining s)))
  else if off = Reg.cfeInflight then some (BitVec.ofNat 32 s.cfe.descs.length)
  else if Reg.ringState 0 ≤ off ∧ off < Reg.ringState 64 ∧ (off - Reg.ringState 0) % 0x40 = 0 then
    some (BitVec.ofNat 32 (ringStateWord s ((off - Reg.ringState 0) / 0x40)))
  else none

end Sys2Proof.Machine
end

