-- ==== Sys2Proof/Machine/Hiu.lean ====
section
/-!
DEFINITION. The host interface unit (spec/03_host_link.md): configuration space, the posted buffer, BAR4 accesses
with their mirror records, doorbells, software vectors and acknowledgements.
-/

namespace Sys2Proof.Machine

/-- The state with its host interface changed. -/
def onHiu (s : State) (f : Hiu → Hiu) : State := { s with hiu := f s.hiu }

/-- What a host or SPI read, or a configuration request, is answered. -/
def answer (s : State) (r : HostReply) : State := onHiu s fun h => { h with reply := r }

/-- HIU_BAR4_BASE with the bits below the size in effect ignored (R89). -/
def bar4Base (s : State) : Nat := rd64 s Reg.hiuBar4BaseLo / 2 ^ s.hiu.bar4Log2 * 2 ^ s.hiu.bar4Log2

/-! ### Credits (R94, R95) -/

/-- Credits: headers and data of posted requests, headers and data of non-posted ones; a data credit is 16 bytes. -/
structure Credits where
  ph : Nat := 0
  pd : Nat := 0
  nh : Nat := 0
  nd : Nat := 0
deriving DecidableEq, Repr

/-- The sum of two credit counts. -/
def Credits.add (a b : Credits) : Credits := { ph := a.ph + b.ph, pd := a.pd + b.pd, nh := a.nh + b.nh, nd := a.nd + b.nd }

/-- The bytes of a write TLP's payload: its dwords whole. -/
def payloadBytes (i : Instr) : Nat :=
  match i with
  | .registerWrite _ dws _ => 4 * dws.length
  | .sqDoorbell _ _ dws => 4 * dws.length
  | .bar4Write off bytes => (off.toNat % 4 + bytes.length + 3) / 4 * 4
  | _ => 4

/-- The credits that a host request takes: one header, and a write's data. -/
def requestCredits (i : Instr) : Credits :=
  match i with
  | .pairLowRead _ _ | .pairHighRead _ _ | .notReadyRead _ _ | .bar4Read _ _ => { nh := 1 }
  | .configurationRequest (.readHeader _) | .configurationRequest (.readCap _) => { nh := 1 }
  | .configurationRequest _ | .resizableBar _ | .msixUnmask .function | .msixUnmask .enables => { nh := 1, nd := 1 }
  | i => { ph := 1, pd := ceilDiv (payloadBytes i) 16 }

/-- The credits that the HIU advertises at first: its buffers of 24 KiB and of 64 requests (R94). -/
def initialCredits : Credits := { ph := 96, pd := 1536, nh := 64, nd := 4 }

/-- The credits that the requests in the buffers hold. -/
def creditsUsed (s : State) : Credits := (s.hiu.posted.map fun r => requestCredits r.1).foldl Credits.add {}

/-- Whether the host has the credits to send a request. -/
def creditsFor (s : State) (i : Instr) : Bool :=
  let c := (creditsUsed s).add (requestCredits i)
  decide (c.ph ≤ initialCredits.ph) && decide (c.pd ≤ initialCredits.pd) && decide (c.nh ≤ initialCredits.nh) &&
    decide (c.nd ≤ initialCredits.nd)

/-- A request that cannot act yet: it is received into the buffer, with the BAR4 base of its receipt (R90), or the host
holds it back for want of credits, behind those that it already holds back (R95, log entry 70). -/
def holdRequest (base : Nat) (i : Instr) (s : State) : State :=
  if s.hiu.unsent.isEmpty && creditsFor s i then onHiu s fun h => { h with posted := h.posted ++ [(i, base)] }
  else onHiu s fun h => { h with unsent := h.unsent ++ [i] }

/-- Max Payload Size in effect, in bytes (R85). -/
def maxPayload (s : State) : Nat := 128 * 2 ^ s.hiu.mps.val

/-- An uncorrectable error of AER: the first one fills the first-error pointer, and its header the log if it has one. -/
def aerError (s : State) (b : BitVec 5) (hdr : Option (BitVec 128)) : State :=
  onHiu s fun h =>
    if h.aerPoisoned || h.aerCplTimeout || h.aerMalformed then h
    else { h with aerFirst := b, aerHdr := hdr.getD h.aerHdr }

/-- A write TLP is accepted up to Max Payload Size (R93); a longer one is a malformed TLP (log entry 24). -/
def ifPayloadFits (i : Instr) (f : State → State) (s : State) : State :=
  if payloadBytes i ≤ maxPayload s then f s
  else onHiu (aerError s 18 none) fun h => { h with aerMalformed := true }

/-! ### Configuration space (R85 to R88) -/

/-- Size of BAR i: 0 BAR0, 1 BAR2, 2 BAR4 with the size in effect (R87, R88). -/
def barLog2 (s : State) (i : Nat) : Nat := if i = 0 then 25 else if i = 1 then 18 else s.hiu.bar4Log2

/-- A BAR value with the bits below its size cleared. DESIGN CHOICE, unsafe (log entry 71): the size is the one in effect,
not one that Resizable BAR control holds for the next set of Memory Space Enable. -/
def barMask (s : State) (i : Nat) (v : DWord) : DWord := BitVec.ofNat 64 (v.toNat / 2 ^ barLog2 s i * 2 ^ barLog2 s i)

/-- The stored value of BAR i. -/
def barValue (s : State) (i : Nat) : Nat :=
  (if i = 0 then s.hiu.bar0 else if i = 1 then s.hiu.bar2 else s.hiu.bar4).toNat

/-- Dword dw of the configuration header (R86, R87); the low nibble of a BAR says 64-bit, and prefetchable for BAR4. -/
def cfgHeader (s : State) (dw : Nat) : Nat :=
  match dw with
  | 0 => 0x0064E6C4
  | 1 => b2n s.hiu.memSpaceEn * 2 + b2n s.hiu.busMasterEn * 4 + 2 ^ 20
  | 2 => 0x03800011
  | 4 => barValue s 0 % 2 ^ 32 + 4
  | 5 => barValue s 0 / 2 ^ 32
  | 6 => barValue s 1 % 2 ^ 32 + 4
  | 7 => barValue s 1 / 2 ^ 32
  | 8 => barValue s 2 % 2 ^ 32 + 12
  | 9 => barValue s 2 / 2 ^ 32
  | 11 => s.hiu.subVendor.toNat + 2 ^ 16 * s.hiu.subId.toNat
  | 13 => (Config.capPointer 0).toNat
  | _ => 0

/-- A dword of a capability. PRESUMED (log entry 24): the places of its fields are those of the PCI Express Base
Specification; a capability's pointer to the next one is open. -/
def cfgCap (s : State) (c : CfgCap) : Nat :=
  let h := s.hiu
  match c with
  | .deviceCap => 2 + 2 ^ 5 + 2 ^ 15 + 2 ^ 28
  | .deviceControl => h.mps.val * 2 ^ 5 + h.mrrs.val * 2 ^ 12
  | .linkCap => 4 + 8 * 2 ^ 4 + 2 * 2 ^ 10
  | .linkControl =>
    2 * b2n h.aspmL1 + fld (rd0 s Reg.hiuStatus) 4 4 * 2 ^ 16 + fld (rd0 s Reg.hiuStatus) 8 4 * 2 ^ 20
  | .deviceCap2 => 2 ^ 16 + 2 ^ 17
  | .deviceControl2 => b2n h.tag10 * 2 ^ 12
  | .pmCap => 1 + (Config.capPointer 1).toNat * 2 ^ 8 + 3 * 2 ^ 16 + 2 ^ 30
  | .pmControl => 3 * b2n h.d3hot + b2n h.pmeEn * 2 ^ 8 + b2n h.pmeStatus * 2 ^ 15
  | .msixControl => 0x11 + (Config.capPointer 2).toNat * 2 ^ 8 + 127 * 2 ^ 16 + b2n h.funcMask * 2 ^ 30 + b2n h.msixEn * 2 ^ 31
  | .msixTable => 0x8000
  | .msixPba => 0x9000
  | .aerStatus => b2n h.aerPoisoned * 2 ^ 12 + b2n h.aerCplTimeout * 2 ^ 14 + b2n h.aerMalformed * 2 ^ 18
  | .aerControl => h.aerFirst.toNat + 2 ^ 5 + b2n h.ecrcGen * 2 ^ 6 + 2 ^ 7 + b2n h.ecrcCheck * 2 ^ 8
  | .aerHeader i => h.aerHdr.toNat / 2 ^ (32 * i.val)
  | .serial hi => if hi then h.serial.toNat / 2 ^ 32 else h.serial.toNat
  | .rbarCap => 0x1F * 2 ^ 12
  | .rbarControl => 4 + 2 ^ 5 + (h.rbarLog2 - 20) * 2 ^ 8

/-- A write of Memory Space Enable: the stored Resizable BAR value takes effect when it is set (R88). -/
def cfgMemSpace (h : Hiu) (on : Bool) : Hiu :=
  if on && !h.memSpaceEn then { h with memSpaceEn := true, bar4Log2 := h.rbarLog2 } else { h with memSpaceEn := on }

/-- A configuration request that completes normally. -/
def cfgApply (s : State) (r : CfgReq) : State :=
  match r with
  | .readHeader dw => answer s (.data (BitVec.ofNat 32 (cfgHeader s dw.val)))
  | .readCap c => answer s (.data (BitVec.ofNat 32 (cfgCap s c)))
  | .command m b => onHiu s fun h => { cfgMemSpace h m with busMasterEn := b }
  | .msixControl e f => onHiu s fun h => { h with msixEn := e, funcMask := f }
  | .devControl mps mrrs =>
    onHiu s fun h =>
      { h with mps := ⟨min mps.val 2, by omega⟩, mrrs := ⟨min mrrs.val 5, by omega⟩ }
  | .devControl2 t => onHiu s fun h => { h with tag10 := t }
  | .linkControl a => onHiu s fun h => { h with aspmL1 := a }
  | .aerClear v => onHiu s fun h =>
      { h with aerPoisoned := h.aerPoisoned && !bit v 12, aerCplTimeout := h.aerCplTimeout && !bit v 14
               aerMalformed := h.aerMalformed && !bit v 18 }
  | .aerEcrc g c => onHiu s fun h => { h with ecrcGen := g, ecrcCheck := c }
  | .pmControl d e c =>
    onHiu s fun h => { h with d3hot := d, pmeEn := e, pmeStatus := h.pmeStatus && !c }
  | .bar i v =>
    let v := barMask s i.val v
    onHiu s fun h => if i.val = 0 then { h with bar0 := v } else if i.val = 1 then { h with bar2 := v } else { h with bar4 := v }

/-- Whether configuration requests complete with Retry Status (R106, R108). -/
def cfgRetry (s : State) : Bool := !s.hiu.cfgEnabled || s.hiu.flr

/-- A configuration request (R106, R108). -/
def cfgRequest (s : State) (r : CfgReq) : State := if cfgRetry s then answer s .cfgRetry else cfgApply s r

/-- The effect of RESIZABLE_BAR. -/
def resizableBarEffect (s : State) (log2 : Fin 64) : State :=
  if cfgRetry s then answer s .cfgRetry
    else if 28 ≤ log2.val ∧ log2.val ≤ 32 then onHiu s fun h => { h with rbarLog2 := log2.val } else s

/-- The removal of a mask of R100. -/
def msixUnmask (s : State) (w : MsixUnmask) : State :=
  match w with
  | .vector v =>
    let k := 4 * v.val + 3
    onHiu s fun h => { h with msix := storePut msixDefault h.msix k (storeGet msixDefault h.msix k &&& ~~~ 1) }
  | .function => onHiu s fun h => { h with funcMask := false }
  | .enables => onHiu s fun h => { h with msixEn := true, busMasterEn := true }

/-- The effect of MSIX_UNMASK: a write of the table, or of configuration space (R108). -/
def msixUnmaskEffect (s : State) (w : MsixUnmask) : State :=
  match w with
  | .vector v => msixUnmask s (.vector v)
  | w => if cfgRetry s then answer s .cfgRetry else msixUnmask s w

/-! ### Registers of the HIU -/

/-- A write of HIU_IRQ_ACK_k: outstanding bits clear, and so do the causes of software vectors (R100, R102). -/
def irqAck (s : State) (k : Nat) (v : Word) : State :=
  let s := wr s (Reg.hiuIrqAck k) (rd s (Reg.hiuIrqAck k) &&& ~~~ v)
  onHiu s fun h => { h with swCause := h.swCause &&& ~~~ (BitVec.ofNat 128 (v.toNat * 2 ^ (32 * k))) }

/-- A write of HIU_SWINT sets the cause of vectors 80 to 127 (R102). -/
def swInt (s : State) (v : Word) : State :=
  let n := fld v 0 7
  if 80 ≤ n then onHiu s fun h => { h with swCause := h.swCause ||| BitVec.ofNat 128 (2 ^ n) } else s

/-- A poisoned write of a BAR (R85, R103). -/
def poisonedWrite (s : State) (space off be : Nat) (hdr : BitVec 128) : State :=
  hiuErr (onHiu (aerError s 12 (some hdr)) fun h => { h with aerPoisoned := true }) 3 off be space

/-! ### BAR4 (R89 to R93) -/

/-- The device physical address of a BAR4 offset under a base (R89). -/
def bar4Addr (s : State) (base off : Nat) : Nat := base + off % 2 ^ s.hiu.bar4Log2

/-- A dword of a write: its PA, byte enables and data. -/
structure WriteDword where
  pa : Nat
  be : Nat
  data : Nat
deriving DecidableEq, Repr

/-- The aligned dwords of a write at a PA, those without an enabled byte left out. -/
def writeDwords (pa : Nat) (bytes : List (Option Byte)) : List WriteDword :=
  let at' := fun (a : Nat) => if a < pa then none else (bytes[a - pa]?).getD none
  let one := fun (w : Nat) =>
    let bs := (List.range 4).map fun i => at' (4 * w + i)
    ({ pa := 4 * w, be := (bs.zipIdx.foldl (fun a p => if p.1.isSome then a + 2 ^ p.2 else a) 0)
       data := leValue (bs.map fun b => b.getD 0) } : WriteDword)
  ((List.range ((pa + bytes.length + 3) / 4 - pa / 4)).map fun i => one (pa / 4 + i)).filter fun d => decide (d.be ≠ 0)

/-- Groups dwords into runs that one WRITE record can carry: at most 128, contiguous, all byte enables set but in
the first and last (R559). -/
def writeRuns : List WriteDword → List (List WriteDword)
  | [] => []
  | d :: ds =>
    match writeRuns ds with
    | (e :: es) :: rest =>
      if e.pa = d.pa + 4 ∧ es.length < 127 ∧ (e.be = 15 ∨ es = []) then (d :: e :: es) :: rest
      else [d] :: (e :: es) :: rest
    | _ => [[d]]

/-- Pairs of dwords as 64-bit words, the last padded with 0. -/
def pairWords : List Nat → List DWord
  | [] => []
  | [a] => [BitVec.ofNat 64 a]
  | a :: b :: r => BitVec.ofNat 64 (a + 2 ^ 32 * b) :: pairWords r

/-- The WRITE record of a run (R559). -/
def writeRec (run : List WriteDword) : TwinRec :=
  match run with
  | [] => []
  | d :: _ =>
    let last := (run.getLast?).getD d
    [recW0 3 0 ((run.length - 1) % 128), BitVec.ofNat 64 (d.pa % 2 ^ 48 + d.be * 2 ^ 48 + (if run.length = 1 then 0 else last.be) * 2 ^ 52)] ++
      pairWords (run.map WriteDword.data)

/-- The mirror window (HLT_MIRROR_BASE, HLT_MIRROR_LIMIT). -/
def inMirror (s : State) (pa : Nat) : Bool :=
  decide (rd64 s Reg.hltMirrorBaseLo ≤ pa) && decide (pa < rd64 s Reg.hltMirrorLimitLo)

/-- The WRITE records of a BAR4 write: the part inside the mirror window and usable DRAM (R537). -/
def mirrorWrites (s : State) (pa : Nat) (bytes : List (Option Byte)) : List TwinRec :=
  if mirroring s then (writeRuns ((writeDwords pa bytes).filter fun d => inMirror s d.pa)).map writeRec else []

/-- Whether a BAR4 write's records fit in the data queue now (R540). -/
def bar4Fits (s : State) (base off : Nat) (bytes : List (Option Byte)) : Bool :=
  let rs := mirrorWrites s (bar4Addr s base off) bytes
  rs.isEmpty || mirrorFits s ((rs.map fun r => 8 * r.length).foldl (· + ·) 0)

/-- The count and event of a discarded host write (R536). -/
def hostDrop (s : State) : State := setEv (satInc s Reg.hltHostDrops 1) Reg.hltTwinEvents 9

/-- A BAR4 write under a base (R89, R93, R103, R536, R537). -/
def bar4Write (s : State) (base off : Nat) (bytes : List (Option Byte)) : State :=
  if !ready s then hiuErr s 6 off (firstBe off bytes) 2
  else if hostDropped s then hostDrop s
  else
    let pa := bar4Addr s base off
    let s := (mirrorWrites s pa bytes).foldl sendData s
    let s := l2WriteN s pa (bytes.take (usable s - pa))
    if usable s < pa + bytes.length then hiuErr s 2 off (firstBe off bytes) 2 else s

/-- The bytes of a BAR4 read under a base: 0 before READY and beyond usable DRAM; be holds the first dword's byte enables
(R93, R103, R203). -/
def bar4Fetch (s : State) (base off n be : Nat) : State × List Byte :=
  if !ready s then (hiuErr s 6 off be 2, List.replicate n 0)
  else
    let pa := bar4Addr s base off
    let k := min n (usable s - pa)
    let (s, bs, _) := l2ReadN s pa k
    (if k < n then hiuErr s 2 off be 2 else s, bs ++ List.replicate (n - k) 0)

/-- A BAR4 read of n bytes. -/
def bar4Read (s : State) (base off n : Nat) : State :=
  let r := bar4Fetch s base off n (firstDwBe off n)
  answer r.1 (.bytes r.2)

/-! ### Doorbell pages (R92, R114 to R117) -/

/-- A discarded doorbell or release: the flag and the capture (R117). -/
def doorbellErr (s : State) (b kind ring : Nat) (v : Word) : State :=
  captureErr s Reg.cfeErr b fun s =>
    wrN s Reg.cfeErrCapture (v.toNat % 2 ^ 16 * 2 ^ 16 + kind % 4 * 2 ^ 8 + ring % 64)

/-- The checks before a doorbell write reaches its ring: liveness, the secondary's drop, the width, the enable. -/
def doorbellGate (s : State) (ring off be kind : Nat) (v : Word) (f : State → State) : State :=
  let o := ring * 0x1000 + off
  if !ready s then hiuErr s 6 o be 1
  else if hostDropped s then hostDrop s
  else if be ≠ 15 then hiuErr s 1 o be 1
  else if !ringEnabled s ring then doorbellErr s 0 kind ring v
  else f s

/-- An SQ doorbell (R115); the frame of its acceptance is F_ref of R63. -/
def sqDoorbell (s : State) (ring be : Nat) (v : Word) : State :=
  doorbellGate s ring 0 be 0 v fun s =>
    let t := rd s (Reg.ringSqTail ring)
    let h := rd s (Reg.ringSqHead ring)
    if v = t then s
    else if cntSub v t + cntSub t h ≤ 2 ^ ringLog2 s ring then
      let f := ltFrameOf (ltNow s)
      onRing (wr s (Reg.ringSqTail ring) v) ring fun r => { r with bells := r.bells ++ [(v.toNat, f)] }
    else doorbellErr s 1 0 ring v

/-- A CQ release (R116). -/
def cqRelease (s : State) (ring be : Nat) (v : Word) : State :=
  doorbellGate s ring 4 be 1 v fun s =>
    let h := rd s (Reg.ringCqHead ring)
    if cntSub v h ≤ cntSub (rd s (Reg.ringCqTail ring)) h then wr s (Reg.ringCqHead ring) v
    else doorbellErr s 1 1 ring v

/-- A dword of a write to a doorbell page: an SQ doorbell, a CQ release, or an offset that ignores 32-bit writes (R92,
R103, R114, R536). -/
def pageWrite (s : State) (ring dw be : Nat) (v : Word) : State :=
  match dw with
  | 0 => sqDoorbell s ring be v
  | 1 => cqRelease s ring be v
  | _ =>
    let o := ring * 0x1000 + 4 * dw
    if !ready s then hiuErr s 6 o be 1
    else if hostDropped s then hostDrop s
    else if be ≠ 15 then hiuErr s 1 o be 1
    else s

/-- A write TLP to a doorbell page: its dwords one after another (R92). -/
def pageWrites (s : State) (ring dw : Nat) : List (BitVec 4 × Word) → State
  | [] => s
  | d :: ds => pageWrites (pageWrite s ring dw d.1.toNat d.2) ring (dw + 1) ds

/-- A read of a doorbell page (R114). -/
def bar2Read (s : State) (off : Nat) : Word :=
  let ring := off / 0x1000 % 64
  match off % 0x1000 with
  | 0 => rd s (Reg.ringSqHead ring)
  | 4 => rd s (Reg.ringCqTail ring)
  | _ => 0

/-! ### Enabling and disabling a ring (R139, R140) -/

/-- A device-space ring at a base with some bytes lies in usable DRAM. -/
def ringFits (s : State) (host : Bool) (base bytes : Nat) : Bool := host || decide (base + bytes ≤ usable s)

/-- Whether an enable with the given RING_n_CFG value passes R139. -/
def ringConfigOk (s : State) (n : Nat) (v : Word) : Bool :=
  let sz := fld v 4 5
  decide (6 ≤ sz) && decide (sz ≤ 16) &&
    ringFits s (bit v 9) (rd64 s (Reg.ringSqBaseLo n)) (64 * 2 ^ sz) &&
    ringFits s (bit v 10) (rd64 s (Reg.ringCqBaseLo n)) (32 * 2 ^ sz)

/-- The segment accumulators and checkpoint count of a ring start anew (R535). -/
def segmentReset (s : State) (n : Nat) : State :=
  { s with hlt := { s.hlt with seg := setAt s.hlt.seg n {} } }

/-- A successful enable: counts and SEQ are 0 (R110, R139). -/
def ringStart (s : State) (n : Nat) (v : Word) : State :=
  let s := wr s (Reg.ringCfg n) v
  let s := wrN (wrN (wrN (wrN (wrN s (Reg.ringSqTail n) 0) (Reg.ringSqHead n) 0) (Reg.ringCqTail n) 0) (Reg.ringCqHead n) 0)
    (Reg.ringSeq n) 0
  segmentReset (onRing s n fun r => { stream := r.stream + 1 }) n

/-- A ring's chain ends, begun or not: its CHAIN retires (R135, R140). -/
def endChain (s : State) (n : Nat) : State :=
  let cs := s.cfe.descs.filter fun d => decide (d.id.ring = n) && decide (descOp d = 0x1F) && decide (d.stage = .dispatched)
  cs.foldl (fun s d => retireNow s d.id { status := 0 }) (onRing s n fun r => { r with chain := none })

/-- A write of RING_n_CFG (R139, R140, R142): while ENABLE is 1, size and spaces ignore writes. -/
def ringCfgWrite (s : State) (n : Nat) (v : Word) : State :=
  let v := v &&& 0xFFFF0FF1
  let cur := rd0 s (Reg.ringCfg n)
  if bit cur 0 then
    let v := (v &&& 0xFFFF0801) ||| (cur &&& 0x7F0)
    let s := wr s (Reg.ringCfg n) v
    if bit v 0 then s else onRing (endChain s n) n fun r => { r with bells := [] }
  else if !bit v 0 then wr s (Reg.ringCfg n) v
  else if ringConfigOk s n v then ringStart s n v
  else doorbellErr (wr s (Reg.ringCfg n) (v &&& ~~~ 1)) 2 2 n 0

end Sys2Proof.Machine
end

