-- ==== Sys2Proof/Machine/Ctx.lean ====
section
/-!
DEFINITION. The context and sync block (spec/05_contexts_and_objects.md): CONTEXT_CTRL operations, context 0, the
poison walk, waits and the initialisation of sync objects.
-/

namespace Sys2Proof.Machine

/-- The state with its context block changed. -/
def onCtx (s : State) (f : Ctx → Ctx) : State := { s with ctx := f s.ctx }

/-! ### Context images (R170) -/

/-- The image that six 64-bit words carry (R170). -/
def imageOfWords (w : Nat → DWord) : CtxImage :=
  { cls := fld (w 0) 0 2, safety := bit (w 0) 2, ptRoot := fld (w 0) 12 36 * 4096, rings := w 1
    outputs := BitVec.ofNat 4 (fld (w 2) 0 4), cameras := BitVec.ofNat 4 (fld (w 2) 4 4)
    stripRings := BitVec.ofNat 16 (fld (w 2) 8 16)
    sigFirst := fld (w 3) 0 16, sigLast := fld (w 3) 16 16, waitFirst := fld (w 3) 32 16, waitLast := fld (w 3) 48 16
    heapLimit := fld (w 4) 0 32, budget := fld (w 5) 0 16, watchdog := fld (w 5) 16 16 }

/-- The image of slot 0 from the CTX0 registers, with every output, camera, strip ring and object (R146, R168, R170). -/
def imageOfCtx0 (s : State) : CtxImage :=
  { cls := rdF s Reg.ctx0Cfg 0 2, safety := bit (rd0 s Reg.ctx0Cfg) 2, ptRoot := rd64 s Reg.ctx0PtRootLo % 2 ^ 48 / 4096 * 4096
    rings := BitVec.ofNat 64 (rd64 s Reg.ctx0RingsLo), outputs := 0xF, cameras := 0xF, stripRings := 0xFFFF
    sigFirst := 0, sigLast := 0xFFFF, waitFirst := 0, waitLast := 0xFFFF
    heapLimit := rdN s Reg.ctx0HeapLimit, budget := rdF s Reg.ctx0Limits 0 16, watchdog := rdF s Reg.ctx0Limits 16 16 }

/-- An image with every field 0, as a FREE slot shows it (R161). -/
def zeroImage : CtxImage := {}

/-- Fetched, unretired descriptors of a slot. -/
def slotInflight (s : State) (c : Nat) : Nat := (s.cfe.descs.filter fun d => decide (d.ctx = some c)).length

/-- Pending waits of a slot. -/
def slotWaits (s : State) (c : Nat) : Nat := (s.cfe.descs.filter fun d => d.waitEntry && decide (d.ctx = some c)).length

/-- The code of a slot state (R143). -/
def slotCode (st : SlotState) : Nat := match st with
  | .free => 0
  | .loaded => 1
  | .lost => 2
  | .tearingDown => 3

/-- The eight words that QUERY writes (R161, R170). -/
def queryWords (s : State) (c : Nat) : List Nat :=
  let sl := ctxSlot s c
  let im := sl.image
  if sl.state = .free then List.replicate 8 0
  else
    [im.cls % 4 + b2n im.safety * 4 + im.ptRoot % 2 ^ 48 / 4096 * 4096,
     im.rings.toNat,
     im.outputs.toNat + im.cameras.toNat * 2 ^ 4 + im.stripRings.toNat * 2 ^ 8,
     im.sigFirst + im.sigLast * 2 ^ 16 + im.waitFirst * 2 ^ 32 + im.waitLast * 2 ^ 48,
     im.heapLimit,
     im.budget + im.watchdog * 2 ^ 16,
     slotCode sl.state + sl.lostStatus % 2 ^ 16 * 2 ^ 16 + sl.lostRing % 2 ^ 6 * 2 ^ 32,
     sl.lostSeq % 2 ^ 32 + slotInflight s c % 2 ^ 16 * 2 ^ 32 + slotWaits s c % 2 ^ 13 * 2 ^ 48]

/-! ### Ownership (R147) -/

/-- The slots other than c that are not FREE, from slot number lo on. -/
def otherSlots (s : State) (lo c : Nat) : List Slot :=
  ((List.range 128).filter fun k => decide (lo ≤ k) && decide (k ≠ c)).map (ctxSlot s) |>.filter fun sl => decide (sl.state ≠ .free)

/-- The lowest bit that a mask shares with the masks of some slots. -/
def sharedBit (w mask : Nat) (others : List Nat) : Option Nat :=
  (List.range w).find? fun i => mask.testBit i && others.any fun m => m.testBit i

/-- The least of some numbers. -/
def leastOf : List Nat → Option Nat
  | [] => none
  | x :: xs => some (match leastOf xs with | some y => min x y | none => x)

/-- The kind and lowest index of a conflict of an image with the slots other than c (R147). -/
def imageConflict (s : State) (c : Nat) (im : CtxImage) : Option (Nat × Nat) :=
  let all := otherSlots s 0 c
  let os := otherSlots s 1 c
  match sharedBit 64 im.rings.toNat (all.map fun o => o.image.rings.toNat) with
  | some i => some (1, i)
  | none =>
    if c = 0 then none
    else
      match sharedBit 4 im.outputs.toNat (os.map fun o => o.image.outputs.toNat) with
      | some i => some (2, i)
      | none => match sharedBit 4 im.cameras.toNat (os.map fun o => o.image.cameras.toNat) with
        | some i => some (3, i)
        | none => match sharedBit 16 im.stripRings.toNat (os.map fun o => o.image.stripRings.toNat) with
          | some i => some (4, i)
          | none =>
            let hit := os.filter fun o => decide (im.sigFirst ≤ im.sigLast) && decide (o.image.sigFirst ≤ o.image.sigLast) &&
              decide (im.sigFirst ≤ o.image.sigLast) && decide (o.image.sigFirst ≤ im.sigLast)
            (leastOf (hit.map fun o => o.image.sigFirst)).map fun i => (5, i)

/-- REFUSED_NOT_OWNER of a kind and a resource index (R125). -/
def notOwner (kind idx : Nat) : Result := { status := 0x14, detail := kind % 2 ^ 8 + idx % 2 ^ 16 * 2 ^ 16 }

/-! ### Steps of the CTX -/

/-- REMAIN of a slot is set to its BUDGET (R521). -/
def budgetRefill (s : State) (c : Nat) : State := wrN s (Reg.conBudget c) (ctxSlot s c).image.budget

/-- A slot takes an image and is LOADED (R161, R163). -/
def slotLoad (s : State) (c : Nat) (im : CtxImage) : State :=
  budgetRefill (onSlot s c fun _ => { state := .loaded, image := im }) c

/-- The CONTEXT_CTRL that the CTX executes next: the oldest dispatched one that is not cancelled. -/
def ctxHead (s : State) : Option Desc :=
  (s.ctx.queue.filterMap (findDesc s)).find? fun d => decide (d.stage = .dispatched) && d.cancel.isNone

/-- OP of a CONTEXT_CTRL (R120). -/
def ctxOp (d : Desc) : Nat := fld (descWord d 2) 8 4

/-- Target slot of a CONTEXT_CTRL (R120). -/
def ctxTarget (d : Desc) : Nat := fld (descWord d 2) 0 7

/-- IMAGE of a CONTEXT_CTRL (R120). -/
def ctxImageAddr (d : Desc) : Nat := (descWord d 3).toNat

/-- A CONTEXT_CTRL ends with the status that its work earned, whatever was ordered meanwhile (R714). -/
def ctxEnd (s : State) (id : DescId) (r : Result) : State :=
  unitDoneFinal (onCtx s fun x => { x with queue := x.queue.filter fun q => decide (q ≠ id) }) id r

/-- The update or release that belongs to a source ends. -/
def ctxJobEnd (s : State) (src : CtxSource) : State :=
  onCtx s fun x => if src = .ctx0 then { x with job0 := none } else { x with job := none }

/-- An image that does not lie in usable DRAM, or holds an uncorrectable word, faults its CONTEXT_CTRL (R162). -/
def imageFault (s : State) (d : Desc) (reason access addr : Nat) : State :=
  let f : MFault := { reason := reason, access := access, addr := addr, detail := ctxImageAddr d }
  ctxEnd (mmuCapture s 0 f) d.id (faultResult f)

/-- Reads the 64-byte image at an address: the image, and the address of an uncorrectable word of the image (R162). A
fill that meets one elsewhere in the line installs nothing, and is no fault of the LOAD. -/
def imageRead (s : State) (addr : Nat) : State × CtxImage × Option Nat :=
  let (s', bs, bad) := l2ReadN s addr 64
  let w := fun (i : Nat) => (BitVec.ofNat 64 (leValue ((bs.drop (8 * i)).take 8)) : DWord)
  let own := bad.bind fun a =>
    if addr ≤ a ∧ a < addr + 64 then some a else (wordsOf addr 64).find? fun k => decide (dramMark s k = 2)
  (s', imageOfWords w, own)

/-- Slot 0 takes the CTX0 registers, unless its rings conflict (R147, R168). -/
def ctx0Take (s : State) (im : CtxImage) : State :=
  match imageConflict s 0 im with
  | some _ => setEv s Reg.ctxEvents 3
  | none => slotLoad s 0 im

/-- A CTX0 load begins (R168). -/
def ctx0Begin (s : State) : State :=
  match (ctxSlot s 0).state with
  | .free => ctx0Take s (imageOfCtx0 s)
  | .loaded => onCtx s fun x => { x with job0 := some (.update 0 (imageOfCtx0 s) .ctx0) }
  | _ => onCtx (onSlot s 0 fun sl => { sl with state := .tearingDown }) fun x => { x with job0 := some (.release 0 .ctx0) }

/-- The CONTEXT_CTRL that executes in the CTX: one whose update or release is under way, or the next that the free CTX
takes up. -/
def ctxExecuting (s : State) : Option DescId :=
  match s.ctx.job with
  | some (.update _ _ (.desc id)) => some id
  | some (.release _ (.desc id)) => some id
  | _ => (ctxHead s).map fun d => d.id

/-- A CTX0 load that waited for a CONTEXT_CTRL begins once it has retired (R168). -/
def ctx0Resume (s : State) : State :=
  match s.ctx.ctx0Waiting with
  | some id => if (findDesc s id).isNone then ctx0Begin (onCtx s fun x => { x with ctx0Waiting := none }) else s
  | none => s

/-- A write of CTX0_CTRL (R168). The CONTEXT_CTRLs that are dispatched while its update or release waits for slot 0's work
execute meanwhile. -/
def ctx0Load (s : State) (v : Word) : State :=
  if !bit v 0 then s
  else if s.ctx.job0.isSome || s.ctx.ctx0Waiting.isSome then setEv s Reg.ctxEvents 5
  else
    match ctxExecuting s with
    | some id => onCtx s fun x => { x with ctx0Waiting := some id }
    | none => ctx0Begin s

/-- The next CONTEXT_CTRL of an operation is executed when the CTX is free. -/
def ctxStep (s : State) (op : Nat) (f : Desc → State → State) : State :=
  match s.ctx.job, ctxHead s with
  | none, some d => if ctxOp d = op then f d s else s
  | _, _ => s

/-- CONTEXT_CTRL LOAD (R145, R161 to R163). -/
def ctxLoad (d : Desc) (s : State) : State :=
  let c := ctxTarget d
  if c = 0 then ctxEnd s d.id (notOwner 0 0)
  else if slotLost s c then ctxEnd s d.id (lostResult s c)
  else if usable s < ctxImageAddr d + 64 then imageFault s d 7 0 (ctxImageAddr d)
  else
    let (s, im, bad) := imageRead s (ctxImageAddr d)
    match bad with
    | some a => imageFault s d 8 0 a
    | none =>
      if (ctxSlot s c).state = .loaded then onCtx s fun x => { x with job := some (.update c im (.desc d.id)) }
      else
        match imageConflict s c im with
        | some (k, i) => ctxEnd s d.id (notOwner k i)
        | none => ctxEnd (slotLoad s c im) d.id { status := 0 }

/-- CONTEXT_CTRL TEARDOWN (R161, R166). -/
def ctxTeardown (d : Desc) (s : State) : State :=
  let c := ctxTarget d
  if c = 0 then ctxEnd s d.id (notOwner 0 0)
  else if (ctxSlot s c).state = .free then ctxEnd s d.id { status := 0 }
  else
    let s := contextLoss s c 0x20 d.id.ring d.id.seq true
    onCtx (onSlot s c fun sl => { sl with state := .tearingDown }) fun x => { x with job := some (.release c (.desc d.id)) }

/-- CONTEXT_CTRL MARK_LOST (R145, R161). -/
def ctxMarkLost (d : Desc) (s : State) : State :=
  let c := ctxTarget d
  if c = 0 then ctxEnd s d.id (notOwner 0 0)
  else ctxEnd (contextLoss s c 0x20 d.id.ring d.id.seq true) d.id { status := 0 }

/-- The MARK_LOST that runs ahead of a waiting update of its target (R161); a cancelled one does not (R714). -/
def markLostAhead (s : State) : Option Desc :=
  match s.ctx.job with
  | some (.update t _ _) =>
    (s.ctx.queue.filterMap (findDesc s)).find? fun d =>
      decide (ctxOp d = 3) && decide (ctxTarget d = t) && decide (d.stage = .dispatched) && d.cancel.isNone
  | _ => none

/-- The effect of MARK_LOST. -/
def markLostEffect (s : State) : State :=
  match markLostAhead s with
    | some d => ctxMarkLost d s
    | none => ctxStep s 3 ctxMarkLost

/-- CONTEXT_CTRL QUERY (R161, R162, R170). -/
def ctxQuery (d : Desc) (s : State) : State :=
  let a := ctxImageAddr d
  if usable s < a + 64 then imageFault s d 7 1 a
  else
    let bs := (queryWords s (ctxTarget d)).flatMap fun w => leBytes w 8
    ctxEnd (l2WriteN s a (bs.map some)) d.id { status := 0 }

/-- Whether a ring that a slot owns has a fetched, unretired descriptor. -/
def slotRingsBusy (s : State) (c : Nat) : Bool :=
  s.cfe.descs.any fun d => bit (ctxSlot s c).image.rings d.id.ring

/-- The end of an update whose rings have drained, or whose slot was lost (R163). -/
def ctxUpdate (s : State) (t : Nat) (im : CtxImage) (src : CtxSource) : State :=
  let finish := fun (s : State) (r : Result) =>
    match src with
    | .desc id => ctxEnd (ctxJobEnd s src) id r
    | .ctx0 => ctxJobEnd s src
  if (ctxSlot s t).state ≠ .loaded then finish s (lostResult s t)
  else if slotRingsBusy s t then s
  else
    match imageConflict s t im with
    | some (k, i) =>
      let s := if src = .ctx0 then setEv s Reg.ctxEvents 3 else s
      finish s (notOwner k i)
    | none => finish (tlbDropSlot (slotLoad s t im) t) { status := 0 }

/-- The effect of CONTEXT_UPDATE. -/
def contextUpdateEffect (s : State) : State :=
  let go := fun (j : Option CtxJob) (s : State) => match j with
    | some (.update t im src) => ctxUpdate s t im src
    | _ => s
  go s.ctx.job0 (go s.ctx.job s)

/-- A slot whose work, waits and poison walk have ended is released; its REMAIN reads 0 with its BUDGET (R166, R168,
R521). -/
def ctxRelease (s : State) (t : Nat) (src : CtxSource) : State :=
  if slotInflight s t ≠ 0 ∨ slotWaits s t ≠ 0 ∨ (ctxSlot s t).walk.isSome then s
  else
    let s := heapDiscard (tlbDropSlot (budgetRefill (onSlot s t fun _ => {}) t) t) t
    match src with
    | .desc id => ctxEnd (ctxJobEnd s src) id { status := 0 }
    | .ctx0 => ctx0Take (ctxJobEnd s src) (imageOfCtx0 s)

/-- The effect of TEARDOWN_RELEASE. -/
def teardownReleaseEffect (s : State) : State :=
  let go := fun (j : Option CtxJob) (s : State) => match j with
    | some (.release t src) => ctxRelease s t src
    | _ => s
  go s.ctx.job0 (go s.ctx.job s)

/-- One object of a slot's poison walk (R159). -/
def walkOne (c : Nat) (s : State) : State :=
  match (ctxSlot s c).walk with
  | none => s
  | some i =>
    let sl := ctxSlot s c
    let s := onSlot s c fun x => { x with walk := if i < sl.image.sigLast then some (i + 1) else none }
    poisonObj s i c (twinRing s sl.lostRing && twinPaired s)

/-! ### Waits (R130, R157, R158) -/

/-- Whether no earlier descriptor of its stream holds a WAIT back from the hold stage (R130). -/
def firstHeld (s : State) (d : Desc) : Bool :=
  match s.cfe.descs.find? fun e => sameStream e.id d.id && holdsStream s e with
  | some e => decide (e.id = d.id)
  | none => false

/-- A WAIT that has come to the front of its stream is evaluated for the first time (R157, R158). An uncorrectable
entry loses the owning context as a failed ring fetch does (R203). -/
def waitFirst (s : State) (d : Desc) : State :=
  let (s, e, bad) := syncRead s (descObj d)
  let s := onDesc s d.id fun d => { d with evaluated := true }
  if bad then
    retireNow s d.id { status := 0x21, detail := syncAddr s (descObj d) % 2 ^ 48 }
  else if descValue d ≤ e.counter then onDesc s d.id fun d => { d with satisfied := some e.counter, presented := true }
  else if waitsUsed s < 4096 then syncWaiters (onDesc s d.id fun d => { d with waitEntry := true }) (descObj d)
  else setEv s Reg.ctxEvents 1

/-- The effect of WAIT. -/
def waitEffect (s : State) (ring : Fin 64) (seq : Word) : State :=
  match findDesc s (descNamed s ring seq) with
    | some d =>
      if descIsWait d && decide (d.stage = .held) && !d.evaluated && firstHeld s d then waitFirst s d else s
    | none => s

/-- The effect of WAIT_SATISFIED. -/
def waitSatisfiedEffect (s : State) (obj : BitVec 16) : State :=
  mapDescs s fun d =>
    if descIsWait d && d.satisfied.isSome && decide (descObj d = obj.toNat) then { d with presented := true } else d

/-! ### Register readings (R172) -/

/-- One bit per slot of a group of 32. -/
def slotMask (s : State) (k : Nat) (p : Slot → Bool) : Nat :=
  (List.range 32).foldl (fun a j => if p (ctxSlot s (32 * k + j)) then a + 2 ^ j else a) 0

/-- CTX registers whose value is live state. -/
def ctxRead (s : State) (off : Nat) : Option Word :=
  if off = Reg.ctxStatus then
    let loaded := ((List.range 128).filter fun c => decide ((ctxSlot s c).state = .loaded)).length
    let busy := s.ctx.job.isSome || s.ctx.job0.isSome || s.ctx.ctx0Waiting.isSome || !s.ctx.queue.isEmpty
    some (BitVec.ofNat 32 (b2n busy * 2 ^ 24 + loaded * 2 ^ 16 + waitsUsed s))
  else if 0x200060 ≤ off ∧ off < 0x200070 then
    some (BitVec.ofNat 32 (slotMask s ((off - 0x200060) / 4) fun sl => decide (sl.state = .loaded)))
  else if 0x200070 ≤ off ∧ off < 0x200080 then
    some (BitVec.ofNat 32 (slotMask s ((off - 0x200070) / 4) fun sl =>
      decide (sl.state = .lost) || decide (sl.state = .tearingDown)))
  else if 0x201000 ≤ off ∧ off < 0x201800 then
    let c := (off - 0x201000) / 16
    let sl := ctxSlot s c
    match (off - 0x201000) % 16 with
    | 0 => some (BitVec.ofNat 32 (slotCode sl.state + sl.lostRing % 64 * 2 ^ 8 + sl.lostStatus % 2 ^ 16 * 2 ^ 16))
    | 4 => some (BitVec.ofNat 32 sl.lostSeq)
    | 8 => some (BitVec.ofNat 32 (slotInflight s c % 2 ^ 16 + slotWaits s c % 2 ^ 13 * 2 ^ 16))
    | _ => none
  else none

end Sys2Proof.Machine
end

