-- ==== Sys2Proof/Machine/MemRows.lean ====
section
/-!
DEFINITION. Commands of the memory hierarchy and the allocator (spec/06_memory_hierarchy.md R204 to R206, R212;
spec/19_contention.md R525; spec/07_allocators_and_heaps.md R221 to R231): maintenance, the stream area, the LP5
arbiter, refresh and HEAP_GRANT.
-/

namespace Sys2Proof.Machine

/-! ### Dispatched descriptors of one unit -/

/-- The dispatched, uncancelled descriptor with the lowest dispatch number among those that p picks. -/
def oldestOf (s : State) (p : Desc → Bool) : Option Desc :=
  (s.cfe.descs.filter fun d => decide (d.stage = .dispatched) && d.cancel.isNone && p d).foldl
    (fun (a : Option Desc) d => match a with
      | none => some d
      | some b => if d.dispatchNo < b.dispatchNo then some d else some b) none

/-! ### Set and way (R205, R210) -/

/-- Whether a written L2C_SETWAY names an operation on a line that exists (R210). -/
def setwayValid (v : Word) : Bool :=
  decide (fld v 30 2 ≠ 0) && (!bit v 29 || (decide (fld v 11 8 < 128) && decide (fld v 7 4 < 4)))

/-- A write of L2C_SETWAY (R205). -/
def setwayWrite (s : State) (v : Word) : State :=
  if !setwayValid v then s
  else if bit (rd0 s Reg.l2cStatus) 0 then setEv s Reg.l2cEvents 2
  else onMem (orReg s Reg.l2cStatus 1) fun m => { m with setway := some v }

/-- The operation of a written L2C_SETWAY on its line. -/
def setwayApply (s : State) (v : Word) : State :=
  if bit v 29 then l1OpWay s (fld v 30 2) (fld v 23 6 * 128 + fld v 11 8) (fld v 7 4)
  else l2OpWay s (fld v 30 2) (fld v 19 4 * 256 + fld v 11 8) (fld v 7 4)

/-- The effect of SETWAY_DONE. -/
def setwayDoneEffect (s : State) : State :=
  match s.mem.setway with
    | none => s
    | some v => clrReg (onMem (setwayApply s v) fun m => { m with setway := none }) Reg.l2cStatus 1

/-! ### Invalidation of translations (R206) -/

/-- The translations that a written MMU_INV names are dropped; with ALL = 0 and no page, none. -/
def mmuInvApply (s : State) (v : Word) : State :=
  if bit v 30 then tlbDropSlot s (fld v 0 7)
  else if rdN s Reg.mmuInvPages = 0 then s
  else
    let lo := rd64 s Reg.mmuInvVaLo % 2 ^ 48
    tlbDropRange s (fld v 0 7) lo (min (2 ^ 48) (lo + 4096 * rdN s Reg.mmuInvPages))

/-- A write of MMU_INV (R206). -/
def mmuInvWrite (s : State) (v : Word) : State :=
  if !bit v 31 then s
  else if bit (rd0 s Reg.mmuStatus) 0 then setEv s Reg.mmuEvents 1
  else orReg (mmuInvApply s v) Reg.mmuStatus 1

/-! ### CACHE_RANGE (R204) -/

/-- The pieces of a CACHE_RANGE in its 4 KiB pages, in ascending order, cut at VA 2^48. -/
def rangePages (start len : Nat) : List (Nat × Nat) :=
  let hi := min (2 ^ 48) (start + len)
  if hi ≤ start then []
  else (List.range ((hi - 1) / 4096 - start / 4096 + 1)).map fun i =>
    let lo := max start ((start / 4096 + i) * 4096)
    (lo, min hi ((start / 4096 + i + 1) * 4096) - lo)

/-- The operation on every line of n bytes at a PA. -/
def rangeLines (s : State) (op : Nat) (l1 : Bool) (pa n : Nat) : State :=
  (linePieces pa n).foldl (fun s p =>
    let s := if l1 then (List.range 64).foldl (fun s k => l1OpPa s op k p.1) s else s
    l2OpPa s op p.1) s

/-- One page of a CACHE_RANGE: skipped, operated on, or a fault, which under OP 2 is a write's (R204). -/
def rangePage (s : State) (slot op : Nat) (l1 : Bool) (va n : Nat) : State × Option MFault :=
  match translate s slot va accLoad with
  | (s, .error f) => (s, some { f with access := if op = 2 then accStore else f.access })
  | (s, .ok x) =>
    if paSpace x.pa = 1 ∨ paSpace x.pa = 2 ∨ 2 ≤ x.mtype then (s, none)
    else if op = 2 then
      match translate s slot va accStore with
      | (s, .error f) => (s, some f)
      | (s, .ok x) => (rangeLines s op l1 x.pa n, none)
    else (rangeLines s op l1 x.pa n, none)

/-- OP of a CACHE_RANGE (R120). -/
def rangeOp (d : Desc) : Nat := fld (descWord d 4) 0 2

/-- The first pages of a CACHE_RANGE, as many as given, until one faults. -/
def rangeRun (s : State) (d : Desc) (pages : List (Nat × Nat)) : State × Option MFault :=
  pages.foldl (fun (acc : State × Option MFault) p =>
    match acc.2 with
    | some _ => acc
    | none => rangePage acc.1 (d.ctx.getD 0) (rangeOp d) (bit (descWord d 4) 2) p.1 p.2) (s, none)

/-- The pages of a CACHE_RANGE; bits [63:48] of START are ignored (R113). -/
def rangeOf (d : Desc) : List (Nat × Nat) := rangePages (fld (descWord d 2) 0 48) (descWord d 3).toNat

/-- A unit's access of a descriptor faults: the capture of R209 and the descriptor's status (R125, R208). -/
def unitFault (s : State) (d : Desc) (f : MFault) : State :=
  decideDesc (mmuCapture s (d.ctx.getD 0) f) d.id (faultResult f)

/-- The whole of the next CACHE_RANGE, when its OP is the one given (R204). -/
def cacheRange (s : State) (op : Nat) : State :=
  match oldestOf s fun d => decide (descOp d = 0x18) with
  | none => s
  | some d =>
    if rangeOp d ≠ op then s
    else
      match rangeRun s d (rangeOf d) with
      | (s, some f) => unitFault s d f
      | (s, none) => unitDone s d.id 0

/-- L2C registers whose value is live state (R204, R210). RANGE_ACTIVE is 1 from the dispatch to the retirement of any
CACHE_RANGE (DESIGN CHOICE, log entry 72). -/
def l2cRead (s : State) (off : Nat) : Option Word :=
  let ds := s.cfe.descs.filter fun d => decide (descOp d = 0x18) && decide (d.stage ≠ .held)
  if off = Reg.l2cStatus then
    some (BitVec.ofNat 32 (fld (rd0 s Reg.l2cStatus) 0 1 + 2 * b2n (!ds.isEmpty)))
  else if Reg.l2cRangeBusy 0 ≤ off ∧ off < Reg.l2cRangeBusy 4 then
    let i := (off - Reg.l2cRangeBusy 0) / 4
    some (BitVec.ofNat 32 ((List.range 32).foldl (fun a j =>
      if ds.any fun d => decide (d.ctx = some (32 * i + j)) then a + 2 ^ j else a) 0))
  else none

/-! ### The stream area (R212) -/

/-- STREAM in effect on a cluster, in granules. -/
def streamOf (s : State) (c : Nat) : Nat := (s.mem.stream[c]?).getD 0

/-- Granules of a cluster's work area that no window holds. -/
def workFree (s : State) (c : Nat) : Nat :=
  64 - streamOf s c - ((s.mem.windows.filter fun w => decide (w.cluster = c)).map fun w => w.granules.length).foldl (· + ·) 0

/-- STREAM of SHEET_CFG, at most 64. -/
def streamWritten (s : State) (c : Nat) : Nat := min 64 (rdF s (Reg.sheetCfg c) 0 7)

/-- A written STREAM takes effect on a cluster whose work area holds no window (R212). -/
def streamApply (s : State) (c : Nat) : State :=
  if s.mem.windows.any fun w => decide (w.cluster = c) then s
  else onMem s fun m => { m with stream := setAt m.stream c (streamWritten s c) }

/-- SHEET_STATUS of a cluster. -/
def sheetStatusWord (s : State) (c : Nat) : Word :=
  BitVec.ofNat 32 (workFree s c + 128 * b2n (decide (streamWritten s c ≠ streamOf s c)))

/-! ### The LP5 arbiter (R525) and refresh (R175) -/

/-- The positions among the requests held of those that wait for a channel (R177). -/
def chanWaiting (s : State) (ch : Nat) : List Nat :=
  (List.range s.mem.reqs.length).filter fun i => (s.mem.reqs[i]?).any fun r => decide (paChannel r.addr.toNat = ch)

/-- The waiting requests of a channel whose bank timing permits a burst now, with their positions, oldest first. -/
def burstReady (s : State) (ch : Nat) (ready : List Nat) : List (Nat × BurstReq) :=
  (chanWaiting s ch).zipIdx.filterMap fun p =>
    if ready.contains p.2 then (s.mem.reqs[p.1]?).map fun r => (p.1, r) else none

/-- The request that a channel grants next, with the step of R525 that chose it. -/
def burstPick (ch : LpChan) (reqs : List (Nat × BurstReq)) : Option (Nat × Nat × BurstReq) :=
  let first := fun (side : BurstSide) => reqs.find? fun r => decide (r.2.side = side)
  let scanShare := nfld ch.reserve 0 8
  let capShare := min (nfld ch.reserve 8 8) (256 - scanShare)
  let scan := if ch.scan < scanShare then first .scanout else none
  let cap := if ch.cap < capShare then first .capture else none
  let urgent := first (.shared true)
  match scan, cap, urgent, reqs with
  | some r, _, _, _ => some (1, r)
  | none, some r, _, _ => some (2, r)
  | none, none, some r, _ => some (3, r)
  | none, none, none, r :: _ => some (4, r)
  | none, none, none, [] => none

/-- A channel after a burst: a new window of 256 begins with MEM_RESERVE as it then stands. -/
def burstCount (s : State) (ch : LpChan) (r : BurstReq) : LpChan :=
  let ch := { ch with total := ch.total + 1
                      scan := ch.scan + b2n (decide (r.side = .scanout))
                      cap := ch.cap + b2n (decide (r.side = .capture)) }
  if 256 ≤ ch.total then { ch with total := 0, scan := 0, cap := 0, reserve := rdN s Reg.memReserve } else ch

/-- Channel ch of the LP5 controller. -/
def lpChan (s : State) (ch : Nat) : LpChan := (s.mem.chans[ch]?).getD {}

/-- A channel grants its next burst (R525). The access has checked its words already (R176). -/
def lpBurst (s : State) (ch : Nat) (ready : List Nat) : State :=
  match burstPick (lpChan s ch) (burstReady s ch ready) with
  | none => s
  | some (step, i, r) =>
    let s := if step = 3 then satInc s Reg.conUrgentBursts 1 else s
    let ch' := burstCount s (lpChan s ch) r
    onMem s fun m => { m with chans := setAt m.chans ch ch', reqs := m.reqs.eraseIdx i }

/-- A refresh of a channel, at the interval that MR4 asks for (R175, R211). -/
def lpRefresh (s : State) (ch : Nat) (derate : Bool) : State :=
  let was := bit (rd0 s Reg.memStatus) 2
  let s := wrF s Reg.memStatus 2 1 (b2n derate)
  let s := if derate && !was then setEv s Reg.memEvents 2 else s
  onMem s fun m => { m with chans := modAt m.chans ch fun c => { c with refreshes := c.refreshes + 1 } }

/-! ### HEAP_GRANT (R221 to R231) -/

/-- Target slot, KIND, DENY, ADDR and SIZE of a HEAP_GRANT (R120). -/
def grantSlot (d : Desc) : Nat := fld (descWord d 2) 0 7

/-- KIND. -/
def grantKind (d : Desc) : Nat := fld (descWord d 2) 9 1

/-- DENY. -/
def grantDeny (d : Desc) : Bool := bit (descWord d 2) 8

/-- ADDR. -/
def grantAddr (d : Desc) : Nat := (descWord d 3).toNat

/-- SIZE in 64 KiB units. -/
def grantSize (d : Desc) : Nat := fld (descWord d 4) 0 32

/-- The PAs of the units of a grant, in ascending order. -/
def grantUnits (d : Desc) : List Nat := (List.range (grantSize d)).map fun i => grantAddr d + 65536 * i

/-- Why a grant is refused, in the order of R223; LIMIT applies to KIND 1 alone (R224). -/
def grantRefusal (s : State) (d : Desc) : Option Nat :=
  let c := grantSlot d
  let owned := ownedUnits s
  if (ctxSlot s c).state ≠ .loaded then some 1
  else if usable s < grantAddr d + 65536 * grantSize d then some 2
  else if grantKind d = 1 ∧ (ctxSlot s c).image.heapLimit < (slotHeap s c).units.length + grantSize d then some 3
  else if (grantUnits d).any fun u => owned.contains u then some 4
  else none

/-- HEAP_REFUSE records a refused grant (R223). -/
def grantRefuse (s : State) (d : Desc) (reason : Nat) : State :=
  wrN s Reg.heapRefuse (grantSlot d + grantKind d * 2 ^ 8 + reason * 2 ^ 9)

/-- The header of a chunk (R231): NEXT 0, its units, slot and grant index. -/
def chunkHeader (c units index : Nat) : List Byte :=
  leBytes 0 8 ++ leBytes (units % 2 ^ 32 + c % 128 * 2 ^ 32) 8 ++ leBytes (index % 2 ^ 32) 8 ++ List.replicate 40 0

/-- A chunk is added at the tail of a slot's chunk list: its header and the link to it are written (R225). GRANT_INDEX counts
on across an update LOAD of R163, which keeps the slot LOADED (DESIGN CHOICE, log entry 76). -/
def chunkAdd (s : State) (c pa units : Nat) : State :=
  let h := slotHeap s c
  let s := metaTouch s (chunkUnits { pa := pa, units := units })
  let s := l2WriteN s pa ((chunkHeader c units h.grants).map some)
  let s := match h.chunks.getLast? with
    | some k => l2WriteLE s k.pa 6 (pa % 2 ^ 48)
    | none => s
  onHeap s c fun h => { h with chunks := h.chunks ++ [{ pa := pa, units := units }], grants := h.grants + 1 }

/-- A pending growth request is evaluated again after a grant (R229). -/
def binRetry (s : State) (c : Nat) : State :=
  match (slotHeap s c).want with
  | none => s
  | some (id, n) =>
    if (binTake (slotHeap s c) id n).isSome then
      onHeap (binClear s c) c fun h => { h with waiting := [] }
    else binRequest s c id n

/-- The next HEAP_GRANT acts, when it is of the kind that p picks (R221). -/
def grantStep (s : State) (p : Desc → Bool) (f : State → Desc → State × Result) : State :=
  match oldestOf s fun d => decide (descOp d = 0x19) with
  | none => s
  | some d => if p d then let (s, r) := f s d; unitDoneFinal s d.id r else s

/-- A KIND 0 grant (R224, R225). -/
def grantChunk (s : State) (d : Desc) : State × Result :=
  match grantRefusal s d with
  | some r => (grantRefuse s d r, { status := 0, detail := 0 })
  | none => (binRetry (chunkAdd s (grantSlot d) (grantAddr d) (grantSize d)) (grantSlot d), { status := 0, detail := grantSize d })

/-- A KIND 1 grant (R223); with DENY 1 it has no effect. -/
def grantReserve (s : State) (d : Desc) : State × Result :=
  if grantDeny d then (s, { status := 0 })
  else
    match grantRefusal s d with
    | some r => (grantRefuse s d r, { status := 0x11, detail := 0 })
    | none =>
      (metaTouch (onHeap s (grantSlot d) fun h => { h with units := h.units ++ (grantUnits d).map fun a => { pa := a } })
          (grantUnits d), { status := 0, detail := grantSize d })

/-- A denial: the waiting passes of the slot retire BIN_GROW_DENIED with the bytes each had written (R229). -/
def grantDenial (s : State) (d : Desc) : State × Result :=
  let c := grantSlot d
  let h := slotHeap s c
  if h.want.isNone then (s, { status := 0 })
  else
    let s := h.waiting.foldl (fun s id => decideDesc s id { status := 0x13, detail := passBytes h id % 2 ^ 32 }) s
    (onHeap (binClear s c) c fun h => { h with waiting := [] }, { status := 0 })

end Sys2Proof.Machine
end

