-- ==== Sys2Proof/Machine/Sheet.lean ====
section
/-!
DEFINITION. Sheet memory and windows (spec/06_memory_hierarchy.md R195 to R198, R203): reads with their checks,
writes, the mapping of window offsets, zeroing, and the faults of a range beyond its window.
-/

namespace Sys2Proof.Machine

/-- The store key of offset o in the sheet of cluster c. -/
def sheetKey (c o : Nat) : Nat := c * 2 ^ 22 + o % 2 ^ 22

/-- The ECC mark of the word at an offset. -/
def sheetMark (s : State) (c o : Nat) : Nat := storeGet noMark s.mem.sheetErr (sheetKey c o / 8)

/-- Sets the mark of a sheet word. -/
def sheetSetMark (s : State) (c o v : Nat) : State :=
  onMem s fun m => { m with sheetErr := storePut noMark m.sheetErr (sheetKey c o / 8) v }

/-- The report of a sheet ECC finding: event, address capture and count (R203, R212). -/
def sheetReport (s : State) (c o b count : Nat) : State :=
  satInc (captureErr s (Reg.sheetEvents c) b fun s => wrN s (Reg.sheetEccAddr c) (o / 8 * 8 % 2 ^ 22)) count 1

/-- The check of one sheet word on a read (R198). -/
def sheetCheckWord (c : Nat) (s : State) (o : Nat) : State :=
  match sheetMark s c o with
  | 0 => s
  | 1 => sheetReport (sheetSetMark s c o 0) c o 0 (Reg.sheetEccCorrCount c)
  | _ => sheetReport s c o 1 (Reg.sheetEccUncorrCount c)

/-- A read of n bytes at an absolute offset: the bytes, and the first uncorrectable word. -/
def sheetRead (s : State) (c o n : Nat) : State × List Byte × Option Nat :=
  let ws := wordsOf o n
  (ws.foldl (sheetCheckWord c) s, memRead s.mem.sheet (sheetKey c o) n, ws.find? fun w => decide (sheetMark s c w = 2))

/-- A write of bytes at an absolute offset; a whole word loses its mark, a part of one keeps it uncorrectable (R198). -/
def sheetWrite (s : State) (c o : Nat) (bs : List (Option Byte)) : State :=
  let whole := fun (w : Nat) => decide (o ≤ w) && decide (w + 8 ≤ o + bs.length) && ((bs.drop (w - o)).take 8).all Option.isSome
  let s := onMem s fun m => { m with sheet := memPutSome m.sheet (sheetKey c o) bs }
  (wordsOf o bs.length).foldl (fun s w => if whole w ∨ sheetMark s c w = 1 then sheetSetMark s c w 0 else s) s

/-! ### Windows -/

/-- Bytes of a window. -/
def winBytes (w : Window) : Nat := 65536 * w.granules.length

/-- The absolute sheet offset of a window offset (R196). -/
def winAbs (w : Window) (o : Nat) : Nat := ((w.granules[o / 65536]?).getD 0) * 65536 + o % 65536

/-- The pieces (offset, place, length) of n bytes at a window offset that lie in single granules. -/
def winPieces (o n : Nat) : List (Nat × Nat × Nat) :=
  (List.range (if n = 0 then 0 else (o % 65536 + n + 65535) / 65536)).map fun i =>
    let lo := max o ((o / 65536 + i) * 65536)
    let hi := min (o + n) ((o / 65536 + i + 1) * 65536)
    (lo, lo - o, hi - lo)

/-- A read of n bytes at a window offset inside the window. -/
def winRead (s : State) (w : Window) (o n : Nat) : State × List Byte × Option Nat :=
  (winPieces o n).foldl (fun (acc : State × List Byte × Option Nat) p =>
    let (s, bs, bad) := sheetRead acc.1 w.cluster (winAbs w p.1) p.2.2
    (s, acc.2.1 ++ bs, acc.2.2 <|> bad)) (s, [], none)

/-- A write of bytes at a window offset inside the window. -/
def winWrite (s : State) (w : Window) (o : Nat) (bs : List (Option Byte)) : State :=
  (winPieces o bs.length).foldl (fun s p => sheetWrite s w.cluster (winAbs w p.1) ((bs.drop p.2.1).take p.2.2)) s

/-- A little-endian value at a window offset. -/
def winReadLE (s : State) (w : Window) (o n : Nat) : State × Nat × Option Nat :=
  let (s, bs, bad) := winRead s w o n
  (s, leValue bs, bad)

/-- The cluster writes zero to every byte of a window (R197). -/
def winZero (s : State) (w : Window) : State := winWrite s w 0 (List.replicate (winBytes w) (some 0))

/-- The SHEET-space address of a fault or ECC report (R173, R197). -/
def sheetPa (c o : Nat) (window : Bool) : Nat := 2 ^ 46 + 2 ^ 47 + c % 16 * 2 ^ 22 + min o 0x3FFFFF + b2n window * 2 ^ 26

/-- The fault of an access to a window offset beyond the window, reason SHEET_RANGE (R197, R208). -/
def sheetFault (c o access : Nat) (window : Bool) : MFault :=
  { reason := 11, access := access, addr := sheetPa c o window, detail := sheetPa c o window }

/-- The fault of an uncorrectable sheet word (R203). -/
def sheetBadFault (c o : Nat) (access detail : Nat) : MFault :=
  { reason := 8, access := access, addr := sheetPa c o false, detail := detail }

/-- The lowest work-area granules of a cluster that are free, in ascending order. -/
def freeGranules (s : State) (c : Nat) : List Nat :=
  (List.range 64).filter fun g => decide (streamOf s c ≤ g) &&
    !(s.mem.windows.any fun w => decide (w.cluster = c) && w.granules.contains g)

/-- Bytes of the work area of a cluster (R196). -/
def workArea (s : State) (c : Nat) : Nat := 65536 * (64 - streamOf s c)

/-- A window of n granules is allocated on a cluster, lowest free granules first; none when too few are free (R196). -/
def winAlloc (s : State) (owner : DescId) (part c n : Nat) : Option (State × Window) :=
  let gs := (freeGranules s c).take n
  if gs.length = n then
    let w : Window := { owner := owner, part := part, cluster := c, granules := gs }
    some (onMem s fun m => { m with windows := m.windows ++ [w] }, w)
  else none

/-- Frees the windows that p picks. -/
def winFree (s : State) (p : Window → Bool) : State := onMem s fun m => { m with windows := m.windows.filter fun w => !p w }

end Sys2Proof.Machine
end

