-- ==== Sys2Proof/Machine/Digest.lean ====
section
/-!
DEFINITION. Digests of writes (spec/22_silent_errors_and_reproducibility.md R585 to R592): the mixing function, the
elements of a write, and their routing to segment accumulators and layer digests.
-/

namespace Sys2Proof.Machine

/-- fmix of R585. -/
def fmix (x : DWord) : DWord :=
  let x := (x ^^^ (x >>> 30)) * 0xBF58476D1CE4E5B9
  let x := (x ^^^ (x >>> 27)) * 0x94D049BB133111EB
  x ^^^ (x >>> 31)

/-- mix of R585. -/
def mix (k v : DWord) : DWord := fmix (fmix (k ^^^ 0x243F6A8885A308D3) ^^^ v)

/-- The element of one aligned group of 8 key addresses (R587): none when no byte of it is written. -/
def digestElem (key : Nat) (bs : List (Option Byte)) (g : Nat) : Option (DWord × DWord) :=
  let at' := fun (a : Nat) => if a < key then none else (bs[a - key]?).getD none
  let cells := (List.range 8).map fun i => at' (8 * g + i)
  let m := cells.zipIdx.foldl (fun a p => if p.1.isSome then a + 2 ^ p.2 else a) 0
  if m = 0 then none
  else some (BitVec.ofNat 64 (8 * g % 2 ^ 48 + m * 2 ^ 56), BitVec.ofNat 64 (leValue (cells.map fun c => c.getD 0)))

/-- The elements of a write of bytes at key addresses from key on (R587). -/
def digestElems (key : Nat) (bs : List (Option Byte)) : List (DWord × DWord) :=
  (List.range ((key + bs.length + 7) / 8 - key / 8)).filterMap fun i => digestElem key bs (key / 8 + i)

/-- The sum of the terms of some elements (R586). -/
def digestSum (es : List (DWord × DWord)) : DWord := es.foldl (fun a e => a + mix e.1 e.2) 0

/-- RENDER_PASS with RACE = 1 or LAYER with STREAM = 1: an unrepeatable descriptor (R535). -/
def descUnrepeatable (d : Desc) : Bool :=
  (decide (descOp d = 0x08) && bit (descWord d 3) 4) || (decide (descOp d = 0x0A) && bit (descWord d 3) 0)

/-- MAP_SENS of a descriptor header (R118). -/
def descMapSens (d : Desc) : Bool := bit (descWord d 0) 14

/-- Whether a descriptor's context has SAFETY = 1. -/
def descSafety (s : State) (d : Desc) : Bool :=
  match d.ctx with
  | some c => (ctxSlot s c).image.safety
  | none => false

/-- A segment after a term is added to S or M, and to the part of unrepeatable descriptors (R535). -/
def segAdd (v : DWord) (mapSens unrep : Bool) (g : Segment) : Segment :=
  let g := if mapSens then { g with mapSens := g.mapSens + v } else { g with strict := g.strict + v }
  if unrep then (if mapSens then { g with mapSensU := g.mapSensU + v } else { g with strictU := g.strictU + v }) else g

/-- Adds a term to the digest of a layer. -/
def layerAdd (s : State) (id : DescId) (l : Nat) (v : DWord) : State :=
  onHlt s fun h =>
    if h.layers.any fun e => decide (e.1 = id) && decide (e.2.1 = l) then
      { h with layers := h.layers.map fun e => if e.1 = id ∧ e.2.1 = l then (e.1, e.2.1, e.2.2 + v) else e }
    else { h with layers := h.layers ++ [(id, l, v)] }

/-- Where a tap's elements go beside their descriptor: a layer that is marked map-sensitive, the layer, and the
cluster whose tap formed them. -/
structure Tap where
  mapSens : Bool := false
  layer : Option Nat := none
  cluster : Option Nat := none
deriving DecidableEq, Repr

/-- One digested write of a descriptor (R587 to R591). -/
def digestWrite (s : State) (d : Desc) (t : Tap) (key : Nat) (bs : List (Option Byte)) : State :=
  let es := digestElems key bs
  let v := digestSum es
  let n := d.id.ring
  let s := match t.cluster with
    | some c => inc64 s (Reg.clhTermsLo c) es.length
    | none => s
  let add := segAdd v (descMapSens d || t.mapSens) (descUnrepeatable d)
  let s := if descSafety s d then
      onHlt s fun h => if d.rep then { h with rep := modAt h.rep n add } else { h with seg := modAt h.seg n add }
    else s
  match t.layer with
  | some l => if descOp d = 0x0A ∧ (descWord d 4).toNat ≠ 0 then layerAdd s d.id l v else s
  | none => s

/-- A cluster has run work of a descriptor (R535, R545). -/
def noteCluster (s : State) (d : Desc) (c : Nat) : State :=
  let add := fun (g : Segment) => { g with clusters := g.clusters ||| BitVec.ofNat 16 (2 ^ c) }
  onHlt s fun h => if d.rep then { h with rep := modAt h.rep d.id.ring add } else { h with seg := modAt h.seg d.id.ring add }

/-- The key address of a sheet write of a layer step (R588). -/
def sheetWriteKey (vcl o : Nat) : Nat := 0xC00000000000 + vcl * 2 ^ 22 + o

end Sys2Proof.Machine
end

