-- ==== Sys2Proof/Machine/Kamir.lean ====
section
/-!
DEFINITION. Kamir instruction words (spec/09_kamir_encoding.md): the fields of the control part and of the six
operand formats, the opcode map, the registers each instruction reads and writes, and the illegal encodings of R285
that the words alone show.
-/

namespace Sys2Proof.Machine

/-- An instruction: its word and its extension word, 0 when it has none. -/
structure KIns where
  w : Nat
  x : Nat := 0
deriving DecidableEq, Repr

/-- OPCODE (R266). -/
def kOp (i : KIns) : Nat := nfld i.w 0 8

/-- EXT. -/
def kExt (i : KIns) : Bool := i.w.testBit 8

/-- STALL. -/
def kStall (i : KIns) : Nat := nfld i.w 9 4

/-- SETTOK: the token to set, when enabled. -/
def kTok (i : KIns) : Option Nat := if i.w.testBit 16 then some (nfld i.w 13 3) else none

/-- WAIT. -/
def kWait (i : KIns) : Nat := nfld i.w 17 8

/-- Length in bytes (R265). -/
def kLen (i : KIns) : Nat := if kExt i then 16 else 8

/-! ### Formats (R268, R269) -/

/-- VD of formats V, M and L. -/
def kVD (i : KIns) : Nat := nfld i.w 30 8

/-- VA of formats V and L; VO of format M. -/
def kVA (i : KIns) : Nat := nfld i.w 38 8

/-- VB of format V. -/
def kVB (i : KIns) : Nat := nfld i.w 46 8

/-- VC of format V. -/
def kVC (i : KIns) : Nat := nfld i.w 54 8

/-- MOD of format V. -/
def kMod (i : KIns) : Nat := nfld i.w 62 2

/-- SD of format S. -/
def kSD (i : KIns) : Nat := nfld i.w 30 6

/-- SA of format S. -/
def kSA (i : KIns) : Nat := nfld i.w 36 6

/-- SB of format S. -/
def kSB (i : KIns) : Nat := nfld i.w 42 6

/-- BIMM of format S. -/
def kBimm (i : KIns) : Bool := i.w.testBit 48

/-- IMM15 of format S, sign-extended to 32 bits. -/
def kImm15 (i : KIns) : Word := BitVec.ofInt 32 (sext (nfld i.w 49 15) 15)

/-- PD of format P. -/
def kPD (i : KIns) : Nat := nfld i.w 30 3

/-- VA of format P. -/
def kPVA (i : KIns) : Nat := nfld i.w 33 8

/-- VB of format P. -/
def kPVB (i : KIns) : Nat := nfld i.w 41 8

/-- COND. -/
def kCond (i : KIns) : Nat := nfld i.w 49 4

/-- PS. -/
def kPS (i : KIns) : Nat := nfld i.w 53 3

/-- COMB. -/
def kComb (i : KIns) : Nat := nfld i.w 56 2

/-- SCAL. -/
def kScal (i : KIns) : Bool := i.w.testBit 58

/-- SB of format M. -/
def kMSB (i : KIns) : Nat := nfld i.w 46 6

/-- WIDTH. -/
def kWidth (i : KIns) : Nat := nfld i.w 52 3

/-- SPACE. -/
def kSpace (i : KIns) : Nat := nfld i.w 55 2

/-- ORD. -/
def kOrd (i : KIns) : Nat := nfld i.w 57 2

/-- SCOPE. -/
def kScope (i : KIns) : Nat := nfld i.w 59 3

/-- OSH. -/
def kOsh (i : KIns) : Nat := nfld i.w 62 2

/-- CP of format C. -/
def kCP (i : KIns) : Nat := nfld i.w 30 3

/-- TARGET of format C, as a code offset. -/
def kTarget (i : KIns) : Nat := 8 * nfld i.w 34 24

/-- SREG of format C. -/
def kSReg (i : KIns) : Nat := nfld i.w 58 6

/-- SP of format L. -/
def kSP (i : KIns) : Nat := nfld i.w 46 6

/-- SUBOP of format L. -/
def kSubop (i : KIns) : Nat := nfld i.w 52 4

/-- IMM8 of format L. -/
def kImm8 (i : KIns) : Nat := nfld i.w 56 8

/-- IMM of X-V and X-S. -/
def kXImm (i : KIns) : Word := BitVec.ofNat 32 i.x

/-- SREG of X-V. -/
def kXSreg (i : KIns) : Nat := nfld i.x 32 6

/-- SUB of X-V. -/
def kXSub (i : KIns) : Nat := nfld i.x 38 2

/-- KIND of X-V: the source is IMM. -/
def kXKind (i : KIns) : Bool := i.x.testBit 40

/-- OFF of X-M. -/
def kXOff (i : KIns) : Int := sext (i.x % 2 ^ 32) 32

/-- VS of X-M. -/
def kXVS (i : KIns) : Nat := nfld i.x 32 8

/-- VC of X-M. -/
def kXVC (i : KIns) : Nat := nfld i.x 40 8

/-- ALT of X-C, as a code offset. -/
def kXAlt (i : KIns) : Nat := 8 * nfld i.x 0 24

/-! ### The opcode map (R272, R273) -/

/-- The operand formats. -/
inductive KFmt where
  | v
  | s
  | p
  | m
  | c
  | l
deriving DecidableEq, Repr

/-- A latency class: a fixed latency, variable, or no register result. -/
inductive KLat where
  | fixed (l : Nat)
  | var
  | none
deriving DecidableEq, Repr

/-- The Ext column of R272. -/
inductive KExt where
  | no
  | opt
  | req
deriving DecidableEq, Repr

/-- One row of the opcode map. -/
structure KInfo where
  fmt : KFmt
  lat : KLat
  ext : KExt
  /-- Bit 0, 1, 2: the opcode reads vector source A, B, C. -/
  srcs : Nat := 0
deriving DecidableEq, Repr

/-- The opcode map (R272). -/
def kInfo (op : Nat) : Option KInfo :=
  match op with
  | 0x00 | 0x01 | 0x02 | 0x04 | 0x05 | 0x06 | 0x08 | 0x0A | 0x0B | 0x0C | 0x0D => some { fmt := .c, lat := .none, ext := .no }
  | 0x03 => some { fmt := .c, lat := .fixed 2, ext := .no }
  | 0x09 => some { fmt := .c, lat := .none, ext := .req }
  | 0x20 | 0x21 | 0x23 | 0x24 | 0x25 | 0x26 | 0x27 | 0x28 | 0x29 | 0x2A | 0x2B | 0x2C | 0x2D | 0x2E =>
    some { fmt := .s, lat := .fixed 2, ext := .opt }
  | 0x22 => some { fmt := .s, lat := .fixed 4, ext := .opt }
  | 0x30 | 0x32 | 0x33 | 0x34 | 0x35 | 0x36 | 0x37 => some { fmt := .s, lat := .fixed 2, ext := .no }
  | 0x40 | 0x41 | 0x43 | 0x44 | 0x45 | 0x50 | 0x51 | 0x55 | 0x56 | 0x57 | 0x58 | 0x59 | 0x5A | 0x5B | 0x5C =>
    some { fmt := .v, lat := .fixed 4, ext := .opt, srcs := 3 }
  | 0x42 => some { fmt := .v, lat := .fixed 4, ext := .opt, srcs := 7 }
  | 0x46 => some { fmt := .v, lat := .fixed 6, ext := .opt, srcs := 1 }
  | 0x52 | 0x53 => some { fmt := .v, lat := .fixed 6, ext := .opt, srcs := 3 }
  | 0x54 => some { fmt := .v, lat := .fixed 6, ext := .opt, srcs := 7 }
  | 0x5D | 0x5E | 0x5F => some { fmt := .v, lat := .fixed 4, ext := .no, srcs := 1 }
  | 0x60 => some { fmt := .v, lat := .fixed 4, ext := .opt, srcs := 1 }
  | 0x61 => some { fmt := .v, lat := .fixed 4, ext := .opt, srcs := 3 }
  | 0x68 | 0x69 | 0x6A | 0x6B | 0x6D | 0x6F => some { fmt := .v, lat := .fixed 6, ext := .no, srcs := 1 }
  | 0x6C | 0x6E => some { fmt := .v, lat := .fixed 6, ext := .no, srcs := 3 }
  | 0x70 | 0x71 | 0x72 | 0x73 | 0x74 | 0x75 | 0x76 => some { fmt := .v, lat := .fixed 12, ext := .no, srcs := 1 }
  | 0x80 | 0x81 | 0x82 => some { fmt := .p, lat := .fixed 4, ext := .opt, srcs := 3 }
  | 0x88 | 0x89 => some { fmt := .v, lat := .fixed 6, ext := .opt, srcs := 3 }
  | 0x8C | 0x8D => some { fmt := .v, lat := .fixed 10, ext := .no, srcs := 1 }
  | 0xA0 | 0xA1 | 0xA2 => some { fmt := .m, lat := .var, ext := .opt }
  | 0xA8 | 0xA9 | 0xAA | 0xAB | 0xAC | 0xAD | 0xAE | 0xAF | 0xB0 | 0xB1 | 0xB2 => some { fmt := .m, lat := .var, ext := .req }
  | 0xB8 => some { fmt := .m, lat := .none, ext := .no }
  | 0xC0 | 0xC1 | 0xC8 | 0xC9 => some { fmt := .s, lat := .var, ext := .no }
  | 0xE0 | 0xE1 | 0xE8 | 0xE9 | 0xEA | 0xF0 => some { fmt := .l, lat := .var, ext := .no }
  | _ => none

/-- The unit of an opcode (R272, R273): 0 an FMA pipe, the second of which is 1, 2 SFU, 3 SCL, 4 XLU, 5 BRU, 6 LSU, 7 SYN,
8 ALC, 9 TEX, 10 TNS, 11 LFT. -/
def kUnit (op : Nat) : Nat :=
  if op < 0x20 then 5 else if op < 0x40 then 3 else if op < 0x70 then 0 else if op < 0x80 then 2 else if op < 0x88 then 0
  else if op < 0xA0 then 4 else if op < 0xC0 then 6 else if op < 0xC8 then 7 else if op < 0xE0 then 8
  else if op < 0xE8 then 9 else if op < 0xF0 then 10 else 11

/-- Cycles for which the unit of an opcode accepts no other instruction (R273). -/
def kOccupancy (op : Nat) : Nat := if kUnit op = 2 ∨ op = 0x8C ∨ op = 0x8D then 2 else 1

/-- Whether an opcode is an atomic. -/
def kAtomic (op : Nat) : Bool := decide (0xA8 ≤ op) && decide (op ≤ 0xB2)

/-- Whether an opcode is one of the units that a SWAIT or FENCE holds back (R304, R307). -/
def kMemClass (op : Nat) : Bool := decide (0xA0 ≤ op)

/-- Registers that a WIDTH fills: 1, 2 or 4 (R297). -/
def kWidthRegs (width : Nat) : Nat := if width = 5 then 2 else if width = 6 then 4 else 1

/-- Bytes of a WIDTH (R268). -/
def kWidthBytes (width : Nat) : Nat :=
  match width with
  | 0 | 1 => 1
  | 2 | 3 => 2
  | 4 => 4
  | 5 => 8
  | _ => 16

/-- n vector registers from r on. -/
def vRegs (r n : Nat) : List RegId := (List.range n).map fun k => .v (r + k)

/-- n scalar registers from r on, modulo 64. -/
def sRegs (r n : Nat) : List RegId := (List.range n).map fun k => .s ((r + k) % 64)

/-- The registers that the vector sources of formats V and P name, the one that X-V replaces left out. -/
def kVecReads (i : KIns) (f : KInfo) : List RegId :=
  let names := if f.fmt = .p then [kPVA i, kPVB i] else [kVA i, kVB i, kVC i]
  let scal := decide (f.fmt = .p) && kScal i
  let own := (List.range 3).filterMap fun k =>
    if f.srcs.testBit k && !(kExt i && decide (kXSub i = k + 1)) then
      let r := (names[k]?).getD 0
      some (if scal then RegId.s (r % 64) else RegId.v r)
    else none
  own ++ (if kExt i && !kXKind i then [.s (kXSreg i)] else [])

/-- Scalar parameter registers of a format L opcode. -/
def kLParams (op : Nat) : Nat := match op with
  | 0xE8 => 5
  | 0xE9 => 3
  | 0xEA => 1
  | 0xF0 => 8
  | _ => 2

/-- The registers an instruction reads. -/
def kReads (i : KIns) : List RegId :=
  let op := kOp i
  let sb := if kBimm i || kExt i then [] else [RegId.s (kSB i)]
  let guard := if i.w.testBit 29 then [RegId.p (nfld i.w 25 3)] else []
  guard ++ match kInfo op with
    | none => []
    | some f => match f.fmt with
      | .c => match op with
        | 0x02 | 0x04 | 0x0C | 0x0D => [.s (kSReg i)]
        | 0x09 | 0x0B => [.p (kCP i)]
        | _ => []
      | .s => match op with
        | 0x2D => sb
        | 0x2E => sRegs (kSA i) 2 ++ sb
        | 0x30 => []
        | 0x32 | 0x33 | 0x34 => [.p (kSA i % 8), .p (kSB i % 8)]
        | 0x35 | 0x36 => [.p (kSA i % 8)]
        | 0x37 => [.s (kSA i)]
        | 0xC0 | 0xC1 => .s (kSA i) :: sRegs (kSB i) 2
        | 0xC8 => [.s (kSA i)]
        | 0xC9 => sRegs (kSA i) 2
        | _ => .s (kSA i) :: sb
      | .v => kVecReads i f ++ (if op = 0x61 then [.p (kVC i % 8)] else [])
      | .p => kVecReads i f ++ (if kComb i = 0 then [] else [.p (kPS i)])
      | .m =>
        if op = 0xB8 then []
        else
          let base := if kMSB i = 63 then [] else if kSpace i = 0 then sRegs (kMSB i) 2 else [.s (kMSB i)]
          let n := kWidthRegs (kWidth i)
          .v (kVA i) :: base ++
            (if op = 0xA1 then vRegs (kVD i) n else []) ++
            (if kAtomic op then vRegs (kXVS i) n else []) ++
            (if op = 0xB1 then vRegs (kXVC i) n else [])
      | .l => sRegs (kSP i) (kLParams op) ++ (if op = 0xE0 ∨ op = 0xE1 then vRegs (kVA i) 4 else [])

/-- The registers an instruction writes. -/
def kWrites (i : KIns) : List RegId :=
  let op := kOp i
  match kInfo op with
  | none => []
  | some f => match f.fmt with
    | .c => if op = 0x03 then [.s (kSReg i)] else []
    | .s => match op with
      | 0x2E => sRegs (kSD i) 2
      | 0x32 | 0x33 | 0x34 | 0x35 | 0x37 => [.p (kSD i % 8)]
      | 0xC0 | 0xC1 => []
      | 0xC8 => sRegs (kSD i) 2 ++ [.s (kSB i)]
      | 0xC9 => [.s (kSB i)]
      | _ => [.s (kSD i)]
    | .v => if op = 0x89 ∨ op = 0x8C ∨ op = 0x8D then [.s (kVD i % 64)] else [.v (kVD i)]
    | .p => [.p (kPD i)]
    | .m =>
      let n := kWidthRegs (kWidth i)
      if op = 0xA0 ∨ kAtomic op then vRegs (kVD i) n else if op = 0xA2 then sRegs (kVD i) n else []
    | .l => if op = 0xE0 ∨ op = 0xE1 then vRegs (kVD i) 4 else []

/-- A register number beyond VREGS (R264). -/
def regBeyond (vregs : Nat) (r : RegId) : Bool := match r with
  | .v n => decide (vregs ≤ n)
  | _ => false

/-- A pair or quad that is not aligned (R264). -/
def misaligned (r n : Nat) : Bool := decide (r % n ≠ 0)

/-- Misaligned pairs and quads of an instruction (R264, R285). -/
def kMisaligned (i : KIns) : Bool :=
  let op := kOp i
  match op with
  | 0x2E => misaligned (kSA i) 2 || misaligned (kSD i) 2
  | 0xC0 | 0xC1 => misaligned (kSB i) 2
  | 0xC8 => misaligned (kSD i) 2
  | 0xC9 => misaligned (kSA i) 2
  | _ =>
    if decide (0xA0 ≤ op) && decide (op ≤ 0xB2) then
      let n := kWidthRegs (kWidth i)
      (decide (kMSB i ≠ 63) && misaligned (kMSB i) 2) ||
        misaligned (if op = 0xA2 then kVD i % 64 else kVD i) n ||
        (kAtomic op && misaligned (kXVS i) n) || (decide (op = 0xB1) && misaligned (kXVC i) n)
    else false

/-- Modifier codes that are illegal for a memory opcode (R285). -/
def kMemIllegal (i : KIns) : Bool :=
  let op := kOp i
  decide (5 ≤ kScope i) ||
    (decide (op ≠ 0xB8) && (decide (kWidth i = 7) || decide (kSpace i = 3) ||
      (kAtomic op && decide (kWidth i ≠ 4) && (decide (kWidth i ≠ 5) || decide (op = 0xB2)))))

/-- SUBOP or IMM8 that is invalid for a format L opcode (R312, R320, R322, R323). -/
def kLongIllegal (i : KIns) : Bool :=
  match kOp i with
  | 0xE0 => decide (2 < kSubop i)
  | 0xE1 => decide (kSubop i ≠ 0)
  | 0xF0 => decide (kSubop i / 4 = 3) || decide (kImm8 i ≠ 0)
  | _ => decide (kSubop i ≠ 0) || decide (kImm8 i ≠ 0)

/-- The illegal encodings of R285 that the words and VREGS show. -/
def kIllegal (vregs : Nat) (i : KIns) : Bool :=
  match kInfo (kOp i) with
  | none => true
  | some f =>
    decide (f.ext = .no ∧ kExt i) || decide (f.ext = .req ∧ !kExt i) ||
    ((kReads i ++ kWrites i).any (regBeyond vregs)) || kMisaligned i ||
    (match f.lat with
      | .var => !(kWrites i).isEmpty && (kTok i).isNone
      | _ => (kTok i).isSome) ||
    (match f.fmt with
      | .v => kExt i && (decide (kXSub i = 0) || !f.srcs.testBit (kXSub i - 1))
      | .p => (kExt i && (decide (kXSub i = 0) || !f.srcs.testBit (kXSub i - 1))) ||
          decide (8 ≤ kCond i) || (decide (kOp i ≠ 0x80) && decide (6 ≤ kCond i))
      | .s => (decide (kOp i = 0x30) && decide (10 ≤ kSB i)) || (decide (0xC0 ≤ kOp i) && kBimm i)
      | .m => kMemIllegal i
      | .l => kLongIllegal i
      | .c => false)

end Sys2Proof.Machine
end

