-- ==== Sys2Proof/Machine/Heats.lean ====
section
/-!
DEFINITION. Heats (spec/08_heats_and_blocks.md R247 to R253; spec/09_kamir_encoding.md R273 to R285;
spec/10_kamir_semantics.md R286, R287, R328 to R335): register files, the visibility of fixed-latency results,
tokens, instruction fetch, the divergence stack's pops, and the issue of one instruction.
-/

namespace Sys2Proof.Machine

/-! ### Cores, blocks and heats -/

/-- The state with its cores and clusters changed. -/
def onClu (s : State) (f : Clu → Clu) : State := { s with clu := f s.clu }

/-- Core k. -/
def coreOf (s : State) (k : Nat) : CoreSt := (s.clu.cores[k]?).getD {}

/-- The state with core k changed. -/
def onCore (s : State) (k : Nat) (f : CoreSt → CoreSt) : State := onClu s fun c => { c with cores := modAt c.cores k f }

/-- Whether two blocks are the same piece of work. -/
def sameBlk (a b : Blk) : Bool := decide (a.id = b.id) && decide (a.kind = b.kind) && decide (a.idx = b.idx)

/-- Stores a changed resident block. -/
def putBlk (s : State) (b : Blk) : State :=
  onCore s b.core fun c => { c with blocks := c.blocks.map fun x => if sameBlk x b then b else x }

/-- A block with a changed heat. -/
def putHeat (b : Blk) (h : Heat) : Blk := { b with heats := b.heats.map fun x => if x.age = h.age then h else x }

/-- The resident heat of an age on a core, with its block. -/
def findHeat (s : State) (core age : Nat) : Option (Blk × Heat) :=
  (coreOf s core).blocks.findSome? fun b => (b.heats.find? fun h => decide (h.age = age) && !h.ended).map fun h => (b, h)

/-- The resident heat of an age on a core, ended or not, with its block. -/
def findAnyHeat (s : State) (core age : Nat) : Option (Blk × Heat) :=
  (coreOf s core).blocks.findSome? fun b => (b.heats.find? fun h => decide (h.age = age)).map fun h => (b, h)

/-- Whether a block's descriptor is in flight. -/
def blkLive (s : State) (b : Blk) : Bool := (findDesc s b.id).isSome

/-- Whether a block's descriptor has been ordered to stop, by a cancellation, a fault or the watchdog: its heats go on to
their next quiet points only (R165, R283, R334). -/
def blkCancelled (s : State) (b : Blk) : Bool :=
  match findDesc s b.id with
  | some d => d.cancel.isSome || decide (d.stage = .decided)
  | none => true

/-- Whether a block's heats have been told to stop (R257, R283). -/
def blkTold (s : State) (b : Blk) : Bool := b.stopping || blkCancelled s b

/-! ### Registers -/

/-- An unwritten register reads 0 (R241). -/
def regZero (_ : Nat) : Word := 0

/-- v(r) of a lane. -/
def hv (h : Heat) (r lane : Nat) : Word := storeGet regZero h.vregs (32 * r + lane)

/-- s(n). -/
def hs (h : Heat) (n : Nat) : Word := storeGet regZero h.sregs (n % 64)

/-- p(n). -/
def hp (h : Heat) (n : Nat) : Word := storeGet regZero h.preds (n % 8)

/-- The scalar pair at n as a number. -/
def hs64 (h : Heat) (n : Nat) : Nat := (hs h n).toNat + 2 ^ 32 * (hs h (n + 1)).toNat

/-- A register write takes effect, in its lanes (R276). -/
def regApply (h : Heat) (w : RegWrite) : Heat :=
  match w.reg with
  | .v r => { h with vregs := (onesBelow w.mask 32).foldl (fun m l => storePut regZero m (32 * r + l) ((w.vals[l]?).getD 0)) h.vregs }
  | .s n => { h with sregs := storePut regZero h.sregs (n % 64) ((w.vals[0]?).getD 0) }
  | .p n =>
    let m := BitVec.ofNat 32 w.mask
    { h with preds := storePut regZero h.preds (n % 8) ((hp h n &&& ~~~m) ||| ((w.vals[0]?).getD 0 &&& m)) }

/-- A pending write is put in the order of its distance, after those of the same distance (R276). -/
def pendInsert (p : PendWrite) : List PendWrite → List PendWrite
  | [] => [p]
  | q :: qs => if q.due ≤ p.due then q :: pendInsert p qs else p :: q :: qs

/-- The pending writes that p picks take effect, in order. -/
def heatSettle (h : Heat) (p : PendWrite → Bool) : Heat :=
  let h' := (h.pend.filter p).foldl (fun h w => regApply h w.w) h
  { h' with pend := h.pend.filter fun w => !p w }

/-- The registers as an instruction at distance d reads them (R275). -/
def heatAt (h : Heat) : Heat := heatSettle h fun w => decide (w.due ≤ h.dist)

/-- Every pending write takes effect (R281). -/
def heatQuiet (h : Heat) : Heat := heatSettle h fun _ => true

/-! ### Pops (R251) -/

/-- Emptying and arrival, repeated until neither holds; a heat with AM = 0 and no entry left ends. -/
def popLoop (lm pc am : Nat) : List (Nat × Nat) → Nat × Nat × List (Nat × Nat)
  | [] => (pc, am, [])
  | (m, a) :: st => if am = 0 ∨ a = pc then popLoop lm a (m &&& lm) st else (pc, am, (m, a) :: st)

/-- A heat after the pops before its next instruction (R251, R310). -/
def heatNormal (h : Heat) : Heat :=
  let (pc, am, st) := popLoop h.lm h.pc h.am h.stack
  { h with pc := pc, am := am, stack := st, ended := h.ended || decide (am = 0) || decide (h.lm = 0) }

/-! ### Instruction fetch (R328 to R332) -/

/-- What a fetch of an instruction word finds. -/
inductive FetchRes where
  | word (w : Nat)
  | miss (x : Xlat) (va : Nat)
  | fault (f : MFault)
deriving DecidableEq, Repr

/-- The key of the instruction-cache set of a PA. -/
def icKey (pa : Nat) : Nat := nfld pa 7 5

/-- A set of a core's instruction cache. -/
def icSet (s : State) (core key : Nat) : CacheSet := storeGet (fun _ => emptySet 4) (coreOf s core).icache key

/-- Stores a set of a core's instruction cache. -/
def icPut (s : State) (core key : Nat) (c : CacheSet) : State :=
  onCore s core fun x => { x with icache := storePut (fun _ => emptySet 4) x.icache key c }

/-- The instruction word at a VA, from the instruction cache of a core. -/
def fetchWord (s : State) (core slot va : Nat) : State × FetchRes :=
  let va := va % 2 ^ 48
  match translate s slot va accFetch with
  | (s, .error f) => (s, .fault f)
  | (s, .ok x) =>
    let c := icSet s core (icKey x.pa)
    match cacheFind c (x.pa / 128) with
    | some w =>
      let l := (cacheWay c w).getD { tag := 0, data := [], dirty := [] }
      (icPut s core (icKey x.pa) { c with plru := plruTouch 2 w c.plru },
        .word (leValue ((l.data.drop (x.pa % 128)).take 8)))
    | none => (s, .miss x va)

/-- What a fetch of a whole instruction finds. -/
inductive InsRes where
  | ins (i : KIns)
  | miss (x : Xlat) (va : Nat)
  | fault (f : MFault)
deriving DecidableEq, Repr

/-- The instruction at a heat's PC; its extension word comes from its own line (R265, R329). -/
def fetchIns (s : State) (b : Blk) (h : Heat) : State × InsRes :=
  match fetchWord s b.core b.slot (b.code + h.pc) with
  | (s, .fault f) => (s, .fault f)
  | (s, .miss x va) => (s, .miss x va)
  | (s, .word w) =>
    if w.testBit 8 then
      match fetchWord s b.core b.slot (b.code + h.pc + 8) with
      | (s, .fault f) => (s, .fault f)
      | (s, .miss x va) => (s, .miss x va)
      | (s, .word v) => (s, .ins { w := w, x := v })
    else (s, .ins { w := w })

/-- Fills the line of a PA in the instruction cache of a core with the bytes given (R328). -/
def icFill (s : State) (core pa : Nat) (bs : List Byte) : State :=
  let key := icKey pa
  let c := icSet s core key
  let w := cacheVictim 2 c
  let l : Line := { tag := pa / 128, data := bs, dirty := [] }
  icPut s core key { ways := setAt c.ways w (some l), plru := plruTouch 2 w c.plru }

/-- A line is read for a fill: whole, from the L2, or from DRAM for MTYPE 2 (R328). -/
def icLoad (s : State) (core : Nat) (x : Xlat) (va : Nat) : State × Option MFault :=
  match paRead s (.unit (2 ^ 50 + core)) { x with pa := x.pa / 128 * 128 } 128 accFetch va with
  | (s, .ok bs) => (icFill (remoteFlush s (2 ^ 50 + core)) core x.pa bs, none)
  | (s, .fault f) => (s, some { f with detail := va })
  | (s', .wait) => (retryWait s s', none)

/-! ### Issue -/

/-- Tokens that an instruction waits for implicitly: those of its registers that neither an instruction before it nor its
own WAIT names (R279). -/
def implicitToks (h : Heat) (i : KIns) : List Nat :=
  let regs := kReads i ++ kWrites i
  (List.range 8).filter fun t => !(kWait i).testBit t && h.unnamed.any fun u => decide (u.1 = t) && regs.contains u.2

/-- The count of a token. -/
def tokCount (h : Heat) (t : Nat) : Nat := (h.toks[t]?).getD 0

/-- The tokens of the effective wait mask (R279). -/
def waitMask (h : Heat) (i : KIns) : List Nat :=
  let full := match kTok i with
    | some t => if tokCount h t = 63 then [t] else []
    | none => []
  onesBelow (kWait i) 8 ++ implicitToks h i ++ full

/-- Whether every token of the effective wait mask is clear (R279). -/
def waitsClear (h : Heat) (i : KIns) : Bool := (waitMask h i).all fun t => decide (tokCount h t = 0)

/-- Whether an instruction is quieting (R281). -/
def kQuieting (h : Heat) (i : KIns) : Bool :=
  decide (kOp i = 0x05) || decide (kOp i = 0x06) || decide (kWait i ≠ 0) || !(implicitToks h i).isEmpty

/-- Whether every write that a heat has issued has taken effect for its next instruction. -/
def pendNone (h : Heat) : Bool := h.pend.all fun w => decide (w.due ≤ h.dist)

/-- Whether the boundary before an instruction is a quiet point (R281). -/
def quietPoint (h : Heat) (i : KIns) : Bool := kQuieting h i || pendNone h

/-- The guard mask GM (R267). -/
def guardMask (h : Heat) (i : KIns) : Nat :=
  let p := hp h (nfld i.w 25 3)
  if i.w.testBit 29 then (if i.w.testBit 28 then (~~~p).toNat else p.toNat) else 0xFFFFFFFF

/-- The executing mask EM (R267); BAR ignores its guard (R286). -/
def execMask (h : Heat) (i : KIns) : Nat := if kOp i = 0x06 then h.am else h.am &&& guardMask h i

/-- Divergence-stack faults of R250. -/
def stackFault (h : Heat) (i : KIns) : Bool :=
  let d := h.stack.length
  let a := (hs h (kSReg i)).toNat
  decide (execMask h i ≠ 0) && match kOp i with
    | 0x08 => decide (d = 16)
    | 0x09 => decide (14 < d)
    | 0x0A => decide (d = 0)
    | 0x0C => decide (d < 8) || decide (h.spilled = 255) || decide (a % 8 ≠ 0)
    | 0x0D => decide (8 < d) || decide (h.spilled = 0) || decide (a % 8 ≠ 0)
    | _ => false

/-- The heat as an instruction finds it: visible writes, and all of them for a quieting one. -/
def heatFor (h : Heat) (i : KIns) : Heat := if kQuieting h i then heatQuiet h else heatAt h

/-- Whether the instruction next to issue is illegal (R285). -/
def nextIllegal (b : Blk) (h : Heat) (i : KIns) : Bool :=
  kIllegal b.vregs i || (decide (16 ≤ h.nonQuiet) && !quietPoint h i) || stackFault (heatFor h i) i

/-- Whether a heat has a long instruction in flight (R324). -/
def heatLong (h : Heat) : Bool := h.ops.any fun o => decide (o.work = .engine)

/-- Whether an access of a heat has not been performed: the release at block scope of a BAR waits for it (R191, R254). -/
def heatAccess (h : Heat) : Bool :=
  h.ops.any fun o => match o.work with
    | .mem _ _ _ _ _ => true
    | .tex _ _ _ _ _ _ => true
    | .reply _ => true
    | _ => false

/-- Whether an outstanding access or SWAIT holds back memory-class instructions (R304, R307). -/
def heatHolds (h : Heat) : Bool :=
  heatAccess h || h.ops.any fun o => match o.work with
    | .swait _ _ => true
    | _ => false

/-- Whether a core's TNS unit holds the 4 instructions that it can (R319). -/
def tnsFull (s : State) (core : Nat) : Bool := decide (4 ≤ (coreOf s core).tns.length)

/-- Whether a core's TNS unit has one entry left. -/
def tnsLast (s : State) (core : Nat) : Bool := decide ((coreOf s core).tns.length = 3)

/-- Whether a core's TNS unit takes no instruction of a heat: it is full, or a tier-0 step takes its last entry (R319,
R519). -/
def tnsTaken (s : State) (core : Nat) : Bool :=
  tnsFull s core || (tnsLast s core && ((s.con.tns[core]?).any Share.tier0))

/-- Requests of a lift engine, parked ones included: at most 256 (R325). -/
def liftFull (s : State) (c : Nat) : Bool := decide (256 ≤ ((s.clu.clusters[c]?).getD {}).lifts.length)

/-- Writes of a heat to other devices that have no response yet (R192, R582). -/
def heatOwner (core age : Nat) : Nat := 1 + core + 64 * (age + 1)

/-- A system release waits for every earlier remote write of the heat (R582). -/
def sysWaits (s : State) (core age : Nat) : Bool :=
  s.vzl.reqs.any fun r => decide (r.owner = heatOwner core age) && r.data.isNone

/-- Whether an instruction performs a system release (R304, R306). -/
def sysRelease (h : Heat) (i : KIns) : Bool :=
  (decide (kOp i = 0xC0) && bit (hs h (kSA i)) 31) ||
    (decide (0xA0 ≤ kOp i) && decide (kOp i ≤ 0xB8) && decide (2 ≤ kOrd i) && decide (kScope i = 4) &&
      !((decide (kOp i = 0xA0) || decide (kOp i = 0xA2)) && decide (kOrd i = 2)))

/-- Whether a heat has something left to issue: it has not ended, faulted or arrived at the barrier, and it has not been
told to stop before the instruction given, at a quiet point (R247, R283, R334). -/
def heatGoes (s : State) (b : Blk) (h : Heat) (i : KIns) : Bool :=
  blkLive s b && !h.waiting && !h.ended && !h.faulted && !(blkTold s b && quietPoint h i)

/-- Whether the next instruction of a heat is ready, timing apart (R247, R254, R279, R304, R324). -/
def heatReady (s : State) (b : Blk) (h : Heat) (i : KIns) : Bool :=
  heatGoes s b h i && waitsClear h i &&
    !(kMemClass (kOp i) && heatHolds h) && !(decide (kOp i = 0x06) && heatAccess h) &&
    !((decide (kOp i = 0xE8) || decide (kOp i = 0xF0)) && heatLong h) &&
    !(decide (0xE8 ≤ kOp i) && decide (kOp i ≤ 0xEA) && tnsTaken s b.core) &&
    !(decide (kOp i = 0xF0) && liftFull s (b.core / 4)) &&
    !(sysRelease (heatFor h i) i && sysWaits s b.core h.age) &&
    !(decide (kOp i = 0xC0) && bit (hs (heatFor h i) (kSA i)) 31 && (vzlFreeTag s).isNone)

/-- The cycle from which a unit accepts again. -/
def unitFree (x : CoreSt) (u : Nat) : Nat := ((x.units.filter fun p => decide (p.1 = u)).map Prod.snd).foldl max 0

/-- The cycle from which a unit for an opcode accepts: the first of the two FMA pipes that does, or the one unit. -/
def unitFrom (x : CoreSt) (op : Nat) : Nat :=
  if kUnit op = 0 then min (unitFree x 0) (unitFree x 1) else unitFree x (kUnit op)

/-- The first cycle of its core in which a ready instruction of a heat may issue: two instructions a cycle, its unit, the
STALL before it, and the cycle after its tokens cleared (R248, R273, R274, R279). -/
def issueCycle (x : CoreSt) (h : Heat) (i : KIns) : Nat :=
  let slot := if 2 ≤ x.issues then x.cycle + 1 else x.cycle
  ((waitMask h i).map fun t => (h.tokAt[t]?).getD 0).foldl max (max (max slot h.readyAt) (unitFrom x (kOp i)))

/-- Whether the selection of R248 gives an instruction its turn: no older heat of the core is ready in the first cycle in
which it may issue. -/
def issueTurn (s : State) (b : Blk) (h : Heat) (i : KIns) : Bool :=
  let x := coreOf s b.core
  !(x.blocks.any fun c => c.heats.any fun g => decide (g.age < h.age) &&
    (match fetchIns s c g with
      | (_, .ins j) => heatReady s c g j && !nextIllegal c g j && decide (issueCycle x g j ≤ issueCycle x h i)
      | _ => false))

/-- Whether the next instruction of a heat may issue (R247, R248). -/
def mayIssue (s : State) (b : Blk) (h : Heat) (i : KIns) : Bool := heatReady s b h i && issueTurn s b h i

/-- Whether a descriptor's items are in tier 0 (R515). -/
def descUrgent (s : State) (id : DescId) : Bool := match findDesc s id with
  | some d => descGated d && decide (conUrgent s ≤ d.urgency)
  | none => false

/-- The accesses made from here on are work of a descriptor (R524). -/
def descAccess (s : State) (id : DescId) : State := accessAs s (.shared (descUrgent s id))

/-- The accesses made from here on are work of a block: of its step, when that is gated, or of its descriptor (R514,
R524). -/
def blkAccess (s : State) (b : Blk) : State :=
  match if b.kind = .step then s.con.steps.find? fun x => decide (x.id = b.id) && decide (x.step = b.idx) else none with
  | some x => accessAs s (.shared (decide (conUrgent s ≤ x.u)))
  | none => descAccess s b.id

/-- What an instruction's meaning works on: the heat as it reads, and what the instruction brings about. -/
structure KEnv where
  s : State
  b : Blk
  h : Heat
  i : KIns
  em : Nat
  writes : List RegWrite := []
  nextPc : Option Nat := none
  work : VarWork := .ready
  acquire : Option Nat := none
  fault : Option Result := none

/-- A heat of a block faults: it issues nothing more, the descriptor's status is decided, and its other heats go on to
their quiet points (R283, R334). -/
def heatFault (s : State) (b : Blk) (age : Nat) (r : Result) : State :=
  let stop := fun (h : Heat) => if h.age = age then { h with faulted := true } else h
  decideDesc (onCore s b.core fun x =>
    { x with blocks := x.blocks.map fun y => if sameBlk y b then { y with heats := y.heats.map stop } else y }) b.id r

/-- A faulting access of a heat: the capture of R209 and the descriptor's status (R334). -/
def unitFaultOf (s : State) (b : Blk) (age : Nat) (f : MFault) : State :=
  heatFault (mmuCapture s b.slot f) b age (faultResult f)

/-- FAULT_ILLEGAL_INSTRUCTION at a heat's PC (R285). -/
def illegalResult (b : Blk) (h : Heat) : Result := { status := 0x22, detail := (b.code + h.pc) % 2 ^ 48 }

/-- A core issues an instruction in a cycle: its slot and its unit are taken (R248, R273). -/
def coreIssue (x : CoreSt) (c op : Nat) : CoreSt :=
  let u := if kUnit op = 0 then (if unitFree x 0 ≤ c then 0 else 1) else kUnit op
  { x with cycle := c, issues := (if c = x.cycle then x.issues else 0) + 1
           units := (x.units.filter fun p => decide (c < p.2)) ++ [(u, c + kOccupancy op)] }

/-- An instruction counts as issued (R261, R284). -/
def countIssue (s : State) (core : Nat) (implicit : Bool) : State :=
  let s := inc64 s (Reg.coreIssuedLo (core / 4) (core % 4)) 1
  if implicit then satInc s (Reg.coreHazards (core / 4) (core % 4)) 1 else s

/-- The heat after issue: counts of tokens, the waits named, the quiet-point count (R278, R279, R282). -/
def heatIssued (h : Heat) (i : KIns) (quiet : Bool) : Heat :=
  let toks := match kTok i with
    | some t => modAt h.toks t fun n => n + 1
    | none => h.toks
  let left := h.unnamed.filter fun u => !(kWait i).testBit u.1
  let new := match kTok i with
    | some t => (kWrites i).map fun r => (t, r)
    | none => []
  { h with toks := toks, unnamed := left ++ new.filter (fun u => !left.contains u)
           nonQuiet := if quiet then 0 else h.nonQuiet + 1, opNum := h.opNum + 1 }

/-- The results of an instruction: fixed-latency writes become pending, a variable-latency one becomes outstanding. -/
def heatResult (h : Heat) (i : KIns) (e : KEnv) (num : Nat) : Heat :=
  match (kInfo (kOp i)).map KInfo.lat with
  | some (.fixed l) => { h with pend := e.writes.foldl (fun ps w => pendInsert { due := h.dist + l, w := w } ps) h.pend }
  | some .var =>
    if (kTok i).isNone && decide (e.work = .ready) then h
    else
      { h with ops := h.ops ++ [{ num := num, tok := kTok i, dests := kWrites i, writes := e.writes, work := e.work
                                  acquire := e.acquire, vd := kVD i, sdest := decide (kOp i = 0xA2) }] }
  | _ => h

/-- The barrier of a block completes, in a cycle of its core, when every heat that has not ended has arrived; the heats go
on in the next cycle (R253). -/
def barCheck (b : Blk) (c : Nat) : Blk :=
  let live := b.heats.filter fun h => !h.ended
  if live.any (fun h => h.waiting) && live.all (fun h => h.waiting) then
    { b with barGen := (b.barGen + 1) % 2 ^ 32
             heats := b.heats.map fun h => { h with waiting := false, readyAt := if h.waiting then c + 1 else h.readyAt } }
  else b

/-- The issue of one instruction with the effect f, which is not applied when EM is 0 (R286, R287). -/
def heatIssue (s : State) (b : Blk) (h : Heat) (i : KIns) (f : KEnv → KEnv) : State :=
  let quiet := quietPoint h i
  let implicit := !(implicitToks h i).isEmpty
  let num := h.opNum
  let hr := heatFor h i
  let em := execMask hr i
  let h1 := heatIssued hr i quiet
  let e0 : KEnv := { s := blkAccess s b, b := b, h := h1, i := i, em := em }
  let e := if em = 0 then e0 else f e0
  let c := issueCycle (coreOf s b.core) h i
  match e.fault with
  | some r => heatFault e.s b h.age r
  | none =>
    let h2 := heatResult e.h i e num
    let h3 := heatNormal { h2 with pc := e.nextPc.getD (h.pc + kLen i), dist := h2.dist + kStall i, readyAt := c + kStall i }
    let s := onCore (putBlk e.s (barCheck (putHeat e.b h3) c)) b.core fun x => coreIssue x c (kOp i)
    countIssue s b.core implicit

/-- The next instruction of a heat, when it has the opcode given, is legal and may issue, is issued (R247, R272). -/
def kamirStep (op : Nat) (f : KEnv → KEnv) (core age : Nat) (s : State) : State :=
  match findHeat s core age with
  | none => s
  | some (b, h) =>
    match fetchIns s b h with
    | (s', .ins i) => if kOp i = op ∧ !nextIllegal b h i ∧ mayIssue s' b h i then heatIssue s' b h i f else s
    | _ => s

/-- A result for a vector register in the lanes of EM (R276). -/
def vecWrite (e : KEnv) (d : Nat) (f : Nat → Word) : KEnv :=
  { e with writes := [{ reg := .v d, mask := e.em, vals := (List.range 32).map f }] }

/-- A result for a scalar register. -/
def sclWrite (e : KEnv) (d : Nat) (v : Word) : KEnv := { e with writes := [{ reg := .s d, vals := [v] }] }

/-- The lowest active lane of a mask that is not 0. -/
def lowLane (m : Nat) : Nat := ((List.range 32).find? m.testBit).getD 0

/-- A variable-latency operation completes in a cycle of its core: earlier writes of its registers take effect first, then
its result; its token's count falls (R277, R279, R280). -/
def opComplete (h : Heat) (o : VarOp) (c : Nat) : Heat :=
  let regs := o.writes.map RegWrite.reg
  let h := o.writes.foldl regApply (heatSettle h fun w => regs.contains w.w.reg)
  { h with
    toks := match o.tok with
      | some t => modAt h.toks t fun n => n - 1
      | none => h.toks
    tokAt := match o.tok with
      | some t => if tokCount h t = 1 then setAt h.tokAt t (c + 1) else h.tokAt
      | none => h.tokAt
    ops := h.ops.filter fun p => decide (p.num ≠ o.num) }

/-- Operation num of a heat completes, with a further change of the heat. -/
def opDone (s : State) (core age num : Nat) (f : Heat → Heat) : State :=
  match findAnyHeat s core age with
  | none => s
  | some (b, h) =>
    match h.ops.find? fun o => decide (o.num = num) with
    | none => s
    | some o => putBlk s (putHeat b (f (opComplete h o (coreOf s core).cycle)))

end Sys2Proof.Machine
end

