-- ==== Sys2Proof/Machine/Ltb.lean ====
section
/-!
DEFINITION. The line timebase (spec/02_line_time.md): line and frame events of LT and of the source positions,
measurement, switching, loss, recovery, hold and resume, the sync outputs, and the advance of time by one CORE cycle.
-/

namespace Sys2Proof.Machine

/-! ### Small updates -/

/-- The state with its LTB changed. -/
def onLtb (s : State) (f : Ltb → Ltb) : State := { s with ltb := f s.ltb }

/-- The state with source position k changed. -/
def onPos (s : State) (k : Nat) (f : SrcPos → SrcPos) : State := onLtb s fun l => { l with pos := modAt l.pos k f }

/-- A sample list with a new measured period in front, eight kept (R55). -/
def pushSample (p : Rat) (l : List Rat) : List Rat := (p :: l).take 8

/-- A measured period: the elapsed time rounded down, and for EXT_F divided by the nominal lines (R55). -/
def measured (s : State) (src : Nat) (t : Rat) : Rat :=
  if src = 9 then (t.floor : Rat) / (nomLines s : Nat) else (t.floor : Rat)

/-! ### Effects of a line of LT -/

/-- A pending write of LTB_NOMINAL, LTB_NOM_PERIOD, LTB_LOSS or LTB_EXT takes effect (R84). -/
def ltbApplyLine (s : State) : State := onLtb s fun l =>
  { l with nominal := rd s Reg.ltbNominal, nomPeriod := rd s Reg.ltbNomPeriod
           lossCfg := rd s Reg.ltbLoss, ext := rd s Reg.ltbExt }

/-- A pending write of LTB_SYNC_OUT (R84), CON_CTRL or CON_WEIGHT (R529) takes effect. -/
def ltbApplyFrame (s : State) : State :=
  let s := onLtb s fun l => { l with syncOut := rd s Reg.ltbSyncOut }
  { s with con := { s.con with ctrl := rd s Reg.conCtrl, weight0 := rd s Reg.conWeight0
                               weight1 := rd s Reg.conWeight1 } }

/-- At a line event of LT each dispatched descriptor has run one more line (R153). -/
def descLine (d : Desc) : Desc := if d.stage = .dispatched then { d with lines := d.lines + 1 } else d

/-- Urgency of every waiting gated descriptor is recomputed (R69). -/
def recomputeUrgency (s : State) : State :=
  let f := fun (d : Desc) => if descGated d then { d with urgency := urgencyOf s d.gate } else d
  { s with cfe := { s.cfe with descs := s.cfe.descs.map f } }

/-- LSYNC_OUT is asserted at the start of each line of LT. FSYNC_OUT is asserted at the start of a frame, and counts the
lines that have passed since (R77). -/
def syncOutLine (s : State) (frameEvent : Bool) : State := onLtb s fun l =>
  { l with lsyncOut := bit l.syncOut 1, lsyncTime := 0
           fsyncOut := if frameEvent then bit l.syncOut 0 else l.fsyncOut
           fsyncLines := if frameEvent then 0 else l.fsyncLines + 1 }

/-- Every slot's budget counter refills to BUDGET (R521); an empty slot's stays 0. -/
def refillBudgets (s : State) : State :=
  (List.range 128).foldl (fun s c => match s.ctx.slots[c]? with
    | some sl => wrN s (Reg.conBudget c) sl.image.budget
    | none => s) s

/-- TWIN_ALIVE toggles while CHECKED or UNCHECKED and not draining, and is low otherwise (R557). -/
def toggleAlive (s : State) : State :=
  { s with twin := { s.twin with alive := twinPaired s && !draining s && !s.twin.alive } }

/-- What every new line of LT brings, frame starts included: the lines of descriptors, urgency and the LT record. -/
def lineEffects (s : State) (frameEvent : Bool) : State :=
  let s := onLtb s fun l => { l with lineEvents := l.lineEvents + 1 }
  let s := { s with cfe := { s.cfe with descs := s.cfe.descs.map descLine } }
  let s := recomputeUrgency (syncOutLine s frameEvent)
  if mirroring s then sendCtrl s (ltRecord s frameEvent) else s

/-- LT takes a new frame (FRAME + 1, 0, 0), or the given FRAME (R52, R73, R74). -/
def ltStartFrame (s : State) (frame : Nat) : State :=
  let s := ltbApplyFrame (ltbApplyLine s)
  let s := onLtb s fun l => { l with frame := frame % 2 ^ 32, line := 0, elapsed := 0, fracFloor := 0, resumeHold := false
                                     twinHold := false, synthLine := false }
  let s := toggleAlive (refillBudgets s)
  lineEffects s true

/-- The next FRAME of LT. -/
def nextFrame (s : State) : Nat := (s.ltb.frame + 1) % 2 ^ 32

/-- A frame event of the followed source (R52, R53); a synthesised one sets no SHORT_FRAME (R79). -/
def ltFrame (s : State) (real : Bool) : State :=
  let s := if real && decide (s.ltb.line + 1 < nomLines s) then setEv s Reg.ltbEvents 3 else s
  ltStartFrame s (nextFrame s)

/-- A line event of LT (R52, R53): the next line, a long frame at the nominal count unless the frames are synthesised
(R79), a new frame past 0xFFFF. -/
def ltLine (s : State) : State :=
  if 0xFFFF ≤ s.ltb.line then ltFrame s true
  else
    let s := ltbApplyLine s
    let s := onLtb s fun l => { l with line := l.line + 1, elapsed := 0, fracFloor := 0, synthLine := false }
    let made := decide (11 ≤ s.ltb.active) || decide (s.ltb.flywheel ≠ .none)
    let s := if s.ltb.line = nomLines s && !made then setEv s Reg.ltbEvents 4 else s
    lineEffects s false

/-- Lines that the frame did not complete, measured against N, are added to LTB_SKIPPED_LINES (R73, R80, R712). -/
def addSkipped (s : State) : State :=
  satInc s Reg.ltbSkippedLines (srcLines s s.ltb.active - s.ltb.line)

/-- The measurement and the loss counters start again (R55, R78). -/
def ltbRestart (s : State) : State := onLtb s fun l =>
  { l with samples := [], sinceReal := 0, clean := false, missed := 0, sinceEvent := 0 }

/-- LT takes the frame start of a source it begins to follow: FRAME + 1, or the primary's FRAME for TWIN, with
the hold of R74 when that would take LT back. The frame event that it follows starts the first period of R55. -/
def ltAdopt (s : State) (src : Nat) : State :=
  let s := addSkipped s
  let s := onLtb s fun l => { l with active := src, flywheel := .none }
  let s := onLtb (ltbRestart s) fun l => { l with clean := decide (src < 11) && (srcInLines src || decide (src = 9)) }
  if src = 10 then
    if ltLt (ltMake (srcPos s 10).frame 0 0) (ltNow s) then
      onLtb s fun l => { l with twinHold := true, resumeHold := false }
    else ltStartFrame s (srcPos s 10).frame
  else ltStartFrame s (nextFrame s)

/-- A pending switch completes (R73, R79): SWITCH_PENDING clears and SWITCHED is set. -/
def ltSwitch (s : State) (src : Nat) : State :=
  let keepLost := s.ltb.lossSwitch
  let s := ltAdopt s src
  let s := onLtb s fun l => { l with pendingSrc := none, lossSwitch := false
                                     losts := if keepLost then l.losts else [] }
  setEv s Reg.ltbEvents 2

/-- LTB_SRC.SRC, FALLBACK, LOSS_ACTION and AUTO_RETURN. -/
def ltbSrcField (s : State) : Nat := rdF s Reg.ltbSrc 0 4

/-- LTB_SRC.FALLBACK. -/
def ltbFallback (s : State) : Nat := rdF s Reg.ltbSrc 4 4

/-- Acts on LTB_SRC.SRC (R73, R75): the followed source withdraws a pending switch, another one pends,
and FREE starts its frame at once. -/
def ltbActOnSrc (s : State) : State :=
  let src := ltbSrcField s
  if srcSame src s.ltb.active then onLtb s fun l => { l with pendingSrc := none, lossSwitch := false }
  else
    let s := onLtb s fun l => { l with pendingSrc := some src, lossSwitch := false }
    if 11 ≤ src then ltSwitch s src else s

/-- A switch written while LTB_CTRL.ENABLE was 0 proceeds from the cycle in which LT, held before it, resumes (R712). -/
def srcProceeds (held : Bool) (s : State) : State :=
  if held && s.ltb.srcWritten && !s.ltb.resumeHold then
    ltbActOnSrc (onLtb s fun l => { l with srcWritten := false })
  else s

/-- LT resumes after re-enable (R712). -/
def ltResume (s : State) : State :=
  let s := addSkipped s
  ltStartFrame s (nextFrame s)

/-! ### Real events -/

/-- The tolerance factor of R78. -/
def tolFactor (s : State) : Rat := (256 + fld s.ltb.lossCfg 0 8 : Nat) / (256 : Nat)

/-- The expected interval of a lost source (R78, R80): at the P held on flywheel for the source that LT left, else at the
source's own period. -/
def lostInterval (s : State) (src : Nat) : Rat :=
  let p := if s.ltb.flywheel ≠ .none ∧ s.ltb.active = src then s.ltb.heldP else posP s src
  if srcInLines src then p else (srcLines s src : Nat) * p

/-- A real event of a lost source: the first one starts the count, later ones are good within the tolerance (R80). -/
def lostEvent (limit : Rat) (x : LostSrc) : LostSrc :=
  if !x.begun then { x with begun := true, good := 0, since := 0 }
  else if x.since ≤ limit then { x with good := x.good + 1, since := 0 }
  else { x with good := 0, since := 0 }

/-- A real event of the active or of a lost source for the counters of R78 and R80.
isFrame says whether it is a frame event. -/
def noteReal (s : State) (src : Nat) (isFrame : Bool) : State :=
  if !ltbEnabled s || !(srcInLines src || isFrame) then s
  else
    let s := if src = s.ltb.active then onLtb s fun l => { l with missed := 0, sinceEvent := 0 } else s
    let limit := tolFactor s * lostInterval s src
    onLtb s fun l => { l with losts := l.losts.map fun x => if x.src = src then lostEvent limit x else x }

/-- A measuring real event of the active source (R55): a period is taken when nothing was synthesised since the
one before. -/
def measureLt (s : State) : State := onLtb s fun l =>
  { l with samples := if l.clean then pushSample (measured s l.active l.sinceReal) l.samples else l.samples
           sinceReal := 0, clean := true }

/-- LT follows real events now: enabled, not on flywheel, not held. -/
def ltFollows (s : State) : Bool :=
  ltbEnabled s && decide (s.ltb.flywheel = .none) && !s.ltb.resumeHold && !s.ltb.twinHold

/-- The hold of R74 ends once the primary's LT has passed the local LT. -/
def twinHoldCheck (s : State) : State :=
  if s.ltb.twinHold && ltLt (ltNow s) (posNow s 10) then
    if (srcPos s 10).line = 0 then ltStartFrame s (srcPos s 10).frame
    else
      let p := srcPos s 10
      let s := onLtb (ltbApplyLine s) fun l =>
        { l with twinHold := false, frame := p.frame, line := p.line, elapsed := 0, fracFloor := 0, synthLine := false }
      lineEffects s false
  else s

/-- A real line event of source src reaches the LTB (R52). -/
def ltbLineEvent (s : State) (src : Nat) : State :=
  let s := noteReal s src false
  if src = s.ltb.active ∧ s.ltb.flywheel = .none then
    let s := measureLt s
    if !ltbEnabled s then s
    else if s.ltb.twinHold then twinHoldCheck s
    else if ltFollows s then ltLine s else s
  else s

/-- A lost source has its frame event after it has recovered: SOURCE_RECOVERED, and it is no longer lost (R80). -/
def ltRegained (s : State) (src : Nat) : State :=
  onLtb (setEv s Reg.ltbEvents 1) fun l => { l with losts := l.losts.filter fun x => decide (x.src ≠ src) }

/-- Whether LT returns to a source that recovered after a switch to FALLBACK was begun: AUTO_RETURN, for SRC (R80). -/
def autoReturns (s : State) (src : Nat) : Bool := decide (rdF s Reg.ltbSrc 9 1 = 1) && srcSame src (ltbSrcField s)

/-- A lost source's frame event after it has recovered (R80). On a HOLD, or on the flywheel of a power-state return, LT
re-locks. After a switch to FALLBACK was begun it returns only with AUTO_RETURN, and the switch is then withdrawn. -/
def ltRelock (s : State) (src : Nat) : State :=
  let s := ltRegained s src
  if s.ltb.active = src ∧ !s.ltb.lossSwitch then ltAdopt s src
  else if autoReturns s src then
    ltAdopt (onLtb s fun l => if l.lossSwitch then { l with pendingSrc := none, lossSwitch := false } else l) src
  else s

/-- A real frame event reaches the LTB, of one source or of all that it is one event of (R51, R52, R73, R80, R712): LT
takes at most one frame start of it. -/
def ltbFrameEvent (s : State) (srcs : List Nat) : State :=
  let back := s.ltb.losts.find? fun x => x.recovered && srcs.contains x.src
  let s := srcs.foldl (fun s src => noteReal s src true) s
  let follows := srcs.contains s.ltb.active && decide (s.ltb.flywheel = .none)
  let s := if follows && (srcInLines s.ltb.active || decide (s.ltb.active = 9)) then measureLt s else s
  if !ltbEnabled s then s
  else
    let own := fun (s : State) =>
      if !follows then s
      else if s.ltb.resumeHold then ltResume s
      else if s.ltb.twinHold then twinHoldCheck s
      else ltFrame s true
    srcProceeds s.ltb.resumeHold <| match srcs.find? fun src => decide (s.ltb.pendingSrc = some src), back with
      | some src, none => ltSwitch s src
      | some src, some x =>
        if s.ltb.lossSwitch && autoReturns s x.src then ltRelock s x.src else ltSwitch (ltRegained s x.src) src
      | none, some x =>
        let t := ltRelock s x.src
        if t.ltb.lineEvents = s.ltb.lineEvents ∧ t.ltb.twinHold = s.ltb.twinHold then own t else t
      | none, none => own s

/-! ### Synthesised events -/

/-- Camera port n. -/
def camAt (s : State) (n : Nat) : CamPort := (s.cam[n]?).getD {}

/-- The state with camera port n changed. -/
def onCam (s : State) (n : Nat) (f : CamPort → CamPort) : State := { s with cam := modAt s.cam n f }

/-- The camera port that LT follows, if it follows one whose events have started. -/
def ltCamera (s : State) : Option Nat :=
  if 4 ≤ s.ltb.active ∧ s.ltb.active < 8 ∧ s.ltb.flywheel = .none ∧ (camAt s (s.ltb.active - 4)).started then
    some (s.ltb.active - 4)
  else none

/-- Whether LT's lines are synthesised at P (R57): FREE, EXT_F, a camera between its signalled lines, or any source on
flywheel. -/
def ltSynthesises (s : State) : Bool :=
  decide (s.ltb.flywheel ≠ .none) || decide (11 ≤ s.ltb.active) || decide (s.ltb.active = 9) || (ltCamera s).isSome

/-- A synthesised line of LT takes effect; FREE and flywheel start a frame at N (R79). -/
def ltSynthTake (s : State) : State :=
  let s := onLtb s fun l => { l with clean := l.clean && decide (l.active = 9) }
  if (s.ltb.flywheel ≠ .none ∨ 11 ≤ s.ltb.active) ∧ srcLines s s.ltb.active ≤ s.ltb.line + 1 then ltFrame s false
  else onLtb (ltLine s) fun l => { l with synthLine := true }

/-- A synthesised line of LT that follows camera port n, held until its bytes were accepted, takes effect (R488). -/
def camSynthLt (s : State) (n : Nat) : State :=
  if ltCamera s = some n ∧ ltFollows s then ltSynthTake s else s

/-- A camera event waits that gives LT its next line. -/
def camGivesLine (i : CamItem) : Bool :=
  match i with
  | .frame => true
  | .line _ _ => true
  | .synthLt => true
  | _ => false

/-- A synthesised line event of LT, due when t has reached P (R57). A camera's is held while captured bytes wait
(R488). -/
def ltSynthLine (s : State) : State :=
  if ltbEnabled s && !s.ltb.resumeHold && !s.ltb.twinHold && ltSynthesises s && decide (ltP s ≤ s.ltb.elapsed) then
    match ltCamera s with
    | none => ltSynthTake s
    | some n =>
      if (camAt s n).queue.isEmpty then ltSynthTake s
      else if (camAt s n).queue.any camGivesLine then s
      else onCam s n fun p => { p with queue := p.queue ++ [.synthLt], holds := p.holds ++ [0] }
  else s

/-! ### Source positions -/

/-- A line event of source position k; measuring ones give a period sample (R48, R55). -/
def posLine (s : State) (k : Nat) (real : Bool) : State := onPos s k fun p =>
  let p := if real then
      { p with samples := if p.clean then pushSample (measured s k p.sinceReal) p.samples else p.samples
               sinceReal := 0, clean := true }
    else { p with clean := p.clean && decide (k = 9) }
  if 0xFFFF ≤ p.line then
    { p with frame := (p.frame + 1) % 2 ^ 32, line := 0, prevLines := p.line + 1, elapsed := 0, begun := true, synth := !real }
  else { p with line := p.line + 1, elapsed := 0, begun := true, synth := !real }

/-- A frame event of source position k, to FRAME + 1 or to the FRAME a twin record carries (R48, R543). -/
def posFrame (s : State) (k : Nat) (frame : Option Nat) : State := onPos s k fun p =>
  let p := if srcInLines k || decide (k = 9) then
      { p with samples := if p.clean then pushSample (measured s k p.sinceReal) p.samples else p.samples
               sinceReal := 0, clean := true }
    else p
  { p with frame := (frame.getD (p.frame + 1)) % 2 ^ 32, line := 0, prevLines := if p.begun then p.line + 1 else 0
           elapsed := 0, begun := true, synth := false }

/-- A camera event waits that gives the source position its next line. -/
def camGivesPos (i : CamItem) : Bool :=
  match i with
  | .frame => true
  | .line _ _ => true
  | .synth => true
  | _ => false

/-- A synthesised line event of source position k: EXT_F between frames (R57), and a camera between its signalled
lines once its events have started (R50), held while captured bytes wait (R488). -/
def posSynthLine (s : State) (k : Nat) : State :=
  if (srcPos s k).elapsed < posP s k || !(srcPos s k).begun then s
  else if k = 9 then posLine s k false
  else if 4 ≤ k ∧ k < 8 then
    let p := camAt s (k - 4)
    if !p.started then s
    else if p.queue.isEmpty then posLine s k false
    else if p.queue.any camGivesPos then s
    else onCam s (k - 4) fun p => { p with queue := p.queue ++ [.synth], holds := p.holds ++ [0] }
  else s

/-- A real line event of source src: in its source position, and in LT (R48, R52). -/
def sourceLine (s : State) (src : Nat) : State := ltbLineEvent (posLine s src true) src

/-- The real start of a line of a camera source, which its source position or LT may have synthesised before: there it is
no new line, and periods are measured from it (R50, R55; DESIGN CHOICE, log entry 69). -/
def cameraLine (s : State) (src : Nat) (late lateLt : Bool) : State :=
  let s := if late then onPos s src fun p => { p with sinceReal := 0, clean := true } else posLine s src true
  if !lateLt then ltbLineEvent s src
  else if src = s.ltb.active then onLtb s fun l => { l with sinceReal := 0, clean := true } else s

/-- A real frame event of source src, to the FRAME that a twin record carries, if one does (R48, R52, R543). -/
def sourceFrame (s : State) (src : Nat) (frame : Option Nat) : State := ltbFrameEvent (posFrame s src frame) [src]

/-- A frame event of EXT and EXT_F, which is one edge of FSYNC_IN (R48). -/
def fsyncFrame (s : State) : State := ltbFrameEvent (posFrame (posFrame s 8 none) 9 none) [8, 9]

/-! ### Loss and recovery -/

/-- The expected interval of R78 for the active source. -/
def expectedInterval (s : State) : Rat :=
  if srcInLines s.ltb.active then ltP s else (srcLines s s.ltb.active : Nat) * ltP s

/-- LOSS_COUNT in effect; 0 acts as 1. -/
def lossCount (s : State) : Nat := max 1 (fld s.ltb.lossCfg 8 4)

/-- RELOCK_COUNT in effect; 0 acts as 1. -/
def relockCount (s : State) : Nat := max 1 (fld s.ltb.lossCfg 12 4)

/-- The tolerance after the last real event passes (R78, R80): a missed event is counted, or the re-lock count
starts again. -/
def ltbToleranceExpiry (s : State) : State :=
  if !ltbEnabled s then s
  else
    let s := if s.ltb.active < 11 ∧ s.ltb.flywheel ≠ .loss ∧ tolFactor s * expectedInterval s < s.ltb.sinceEvent then
        onLtb s fun l => { l with missed := l.missed + 1, sinceEvent := 0 }
      else s
    let late := fun (x : LostSrc) =>
      x.begun && !x.recovered && decide (tolFactor s * lostInterval s x.src < x.since)
    onLtb s fun l => { l with losts := l.losts.map fun x => if late x then { x with begun := false, good := 0 } else x }

/-- A source joins the lost ones with its counters at the start. -/
def addLost (l : List LostSrc) (src : Nat) : List LostSrc := (l.filter fun x => decide (x.src ≠ src)) ++ [{ src := src }]

/-- The effects of a loss (R79): SOURCE_LOST, the loss count, flywheel, and the switch to FALLBACK. Before FREE starts
its frame, the flywheel makes the line that is due. A switch that the driver has pending gives way to FALLBACK (DESIGN
CHOICE, log entry 15); one written while ENABLE was 0 proceeds, since the hold has ended (R712). -/
def ltbLose (s : State) : State :=
  let src := s.ltb.active
  let p := ltP s
  let frac := ltFrac s
  let held := s.ltb.resumeHold
  let s := satInc (setEv s Reg.ltbEvents 0) Reg.ltbLossEvents 1
  let s := onLtb s fun l => { l with flywheel := .loss, heldP := p, losts := addLost l.losts src, missed := 0
                                     resumeHold := false, twinHold := false, fracFloor := frac }
  let s := if rdF s Reg.ltbSrc 8 1 = 1 ∧ !srcSame (ltbFallback s) src then
      let s := onLtb s fun l => { l with pendingSrc := some (ltbFallback s), lossSwitch := true }
      if 11 ≤ ltbFallback s then ltSwitch (ltSynthLine s) (ltbFallback s) else s
    else s
  srcProceeds held s

/-- The active source is lost: LOSS_COUNT expected events failed to arrive, or its TG was disabled (R78). -/
def ltbLossDue (s : State) : Bool :=
  ltbEnabled s && decide (s.ltb.active < 11) && decide (s.ltb.flywheel ≠ .loss) &&
    (decide (lossCount s ≤ s.ltb.missed) ||
      (decide (s.ltb.active < 4) && decide (s.ltb.flywheel = .none) && !tgEnabled s s.ltb.active))

/-- RELOCK_COUNT good events have arrived from a lost source (R80). -/
def ltbRecover (s : State) : State :=
  if !ltbEnabled s then s
  else
    let n := relockCount s
    onLtb s fun l => { l with losts := l.losts.map fun x => if n ≤ x.good then { x with recovered := true } else x }

/-- Return from a power state in which CORE was stopped (R82). FREE's new frame adds nothing to LTB_SKIPPED_LINES
(DESIGN CHOICE, log entry 15). -/
def ltbPowerReturn (s : State) : State :=
  if 11 ≤ s.ltb.active then (if ltbEnabled s then ltStartFrame s (nextFrame s) else s)
  else
    let frac := ltFrac s
    let s := onLtb s fun l => { l with flywheel := .powerReturn, heldP := nomPeriod s, losts := addLost l.losts l.active
                                       resumeHold := false, twinHold := false, fracFloor := frac }
    ltbRestart s

/-! ### Register writes of the LTB with a row of their own -/

/-- A write of LTB_SRC (R75, R84, R712), acted on while ENABLE is 1; ignored once LTB_LOCK.LOCK is 1. -/
def ltbSrcWrite (s : State) (v : Word) : State :=
  if bit (rd0 s Reg.ltbLock) 0 then s
  else
    let s := wr s Reg.ltbSrc (v &&& 0x3FF)
    if ltbEnabled s then ltbActOnSrc (onLtb s fun l => { l with srcWritten := false })
    else onLtb s fun l => { l with srcWritten := true }

/-- A write of LTB_CTRL.ENABLE (R712). -/
def ltbEnableWrite (s : State) (v : Word) : State :=
  let was := ltbEnabled s
  let frac := ltFrac s
  let s := wr s Reg.ltbCtrl (v &&& 1)
  if !was && ltbEnabled s then
    let s := onLtb s fun l => { l with missed := 0, sinceEvent := 0 }
    let s := if s.ltb.srcWritten && srcSame (ltbSrcField s) s.ltb.active then
        ltbActOnSrc (onLtb s fun l => { l with srcWritten := false })
      else s
    if 11 ≤ s.ltb.active ∨ s.ltb.flywheel ≠ .none then srcProceeds true (ltResume s)
    else onLtb s fun l => { l with resumeHold := true }
  else if was && !ltbEnabled s then onLtb s fun l =>
    { l with fsyncOut := false, lsyncOut := false, fracFloor := frac }
  else s

/-! ### Time -/

/-- 256 x f_REF / f_CORE: what one CORE cycle adds to t, in 1/256 REF cycle (R56). -/
def cyclePeriod (s : State) : Rat := if coreMHz s = 0 then 0 else (98304 : Nat) / (10 * coreMHz s : Nat)

/-- One source position advances in time, from its source's first event on (R48). -/
def posTick (d : Rat) (p : SrcPos) : SrcPos :=
  { p with elapsed := if p.begun then p.elapsed + d else 0, sinceReal := p.sinceReal + d }

/-- The LTB advances by the time d (R56, R59, R712). -/
def ltbTick (s : State) (d : Rat) : State :=
  let run := ltbEnabled s && !s.ltb.resumeHold && !s.ltb.twinHold
  let on := ltbEnabled s
  onLtb s fun l =>
    let whole := ((l.refPart + d) / 256).floor.toNat
    { l with
      elapsed := if run then l.elapsed + d else l.elapsed
      fracFloor := if run then max l.fracFloor (fracOf (l.elapsed + d) (ltP s)) else l.fracFloor
      refcount := (l.refcount + whole) % 2 ^ 64
      refPart := l.refPart + d - (256 * whole : Nat)
      sinceReal := l.sinceReal + d
      sinceEvent := if on then l.sinceEvent + d else l.sinceEvent
      losts := if on then l.losts.map fun x => { x with since := x.since + d } else l.losts
      lsyncTime := l.lsyncTime + d
      pos := l.pos.map (posTick d) }

/-! ### Register readings -/

/-- LTB_STATUS (R83). While ENABLE is 0, LOCKED stays as the source and the flywheel give it (DESIGN CHOICE, log entry
15). -/
def ltbStatusWord (s : State) : Word :=
  BitVec.ofNat 32 (s.ltb.active % 16 +
    16 * b2n (decide (s.ltb.active < 11) && decide (s.ltb.flywheel = .none) && !s.ltb.twinHold && !s.ltb.resumeHold) +
    32 * b2n (decide (s.ltb.flywheel ≠ .none)) + 64 * b2n s.ltb.pendingSrc.isSome)

/-- LTB registers whose value is live state; none for those that stand in the register store. -/
def ltbRead (s : State) (off : Nat) : Option Word :=
  if off = Reg.ltbNowLo then some (BitVec.ofNat 32 (ltNow s))
  else if off = Reg.ltbNowHi then some (BitVec.ofNat 32 (ltNow s / 2 ^ 32))
  else if off = Reg.ltbRefcountLo then some (BitVec.ofNat 32 s.ltb.refcount)
  else if off = Reg.ltbRefcountHi then some (BitVec.ofNat 32 (s.ltb.refcount / 2 ^ 32))
  else if off = Reg.ltbStatus then some (ltbStatusWord s)
  else if off = Reg.ltbPeriod then some (BitVec.ofNat 32 ((ltP s).floor.toNat % 2 ^ 24))
  else if Reg.ltbPosLo 0 ≤ off ∧ off < Reg.ltbPosLo 11 then
    let v := posNow s ((off - Reg.ltbPosLo 0) / 8)
    some (BitVec.ofNat 32 (if (off - Reg.ltbPosLo 0) % 8 = 0 then v else v / 2 ^ 32))
  else none

/-! ### Commands -/

/-- The effect of LSYNC_OUT_END. -/
def lsyncOutEndEffect (s : State) : State :=
  if (256 * max 1 (fld s.ltb.syncOut 8 8) : Nat) ≤ s.ltb.lsyncTime then
    onLtb s fun l => { l with lsyncOut := false } else s

/-- The effect of FSYNC_OUT_END. -/
def fsyncOutEndEffect (s : State) : State :=
  if max 1 (fld s.ltb.syncOut 4 4) ≤ s.ltb.fsyncLines then
    onLtb s fun l => { l with fsyncOut := false } else s

end Sys2Proof.Machine
end

