-- ==== Sys2Proof/Machine/WorkBase.lean ====
section
/-!
DEFINITION. Work items and their rank data (spec/19_contention.md R513, R514), descriptors as units see them, and the
layer sequencer's view of its steps (spec/12_layer_programs.md R360, R361, R371 to R374).
-/

namespace Sys2Proof.Machine

/-- The state with the units' work changed. -/
def onWork (s : State) (f : Work → Work) : State := { s with work := f s.work }

/-- The state with its CON part changed. -/
def onCon (s : State) (f : Con → Con) : State := { s with con := f s.con }

/-- Whether a descriptor is dispatched and not ordered to stop: its unit may begin more of its work (R165). -/
def descRuns (s : State) (id : DescId) : Bool :=
  match findDesc s id with
  | some d => decide (d.stage = .dispatched) && d.cancel.isNone
  | none => false

/-- A descriptor by its identity, or an empty one. -/
def descOf (s : State) (id : DescId) : Desc := (findDesc s id).getD { id := id, ctx := none, words := [] }

/-- The context slot of a descriptor. -/
def descSlot (d : Desc) : Nat := d.ctx.getD 0

/-- CLASS of a descriptor: that of its context (R513); an unowned one counts as class 3. -/
def descClass (s : State) (d : Desc) : Nat :=
  match d.ctx with
  | some c => (ctxSlot s c).image.cls
  | none => 3

/-- Rank data of a descriptor (R514). -/
def descRank (s : State) (d : Desc) : Rank :=
  { cls := descClass s d, gated := descGated d, rd := if descGated d then d.gate else 0
    u := if descGated d then d.urgency else 0, ring := d.id.ring, seq := d.id.seq, stream := d.id.stream }

/-- F_ref of a descriptor (R63): the frame of its resolved gate less FOFF. -/
def descFref (d : Desc) : Nat := (ltFrameOf d.gate + 2 ^ 32 - fld (descWord d 0) 34 2) % 2 ^ 32

/-- A check-value failure of a descriptor's work: the first one gives the index, all of them count (R323, R429). -/
def noteCheck (s : State) (id : DescId) (index count : Nat) : State :=
  onDesc s id fun d =>
    let old := match d.noted with
      | some r => if r.status = 0x41 then some r else none
      | none => none
    match old with
    | some r => { d with noted := some { r with detail := r.detail % 2 ^ 32 + (r.detail / 2 ^ 32 + count) % 2 ^ 32 * 2 ^ 32 } }
    | none => { d with noted := noteResult d.noted { status := 0x41, detail := index % 2 ^ 32 + count % 2 ^ 32 * 2 ^ 32 } }

/-- A core has run work of a descriptor: it is released at retirement, and its cluster counts in the segment
(R193, R545). -/
def descRanOn (s : State) (id : DescId) (core : Nat) : State :=
  let s := onDesc s id fun d => { d with cores := if d.cores.contains core then d.cores else d.cores ++ [core] }
  match findDesc s id with
  | some d => noteCluster s d (core / 4)
  | none => s

/-! ### Layers -/

/-- The LAYER of an identity in the sequencer. -/
def layerOf (s : State) (id : DescId) : Option LayerRun := s.work.layers.find? fun l => decide (l.id = id)

/-- The state with a LAYER changed. -/
def onLayer (s : State) (id : DescId) (f : LayerRun → LayerRun) : State :=
  onWork s fun w => { w with layers := w.layers.map fun l => if l.id = id then f l else l }

/-- Word i of a step record. -/
def stepWord (r : List DWord) (i : Nat) : DWord := (r[i]?).getD 0

/-- KIND: 0 NOP, 1 LIFT, 2 TCLR, 3 TMMA, 4 TOUT, 5 BLOCK (R360). -/
def stepKind (r : List DWord) : Nat := fld (stepWord r 0) 0 4

/-- VCL. -/
def stepVcl (r : List DWord) : Nat := fld (stepWord r 0) 4 4

/-- QUEUE. -/
def stepQueue (r : List DWord) : Nat := fld (stepWord r 0) 8 3

/-- LAYER. -/
def stepLayer (r : List DWord) : Nat := fld (stepWord r 0) 12 12

/-- CAM_GATE_EN and DISP_GATE_EN. -/
def stepCamEn (r : List DWord) : Bool := bit (stepWord r 0) 24

/-- DISP_GATE_EN. -/
def stepDispEn (r : List DWord) : Bool := bit (stepWord r 0) 25

/-- DEP0 and DEP1 as step indices. -/
def stepDeps (r : List DWord) : List Nat :=
  [fld (stepWord r 0) 32 20, fld (stepWord r 1) 0 20].filterMap fun d => if d = 0 then none else some (d - 1)

/-- A LIFT step reads camera lines (SRC_SP = 2). -/
def stepCamLift (r : List DWord) : Bool := decide (stepKind r = 1) && decide (fld (stepWord r 6) 0 2 = 2)

/-- L0 and ROWS of a LIFT step. -/
def stepL0 (r : List DWord) : Nat := fld (stepWord r 2) 0 16

/-- ROWS. -/
def stepRows (r : List DWord) : Nat := fld (stepWord r 4) 32 32

/-- Step i of a LAYER as read so far. -/
def layerStep (l : LayerRun) (i : Nat) : List DWord := (l.recs[i]?).getD []

/-- Whether a step has completed. -/
def stepDone (l : LayerRun) (i : Nat) : Bool := l.finished.contains i || l.ended.any fun e => decide (e.step = i)

/-- The source position of the LAYER's camera. -/
def camPos (s : State) (l : LayerRun) : SrcPos := srcPos s (4 + l.csi)

/-- Line-window depth of a camera port (R371). -/
def camWl (s : State) (n : Nat) : Nat := rdF s (Reg.csiWin n) 0 12

/-- Whether the camera position has reached (frame, line, 0); a line beyond a frame is reached with the next one. -/
def camReached (s : State) (l : LayerRun) (frame line : Nat) : Bool :=
  let p := camPos s l
  ltGe (ltMake p.frame 0 0) (ltMake ((frame + 1) % 2 ^ 32) 0 0) || (decide (p.frame = frame) && decide (line ≤ p.line))

/-- Whether camera lines of a LIFT step are available, or their frame is past (condition 3 of R372). -/
def stepCamReady (s : State) (l : LayerRun) (r : List DWord) : Bool :=
  !stepCamLift r || camReached s l l.fc (stepL0 r + stepRows r)

/-- G_c of a step (R373). -/
def stepGc (l : LayerRun) (r : List DWord) : Nat := gateResolve l.fc (fld (stepWord r 1) 20 20)

/-- G_d of a step (R373). While the Frame Start that fixes F_d is still to come, urgency takes the FRAME that LT holds
in its place (DESIGN CHOICE, log entry 42). -/
def stepGd (s : State) (l : LayerRun) (r : List DWord) : Nat :=
  gateResolve (if l.stream then l.fd.getD s.ltb.frame else descFref (descOf s l.id)) (fld (stepWord r 1) 40 20)

/-- Whether the gates of a step can be judged: the reference frame of its DISP_GATE is fixed (R371, R373). -/
def stepJudged (l : LayerRun) (r : List DWord) : Bool := !(l.stream && stepDispEn r) || l.fd.isSome

/-- The line count of the camera's previous frame; before it has had one, LTB_NOMINAL.LINES (DESIGN CHOICE, log entry
42). -/
def camFrameLines (s : State) (l : LayerRun) : Nat :=
  let n := (camPos s l).prevLines
  if n = 0 then nomLines s else n

/-- Camera lines from the camera position to G_c, at least 0 (R374). -/
def stepCamLines (s : State) (l : LayerRun) (r : List DWord) : Nat :=
  let n := camFrameLines s l
  let now := posNow s (4 + l.csi)
  if ltGe now (stepGc l r) then 0 else (gateLines now (stepGc l r) n).toNat

/-- U of a step by its gates, the larger when both are enabled (R374). -/
def stepU (s : State) (l : LayerRun) (r : List DWord) : Nat :=
  let c := if stepCamEn r then
      (if ltGe (posNow s (4 + l.csi)) (stepGc l r) then 7 else urgencyFrom (stepCamLines s l r : Int) (horizon s))
    else 0
  let d := if stepDispEn r then urgencyOf s (stepGd s l r) else 0
  max c d

/-- An LT value k lines later, in frames of n lines. -/
def ltAddLines (v k n : Nat) : Nat :=
  let n := max 1 n
  let t := ltLineOf v + k
  if t < n then v + k * 2 ^ 16
  else ltMake ((ltFrameOf v + t / n) % 2 ^ 32) (t % n) (v % 2 ^ 16)

/-- RD of a step that is gated on camera lines alone, as it is fixed when it first becomes a candidate (R514). -/
def stepCamRd (s : State) (l : LayerRun) (r : List DWord) : Nat :=
  let p := ltP s
  let k : Nat := if p ≤ 0 then 0 else ((stepCamLines s l r : Rat) * posP s (4 + l.csi) / p).ceil.toNat
  ltAddLines (ltNow s) k (srcLines s s.ltb.active)

/-- The rank data noted for a gated step that has become a candidate. -/
def stepNoted (s : State) (id : DescId) (i : Nat) : Option StepRank :=
  s.con.steps.find? fun x => decide (x.id = id) && decide (x.step = i)

/-- Rank data of a step (R514). Its U is that of the last recomputation, and RD of one gated on camera lines alone that of
its first cycle as a candidate. -/
def stepRank (s : State) (l : LayerRun) (i : Nat) (r : List DWord) : Rank :=
  let base := descRank s (descOf s l.id)
  let u := ((stepNoted s l.id i).map StepRank.u).getD (stepU s l r)
  let k := if stepDispEn r then { base with gated := true, rd := stepGd s l r, u := u }
    else if stepCamEn r then
      { base with gated := true, u := u, rd := ((stepNoted s l.id i).map StepRank.rd).getD (stepCamRd s l r) }
    else base
  { k with step := i }

/-- The next step of a virtual cluster's queue: the first one read that has not started. -/
def queueNext (l : LayerRun) (v q : Nat) : Option Nat :=
  (List.range l.recs.length).find? fun i =>
    decide (stepVcl (layerStep l i) = v) && decide (stepQueue (layerStep l i) = q) &&
      !l.started.contains i && !stepDone l i

/-- Conditions 1 to 3 of R372 for the next step of a queue. -/
def stepReady (s : State) (l : LayerRun) (i : Nat) : Bool :=
  let r := layerStep l i
  ((List.range i).all fun j => !(decide (stepVcl (layerStep l j) = stepVcl r) && decide (stepQueue (layerStep l j) = stepQueue r)) ||
    stepDone l j) && ((stepDeps r).all fun j => stepDone l j) && stepCamReady s l r

/-- Steps of all LAYERs that are ready on a queue of a cluster, with their rank data. -/
def readySteps (s : State) (c q : Nat) : List (Rank × (DescId × Nat)) :=
  s.work.layers.flatMap fun l =>
    if l.ready && l.tableRead && descRuns s l.id then
      (List.range l.vcls.length).filterMap fun v =>
        if (l.vcls[v]?).getD 16 = c then
          match queueNext l v q with
          | some i => if stepReady s l i then some (stepRank s l i (layerStep l i), (l.id, i)) else none
          | none => none
        else none
    else []

/-- A step's window: that of its virtual cluster. -/
def stepWindow (s : State) (l : LayerRun) (v : Nat) : Window :=
  (s.mem.windows.find? fun w => decide (w.owner = l.id) && decide (w.part = v)).getD
    { owner := l.id, part := v, cluster := (l.vcls[v]?).getD 0, granules := [] }

end Sys2Proof.Machine
end

