-- ==== Sys2Proof/Machine/PlaceBase.lean ====
section
/-!
DEFINITION. Placement (spec/08_heats_and_blocks.md R234 to R245, R256): what blocks need and cores have free, the
candidates of each core in the order of R244, and the start state of a block.
-/

namespace Sys2Proof.Machine

/-! ### Resources (R236, R239) -/

/-- What a block or tile job needs of a core: heat slots, register granules and block memory units. -/
structure Need where
  heats : Nat
  granules : Nat
  bmem : Nat := 0
deriving DecidableEq, Repr

/-- What a placed block holds. -/
def blkNeed (b : Blk) : Need := { heats := b.slots, granules := b.slots * b.vregs / 8, bmem := b.bmemUnits }

/-- Heat slots held on a core. -/
def coreHeats (s : State) (k : Nat) : Nat := ((coreOf s k).blocks.map fun b => (blkNeed b).heats).foldl (· + ·) 0

/-- Register granules held on a core. -/
def coreGranules (s : State) (k : Nat) : Nat := ((coreOf s k).blocks.map fun b => (blkNeed b).granules).foldl (· + ·) 0

/-- Block memory units held on a core. -/
def coreBmem (s : State) (k : Nat) : Nat := ((coreOf s k).blocks.map fun b => (blkNeed b).bmem).foldl (· + ·) 0

/-- The fit test of R239, on the blocks of a core that stay. -/
def fitsWith (bs : List Blk) (n : Need) : Bool :=
  let sum := fun (f : Need → Nat) => (bs.map fun b => f (blkNeed b)).foldl (· + ·) 0
  decide (bs.length < 16) && decide (sum Need.heats + n.heats ≤ 48) &&
    decide (sum Need.granules + n.granules ≤ 192) && decide (sum Need.bmem + n.bmem ≤ 512)

/-- Whether a block fits a core now. -/
def coreFits (s : State) (k : Nat) (n : Need) : Bool := fitsWith (coreOf s k).blocks n

/-! ### Which clusters take work -/

/-- STATE of a cluster (R600, R606): 0 in service, 1 under test, 2 retiring, 3 removed. -/
def clusterState (s : State) (c : Nat) : Nat := rdF s (Reg.hltCluster c) 10 2

/-- Whether a descriptor holds a window, block, tile job, TNS instruction or lift request on a cluster (R600). -/
def holdsOn (s : State) (id : DescId) (c : Nat) : Bool :=
  (s.mem.windows.any fun w => decide (w.owner = id) && decide (w.cluster = c)) ||
    (((s.clu.clusters[c]?).getD {}).lifts.any fun r => decide (r.id = id)) ||
    (List.range 4).any fun k =>
      let x := coreOf s (4 * c + k)
      (x.blocks.any fun b => decide (b.id = id)) || (x.saved.any fun b => decide (b.id = id)) ||
        (x.tns.any fun o => decide (o.id = id)) || x.parked.any fun o => decide (o.id = id)

/-- Whether a cluster holds any such work. -/
def clusterHolds (s : State) (c : Nat) : Bool :=
  (s.mem.windows.any fun w => decide (w.cluster = c)) || !((s.clu.clusters[c]?).getD {}).lifts.isEmpty ||
    (List.range 4).any fun k =>
      let x := coreOf s (4 * c + k)
      !x.blocks.isEmpty || !x.saved.isEmpty || !x.tns.isEmpty || !x.parked.isEmpty

/-- Whether a descriptor may place or start work on a cluster: not on a fenced one, nor on one that leaves service,
unless it holds work there (R600, R606). -/
def mayUse (s : State) (id : DescId) (c : Nat) : Bool :=
  match clusterState s c with
  | 0 => true
  | 1 => holdsOn s id c
  | 2 => holdsOn s id c
  | _ => false

/-- The placement list L (R243). -/
def placeList (s : State) : List Nat :=
  (List.range 4).flatMap fun k => (clustersInService s).map fun c => 4 * c + k

/-- The place of a core in L. -/
def placeIndex (s : State) (core : Nat) : Option Nat := (placeList s).findIdx? fun k => decide (k = core)

/-- The lowest index below total, congruent to j modulo n, that is not in a list of those placed. -/
def nextIndex (placed : List Nat) (total j n : Nat) : Option Nat :=
  ((List.range (placed.length + 1)).map fun i => j + n * i).find? fun i => decide (i < total) && !placed.contains i

/-! ### Blocks of a DISPATCH -/

/-- T of a DISPATCH (R120). -/
def dispThreads (d : Desc) : Nat := fld (descWord d 5) 32 11

/-- VREGS. -/
def dispVregs (d : Desc) : Nat := fld (descWord d 5) 48 9

/-- BLOCK_MEM. -/
def dispBmem (d : Desc) : Nat := fld (descWord d 6) 0 10

/-- Blocks of the grid (R234). -/
def dispBlocks (d : Desc) : Nat := fld (descWord d 4) 0 32 * fld (descWord d 4) 32 32 * fld (descWord d 5) 0 32

/-- What a block of T threads needs (R236). -/
def blockNeed (threads vregs bmem : Nat) : Need :=
  let h := ceilDiv threads 32
  { heats := h, granules := h * vregs / 8, bmem := bmem }

/-- What a block of a DISPATCH needs. -/
def dispNeed (d : Desc) : Need := blockNeed (dispThreads d) (dispVregs d) (dispBmem d)

/-! ### Render passes on the cores -/

/-- Field of word i of the state block: G0 to G31, K0 at 32 (R381, R408). -/
def passFld (p : GeoPass) (i lo w : Nat) : Nat := fld ((p.sect[i]?).getD 0) lo w

/-- Word i of the state block. -/
def passWord (p : GeoPass) (i : Nat) : Nat := ((p.sect[i]?).getD 0).toNat

/-- The pass of an identity. -/
def passOf (s : State) (id : DescId) : Option GeoPass := s.work.passes.find? fun p => decide (p.id = id)

/-- The state with a pass changed. -/
def onPass (s : State) (id : DescId) (f : GeoPass → GeoPass) : State :=
  onWork s fun w => { w with passes := w.passes.map fun p => if p.id = id then f p else p }

/-- WIDTH and HEIGHT of the render area. -/
def passWidth (p : GeoPass) : Nat := passFld p 32 0 16

/-- HEIGHT. -/
def passHeight (p : GeoPass) : Nat := passFld p 32 16 16

/-- S: samples per pixel. -/
def passSamples (p : GeoPass) : Nat := if passFld p 32 32 2 = 1 then 4 else 1

/-- NCOL. -/
def passNcol (p : GeoPass) : Nat := passFld p 32 34 4

/-- FRAG_HEATS. -/
def passHeats (p : GeoPass) : Nat := passFld p 32 42 6

/-- FRAG_VREGS. -/
def passVregs (p : GeoPass) : Nat := passFld p 32 48 9

/-- TX: tile columns (R405). -/
def passTx (p : GeoPass) : Nat := ceilDiv (passWidth p) 32

/-- Tiles of the render area. -/
def passTiles (p : GeoPass) : Nat := passTx p * ceilDiv (passHeight p) 32

/-- Word j of colour target c (R409). -/
def tgtFld (p : GeoPass) (c j lo w : Nat) : Nat := passFld p (48 + 5 * c + j) lo w

/-- FMT of colour target c. -/
def tgtFmt (p : GeoPass) (c : Nat) : Nat := tgtFld p c 1 32 4

/-- b of a colour format: bytes per pixel (R412). -/
def fmtBytes (fmt : Nat) : Nat := match fmt with
  | 2 => 2
  | 4 => 8
  | 5 => 1
  | 6 => 2
  | _ => 4

/-- Offset of the plane of colour target c in the tile window (R412). -/
def planeOff (p : GeoPass) (c : Nat) : Nat :=
  ((List.range c).map fun i => 1024 * passSamples p * fmtBytes (tgtFmt p i)).foldl (· + ·) 0

/-- DEPTH_EN. -/
def passDepth (p : GeoPass) : Bool := decide (passFld p 32 38 1 = 1)

/-- STENCIL_EN. -/
def passStencil (p : GeoPass) : Bool := decide (passFld p 32 39 1 = 1)

/-- Offset of the depth plane. -/
def depthOff (p : GeoPass) : Nat := planeOff p (passNcol p)

/-- Offset of the stencil plane. -/
def stencilOff (p : GeoPass) : Nat := depthOff p + if passDepth p then 4096 * passSamples p else 0

/-- Bytes of the tile window. -/
def tileBytes (p : GeoPass) : Nat := stencilOff p + if passStencil p then 1024 * passSamples p else 0

/-- Granules of the tile window (R412). -/
def tileGranules (p : GeoPass) : Nat := ceilDiv (tileBytes p) 65536

/-- What a tile job needs of its core (R416). -/
def tileNeed (p : GeoPass) : Need := { heats := passHeats p, granules := passHeats p * passVregs p / 8 }

/-- Whether the binning phase of a pass is complete (R406). -/
def passBinned (p : GeoPass) : Bool :=
  p.began && p.fetched && p.batches.isEmpty && p.patches.isEmpty && p.outq.isEmpty

/-- RACE and STRIP_RING of a RENDER_PASS (R120). -/
def descRace (d : Desc) : Bool := bit (descWord d 3) 4

/-- STRIP_RING. -/
def descStripRing (d : Desc) : Nat := fld (descWord d 3) 0 4

/-- What a strip ring holds. -/
def raceRing (s : State) (n : Nat) : RaceRing := (s.work.race[n]?).getD {}

/-- The state with a strip ring changed. -/
def onRace (s : State) (n : Nat) (f : RaceRing → RaceRing) : State := onWork s fun w => { w with race := modAt w.race n f }

/-- The race pass of a descriptor on a ring. -/
def racePass (r : RaceRing) (id : DescId) : Option RacePass := r.passes.find? fun p => decide (p.id = id)

/-- Whether the tx tiles of a strip are stored, or, for a superseded or discarded strip, its tile jobs have ended (R442). -/
def stripStored (p : RacePass) (st : Strip) (tx : Nat) : Bool :=
  if p.superseded || p.discarded then decide (tx ≤ st.ended) else decide (tx ≤ st.stored)

/-- Whether a strip is released (R442): its tiles are stored and its read window has ended, which it has at once while
TG_m is disabled. -/
def stripReleased (s : State) (n : Nat) (p : RacePass) (k tx : Nat) : Bool :=
  let st := (p.strips[k]?).getD {}
  stripStored p st tx && (st.windowEnded || p.past || !tgEnabled s (rdF s (Reg.sringCfg n) 1 2))

/-- Whether the slot of strip k is free for a pass, or already its own (R442). -/
def stripSlotFree (s : State) (d : Desc) (k : Nat) : Bool :=
  let n := descStripRing d
  let r := raceRing s n
  let depth := max 1 (rdF s (Reg.sringCfg n) 8 4)
  match (r.slots[k % depth]?).getD none with
  | none => true
  | some (id, j) =>
    (decide (id = d.id) && decide (j = k)) ||
      (match racePass r id, passOf s id with
        | some p, some g => stripReleased s n p j (passTx g)
        | some p, none => stripReleased s n p j 0
        | none, _ => true)

/-- The next tile job of a pass for a core: the lowest tile of the core that is not placed (R416); for a race pass
only once its strip's slot is free (R442). -/
def nextTile (s : State) (p : GeoPass) (core : Nat) : Option Nat :=
  match placeIndex s core with
  | none => none
  | some j =>
    match nextIndex p.tilesPlaced (passTiles p) j (placeList s).length with
    | none => none
    | some t =>
      let d := descOf s p.id
      if descRace d && !stripSlotFree s d (t / max 1 (passTx p)) then none else some t

/-! ### Candidates (R244) -/

/-- What may be placed on a core next. -/
inductive Cand where
  | grid (id : DescId) (idx : Nat)
  | restore (id : DescId) (kind : BlkKind) (idx : Nat)
  | step (id : DescId) (idx : Nat)
  | vertex (id : DescId) (no : Nat)
  | tile (id : DescId) (t : Nat)
deriving DecidableEq, Repr

/-- What a BLOCK step needs (R363). -/
def stepNeed (r : List DWord) : Need :=
  blockNeed (fld (stepWord r 4) 0 11) (fld (stepWord r 4) 16 9) (fld (stepWord r 4) 32 10)

/-- Whether a window of n granules is free on a cluster. -/
def windowFits (s : State) (c n : Nat) : Bool := decide (n ≤ (freeGranules s c).length)

/-- What a candidate needs of the core. -/
def candNeed (s : State) (core : Nat) (c : Cand) : Need :=
  match c with
  | .grid id _ => dispNeed (descOf s id)
  | .restore id k i =>
    match (coreOf s core).saved.find? fun b => decide (b.id = id) && decide (b.kind = k) && decide (b.idx = i) with
    | some b => blkNeed b
    | none => { heats := 0, granules := 0 }
  | .step id i =>
    match layerOf s id with
    | some l => stepNeed (layerStep l i)
    | none => { heats := 0, granules := 0 }
  | .vertex id _ =>
    match passOf s id with
    | some p => blockNeed 32 (passFld p 4 0 9) 0
    | none => { heats := 0, granules := 0 }
  | .tile id _ =>
    match passOf s id with
    | some p => tileNeed p
    | none => { heats := 0, granules := 0 }

/-- A tile job also needs its window (R416). -/
def candWindow (s : State) (core : Nat) (c : Cand) : Bool :=
  match c with
  | .tile id _ =>
    match passOf s id with
    | some p => windowFits s (core / 4) (tileGranules p)
    | none => false
  | _ => true

/-- Whether the unit of a long instruction belongs to a heat of a block. -/
def ownedBy (b : Blk) (o : UnitOwner) : Bool :=
  match o with
  | .heat core age _ => decide (core = b.core) && b.heats.any fun h => decide (h.age = age)
  | _ => false

/-- A saved block's parked TMMAs also need room in the TNS unit, which holds at most 4 instructions (R319; DESIGN CHOICE,
log entry 50). -/
def candQueue (s : State) (core : Nat) (c : Cand) : Bool :=
  let x := coreOf s core
  match c with
  | .restore id k i =>
    match x.saved.find? fun b => decide (b.id = id) && decide (b.kind = k) && decide (b.idx = i) with
    | some b => decide (x.tns.length + (x.parked.filter fun t => ownedBy b t.owner).length ≤ 4)
    | none => true
  | _ => true

/-- Whether a candidate fits its core among the blocks that stay. -/
def candFits (s : State) (core : Nat) (bs : List Blk) (c : Cand) : Bool :=
  fitsWith bs (candNeed s core c) && candWindow s core c && candQueue s core c

/-- Saved blocks of a core that may be restored, ahead of candidates of the same rank (R258). -/
def restoreCands (s : State) (core : Nat) : List (Rank × Cand) :=
  (coreOf s core).saved.filterMap fun b =>
    if descRuns s b.id then
      let r := match b.kind, layerOf s b.id with
        | .step, some l => stepRank s l b.idx (layerStep l b.idx)
        | _, _ => descRank s (descOf s b.id)
      some (r, .restore b.id b.kind b.idx)
    else none

/-- The next block of each DISPATCH for a core. -/
def gridCands (s : State) (core : Nat) : List (Rank × Cand) :=
  match placeIndex s core with
  | none => []
  | some j => s.work.grids.filterMap fun g =>
      if descRuns s g.id && mayUse s g.id (core / 4) then
        (nextIndex g.placed g.total j (placeList s).length).map fun i => (descRank s (descOf s g.id), .grid g.id i)
      else none

/-- BLOCK steps that are ready on a core (R363, R372). -/
def stepCands (s : State) (core : Nat) : List (Rank × Cand) :=
  (readySteps s (core / 4) (core % 4)).filterMap fun p =>
    match layerOf s p.2.1 with
    | some l => if stepKind (layerStep l p.2.2) = 5 then some (p.1, .step p.2.1 p.2.2) else none
    | none => none

/-- Formed vertex batches whose core this is; a stalled pass holds no core (R228, R387). -/
def vertexCands (s : State) (core : Nat) : List (Rank × Cand) :=
  match placeIndex s core with
  | none => []
  | some j => s.work.passes.filterMap fun p =>
      if !p.stalled && descRuns s p.id && mayUse s p.id (core / 4) then
        match p.batches.find? fun b => !b.placed with
        | some b => if b.no % (placeList s).length = j then some (descRank s (descOf s p.id), .vertex p.id b.no) else none
        | none => none
      else none

/-- The next tile job of each binned pass for a core (R416). -/
def tileCands (s : State) (core : Nat) : List (Rank × Cand) :=
  s.work.passes.filterMap fun p =>
    if passBinned p && descRuns s p.id && mayUse s p.id (core / 4) then
      (nextTile s p core).map fun t => (descRank s (descOf s p.id), .tile p.id t)
    else none

/-- What the placement engine knows a candidate by, within its descriptor or step. -/
def candItem (c : Cand) : List Nat := match c with
  | .grid _ i => [0, i]
  | .restore _ .grid i => [1, 0, i]
  | .restore _ .step i => [1, 1, i]
  | .restore _ .vertex i => [1, 2, i]
  | .restore _ .tile i => [1, 3, i]
  | .step _ _ => [2]
  | .vertex _ n => [3, n]
  | .tile _ t => [4, t]

/-- The candidates of a core (R244). -/
def placeCands (s : State) (core : Nat) : List (Rank × Cand) :=
  (restoreCands s core ++ gridCands s core ++ stepCands s core ++ vertexCands s core ++ tileCands s core).map fun c =>
    ({ c.1 with item := candItem c.2 }, c.2)

/-- The share of the placement engine of a core. -/
def placeShare (s : State) (core : Nat) : Share := (s.con.place[core]?).getD {}

/-- Stores the share of the placement engine of a core. -/
def putPlaceShare (s : State) (core : Nat) (sh : Share) : State := onCon s fun c => { c with place := setAt c.place core sh }

/-- The top-ranked candidate of a core, with the arrivals counted in its share. -/
def placeTop (s : State) (core : Nat) : State × Option (Rank × Cand) :=
  let (sh, c) := schedPick s (placeShare s core) (placeCands s core)
  (putPlaceShare s core sh, c)

/-- The engine has placed a candidate that cost so many heats (R519). -/
def placeServed (s : State) (core : Nat) (r : Rank) (cost : Nat) : State :=
  putPlaceShare s core (schedServe s (placeShare s core) r cost)

/-! ### The start of a block (R241, R245) -/

/-- The device acquire before the first block of a descriptor on a core, with the instruction cache invalidated and
the line of CODE filled (R245, R329). -/
def coreAcquire (s : State) (core : Nat) (id : DescId) (slot code : Nat) : State :=
  if (coreOf s core).acquired.contains id then s
  else
    let s := onCore (l1Acquire s core) core fun x => { x with acquired := x.acquired ++ [id], icache := [] }
    let s := descRanOn s id core
    match translate s slot (code % 2 ^ 48) accFetch with
    | (s, .ok x) => (icLoad s core x (code % 2 ^ 48)).1
    | (s, .error _) => s

/-- The launch mask of heat h of a block of T threads (R235). -/
def launchMask (threads h : Nat) : Nat :=
  if 32 * (h + 1) ≤ threads then 0xFFFFFFFF else 2 ^ (threads - 32 * h) - 1

/-- Scalars given from s0 on. -/
def initSregs (vs : List Nat) : Store Word :=
  vs.zipIdx.foldl (fun m p => storePut regZero m p.2 (BitVec.ofNat 32 p.1)) []

/-- A heat in the start state of R241, with the vector values of some lanes given as (register, lane, value). -/
def newHeat (idx age lm : Nat) (sregs : List Nat) (vs : List (Nat × Nat × Nat)) : Heat :=
  { idx := idx, age := age, lm := lm, am := lm, sregs := initSregs sregs
    vregs := vs.foldl (fun m p => storePut regZero m (32 * p.1 + p.2.1) (BitVec.ofNat 32 p.2.2)) []
    preds := storePut regZero [] 0 (BitVec.ofNat 32 lm) }

/-- The heats of a block of T threads, with s0 to s2 and ARGS given (R241). -/
def blockHeats (threads age : Nat) (x y z args : Nat) : List Heat :=
  (List.range (ceilDiv threads 32)).map fun h =>
    let lm := launchMask threads h
    newHeat h (age + h) lm [x, y, z, h, args % 2 ^ 32, args / 2 ^ 32 % 2 ^ 32, threads]
      ((onesBelow lm 32).map fun l => (0, l, 32 * h + l))

/-- A block is put on its core: its place, the ages of its heats and the descriptor's acquire. Its heats issue nothing before
its granules and units are zeroed, one of each a cycle (R241, R245, R247). -/
def putBlock (s : State) (b : Blk) : State :=
  let s := coreAcquire s b.core b.id b.slot b.code
  let n := blkNeed b
  onCore s b.core fun x =>
    let at' := x.cycle + max n.granules n.bmem
    { x with blocks := x.blocks ++ [{ b with placed := x.placeCtr, heats := b.heats.map fun h => { h with readyAt := at' } }]
             placeCtr := x.placeCtr + 1, ageCtr := x.ageCtr + b.heats.length }

/-- Block i of a DISPATCH on a core (R234, R241). -/
def gridBlock (s : State) (d : Desc) (core i : Nat) : Blk :=
  let gx := fld (descWord d 4) 0 32
  let gy := fld (descWord d 4) 32 32
  { id := d.id, kind := .grid, idx := i, core := core, slot := descSlot d, cls := descClass s d
    code := (descWord d 2).toNat, vregs := dispVregs d, slots := (dispNeed d).heats, bmemUnits := dispBmem d
    heats := blockHeats (dispThreads d) (coreOf s core).ageCtr (i % gx) (i / gx % gy) (i / (gx * gy)) (descWord d 3).toNat }

/-- Places block i of a DISPATCH. -/
def placeGrid (s : State) (core : Nat) (id : DescId) (i : Nat) : State :=
  let s := putBlock s (gridBlock s (descOf s id) core i)
  onWork s fun w => { w with grids := w.grids.map fun g => if g.id = id then { g with placed := g.placed ++ [i] } else g }

end Sys2Proof.Machine
end

