-- ==== Sys2Proof/Machine/Place.lean ====
section
/-!
DEFINITION. The placement engine's commands (spec/08_heats_and_blocks.md R244, R245, R256 to R262): BLOCK_PLACE,
BLOCK_END, PREEMPTION, BLOCK_RESTORE, CLU_CONFIG_APPLY and DISPATCH, and the live words of the cluster registers.
-/

namespace Sys2Proof.Machine

/-! ### Placement and ends -/

/-- DISPATCH: the placement engine takes up the next one handed over; a grid of 0 blocks is done (R137, R242). -/
def dispatchBegin (s : State) : State :=
  match oldestOf s fun d => decide (descOp d = 0x09) && !d.started with
  | none => s
  | some d =>
    let s := onDesc s d.id fun d => { d with started := true }
    if dispBlocks d = 0 then unitDone s d.id 0
    else onWork s fun w => { w with grids := w.grids ++ [{ id := d.id, total := dispBlocks d }] }

/-- The top-ranked candidate of a core is placed, when it is a block of a DISPATCH that fits (R244). -/
def blockPlace (s : State) (core : Nat) : State :=
  match placeTop s core with
  | (s, some (r, .grid id i)) =>
    if candFits s core (coreOf s core).blocks (.grid id i) then
      let cost := (candNeed s core (.grid id i)).heats
      placeServed (placeGrid s core id i) core r cost
    else s
  | (s, _) => s

/-- A block's last heat has ended, with every operation of its heats (R245). -/
def blkDone (b : Blk) : Bool := b.heats.all fun h => h.ended && h.ops.isEmpty

/-- A block leaves its core. -/
def dropBlock (s : State) (b : Blk) : State :=
  onCore s b.core fun x => { x with blocks := x.blocks.filter fun y => !sameBlk y b }

/-- Whether a descriptor has a block on a core, resident or saved. -/
def hasBlocks (s : State) (id : DescId) : Bool :=
  s.clu.cores.any fun x => (x.blocks.any fun b => decide (b.id = id)) || x.saved.any fun b => decide (b.id = id)

/-- REFUSED_HEAP of a DISPATCH or LAYER with null returns of ALLOC (R125, R222). -/
def heapNote (d : Desc) : Option Result :=
  if d.nulls = 0 then none else some { status := 0x11, detail := d.nulls % 2 ^ 32 + d.minClass % 16 * 2 ^ 32 }

/-- Completion of a DISPATCH or LAYER, with its null returns noted. -/
def unitDoneHeap (s : State) (id : DescId) (detail : Nat) : State :=
  let s := match findDesc s id with
    | some d => match heapNote d with
      | some r => noteDesc s id r
      | none => s
    | none => s
  unitDone s id detail

/-- A DISPATCH whose last block has ended reports completion, with the blocks it ran (R126, R245). -/
def gridCheck (s : State) (id : DescId) : State :=
  match s.work.grids.find? fun g => decide (g.id = id) with
  | some g =>
    if g.placed.length = g.total ∧ !hasBlocks s id then
      unitDoneHeap (onWork s fun w => { w with grids := w.grids.filter fun x => decide (x.id ≠ id) }) id (g.total % 2 ^ 32)
    else s
  | none => s

/-- A step's work has completed: LT, the camera position and the overrun of this cycle are kept for its judgement
(R372, R373). -/
def stepEnded (s : State) (id : DescId) (i : Nat) (sat nan underflow : Bool) : State :=
  match layerOf s id with
  | none => s
  | some l =>
    let r := layerStep l i
    let ovr := l.overStart.contains i || (stepCamLift r && camReached s l l.fc (stepL0 r + camWl s l.csi))
    let e : StepEnd := { step := i, lt := ltNow s, cam := posNow s (4 + l.csi), overrun := ovr, sat := sat, nan := nan
                         underflow := underflow }
    onLayer s id fun l => { l with started := l.started.filter fun j => decide (j ≠ i), ended := l.ended ++ [e] }

/-! ### Stops (R165, R257, R260, R283, R325 to R327) -/

/-- The settings of R262 in effect in a core's cluster. -/
def cluOf (s : State) (c : Nat) : ClusterSt := (s.clu.clusters[c]?).getD {}

/-- The state with a cluster's part changed. -/
def onCluster (s : State) (c : Nat) (f : ClusterSt → ClusterSt) : State := onClu s fun x => { x with clusters := modAt x.clusters c f }

/-- Whether an outstanding operation of a heat no longer runs: a SWAIT waits, and a long instruction has stopped when its
unit or engine has it parked or no more (R325, R327). -/
def opStopped (s : State) (b : Blk) (h : Heat) (o : VarOp) : Bool :=
  match o.work with
  | .swait _ _ => true
  | .engine =>
    !((coreOf s b.core).tns.any fun t => decide (t.owner = .heat b.core h.age o.num)) &&
      !((cluOf s (b.core / 4)).lifts.any fun r => !r.parked && decide (r.owner = .heat b.core h.age o.num))
  | _ => false

/-- Whether a heat told to stop has stopped: it issues nothing more, at a quiet point, and nothing of it is in flight but a
SWAIT or a stopped long instruction (R257, R283, R327). -/
def heatStopped (s : State) (b : Blk) (h : Heat) : Bool :=
  (h.ended || h.waiting || h.faulted || pendNone h ||
    (match fetchIns s b h with
      | (_, .ins i) => kQuieting h i
      | _ => false)) && h.ops.all (opStopped s b h)

/-- Whether every heat of a block has stopped. -/
def blkStopped (s : State) (b : Blk) : Bool := b.heats.all (heatStopped s b)

/-- Whether no work of a descriptor runs on a core, a TNS unit, a lift engine or a CMP instance: its blocks have stopped,
every instruction and request of it has ended, has been parked or has not begun, and none of its blocks is being packed or
unpacked (R165, R325, R511). -/
def descStopped (s : State) (id : DescId) : Bool :=
  (s.clu.cores.all fun x => (x.blocks.all fun b => decide (b.id ≠ id) || blkStopped s b) &&
    x.tns.all fun o => decide (o.id ≠ id) || (!o.begun && decide (o.kind = .tmma))) &&
  (s.clu.clusters.all fun c => c.lifts.all fun r => decide (r.id ≠ id) || r.parked || (decide (r.units = 0) && !r.mid)) &&
  s.work.cmpCur.all fun c => decide (c.map CmpCur.user ≠ some (.job id))

/-- A cancelled block that has stopped, or is saved, leaves its core: nothing is saved, its resources are free, and its
parked instructions are discarded (R260, R326). -/
def freeStopped (s : State) (core : Nat) : State :=
  let gone := fun (b : Blk) => blkCancelled s b
  let out := (coreOf s core).blocks.filter fun b => gone b && blkStopped s b
  onCore s core fun x => { x with
    blocks := x.blocks.filter fun b => !out.any (sameBlk b)
    saved := x.saved.filter fun b => !gone b
    parked := x.parked.filter fun t => !(out ++ x.saved.filter gone).any fun b => ownedBy b t.owner }

/-- A block ends: its resources are freed; a BLOCK step completes after a device release (R245, R363). A cancelled block
that has stopped leaves without completing anything (R260). -/
def blockEnd (s : State) (core : Nat) : State :=
  let s := freeStopped s core
  match (coreOf s core).blocks.find? fun b => blkDone b && decide (b.kind = .grid ∨ b.kind = .step) with
  | none => s
  | some b =>
    let s := dropBlock s b
    match b.kind with
    | .step => stepEnded (l1Release s core) b.id b.idx false false false
    | _ => gridCheck s b.id

/-! ### Preemption -/

/-- Whether preemption is enabled, and the save area lies wholly in usable DRAM (R256, R257). -/
def preemptEnabled (s : State) (c : Nat) : Bool :=
  bit (cluOf s c).preempt 0 && decide ((cluOf s c).saveBase + 2 ^ 21 ≤ usable s)

/-- Whether block a is preempted before block b: the lower-ranked class first, then the more recently placed. -/
def victimBefore (a b : Blk) : Bool := decide (b.cls < a.cls) || (decide (a.cls = b.cls) && decide (b.placed < a.placed))

/-- Inserts a block in the order of preemption. -/
def victimInsert (b : Blk) : List Blk → List Blk
  | [] => [b]
  | x :: xs => if victimBefore b x then b :: x :: xs else x :: victimInsert b xs

/-- The blocks of a core that a candidate of a class may preempt, in order (R256); tile jobs are not preempted, and a block
that has been cancelled or has faulted is not saved (R260, R335). -/
def victims (s : State) (bs : List Blk) (cls : Nat) : List Blk :=
  (bs.filter fun b => decide (cls < b.cls) && decide (b.kind ≠ .tile) && !blkCancelled s b).foldl
    (fun l b => victimInsert b l) []

/-- The fewest first victims whose departure makes the candidate fit; none when no number does. -/
def victimsFor (s : State) (core : Nat) (c : Cand) (cls : Nat) : Option (List Blk) :=
  let bs := (coreOf s core).blocks
  let vs := victims s bs cls
  ((List.range (vs.length + 1)).map fun n => vs.take n).find? fun v =>
    candFits s core (bs.filter fun b => !v.any fun x => sameBlk x b) c

/-- PREEMPTION (R256): the blocks chosen are told to stop. -/
def preempt (s : State) (core : Nat) : State :=
  match placeTop s core with
  | (s, some (r, c)) =>
    let x := coreOf s core
    if preemptEnabled s (core / 4) ∧ r.cls = 0 ∧ fld (cluOf s (core / 4)).preempt 4 3 ≤ r.u ∧ x.saved = [] ∧
        !(x.blocks.any fun b => b.stopping) ∧ !candFits s core x.blocks c then
      match victimsFor s core c r.cls with
      | some v =>
        onCore s core fun x => { x with blocks := x.blocks.map fun b => if v.any fun y => sameBlk y b then { b with stopping := true } else b }
      | none => s
    else s
  | (s, none) => s

/-- The blocks of a core that have been told to stop for preemption, when all of them have stopped. A fault or a
cancellation that reaches one of them governs: nothing of it is saved (R335). -/
def stoppedBlocks (s : State) (core : Nat) : List Blk :=
  let bs := (coreOf s core).blocks.filter fun b => b.stopping && !blkCancelled s b
  if bs.all (blkStopped s) then bs else []

/-- Bytes of the save region that a block takes (R259). -/
def saveBytes (b : Blk) : Nat := 1024 * (blkNeed b).granules + 256 * b.bmemUnits + 448 * b.slots

/-- The save region of a core is written with n bytes, whose layout the spec does not give: free values (R257, log entry
50). -/
def saveWrite (s : State) (core n : Nat) : State :=
  let (bs, s) := drawBytes s n
  l2WriteN s ((cluOf s (core / 4)).saveBase + core % 4 * 0x80000) bs

/-- The stopped blocks are saved, and their resources freed: every fixed-latency write of their heats takes effect first
(R257, R283). -/
def saveBlocks (s : State) (core : Nat) (bs : List Blk) : State :=
  let s := satInc s (Reg.corePreempts (core / 4) (core % 4)) bs.length
  let s := satInc s (Reg.cluPreemptCount (core / 4)) bs.length
  let s := saveWrite s core ((bs.map saveBytes).foldl (· + ·) 0)
  onCore s core fun x => { x with
    blocks := x.blocks.filter fun b => !bs.any (sameBlk b)
    saved := x.saved ++ bs.map fun b => { b with heats := b.heats.map heatQuiet } }

/-- A saved block's parked TMMAs join the queue again, and its parked lifts become requests (R325). -/
def unpark (s : State) (b : Blk) : State :=
  let mine := ownedBy b
  let s := onCore s b.core fun x => { x with tns := x.tns ++ x.parked.filter fun t => mine t.owner
                                             parked := x.parked.filter fun t => !mine t.owner }
  onCluster s (b.core / 4) fun c => { c with lifts := c.lifts.map fun r => if mine r.owner then { r with parked := false } else r }

/-- The top-ranked candidate of a core is restored, when it is a saved block that fits (R258). -/
def blockRestore (s : State) (core : Nat) : State :=
  match placeTop s core with
  | (s, some (r, .restore id k i)) =>
    match (coreOf s core).saved.find? fun b => decide (b.id = id) && decide (b.kind = k) && decide (b.idx = i) with
    | some b =>
      if candFits s core (coreOf s core).blocks (.restore id k i) then
        let b' := { b with stopping := false, placed := (coreOf s core).placeCtr }
        let s := onCore s core fun x => { x with blocks := x.blocks ++ [b'], placeCtr := x.placeCtr + 1
                                                 saved := x.saved.filter fun y => !sameBlk y b }
        placeServed (unpark s b') core r (blkNeed b).heats
      else s
    | none => s
  | (s, _) => s

/-- A written CLU_SAVE_BASE and CLU_PREEMPT take effect once no core of the cluster holds saved blocks (R262). -/
def cluConfigApply (s : State) (c : Nat) : State :=
  if (List.range 4).any fun k => !(coreOf s (4 * c + k)).saved.isEmpty then s
  else onCluster s c fun x => { x with saveBase := rd64 s (Reg.cluSaveBaseLo c) % 2 ^ 48, preempt := rd s (Reg.cluPreempt c) }

/-! ### Live words (R261, R356) -/

/-- CORE_STATUS. -/
def coreStatusWord (s : State) (k : Nat) : Nat :=
  (coreOf s k).blocks.length + 2 ^ 8 * coreHeats s k + 2 ^ 16 * (192 - coreGranules s k) +
    2 ^ 24 * b2n (!(coreOf s k).saved.isEmpty)

/-- CLU_STATUS. -/
def cluStatusWord (s : State) (c : Nat) : Nat :=
  let sum := fun (f : Nat → Nat) => ((List.range 4).map fun k => f (4 * c + k)).foldl (· + ·) 0
  sum (fun k => (coreOf s k).blocks.length) + 2 ^ 8 * sum (coreHeats s) +
    2 ^ 16 * b2n ((List.range 4).any fun k => !(coreOf s (4 * c + k)).saved.isEmpty)

/-- TA_STATUS. -/
def taStatusWord (s : State) (k : Nat) : Nat :=
  let x := coreOf s k
  x.tns.length + 2 ^ 3 * min 4 x.parked.length + 2 ^ 6 * b2n (x.tns.any fun t => t.begun)

/-- RB_STATUS of a cluster (R430). -/
def rbStatusWord (s : State) (c : Nat) : Nat :=
  let n := (s.work.tiles.filter fun t => decide (t.core / 4 = c)).length
  b2n (decide (n ≠ 0)) + 2 * n

/-- Cluster registers whose value is live state. -/
def cluRead (s : State) (off : Nat) : Option Word :=
  if off < 0x1000000 ∨ 0x2000000 ≤ off then none
  else
    let c := (off - 0x1000000) / 0x100000
    let r := (off - 0x1000000) % 0x100000
    let k := 4 * c + (r / 0x10000 + 3) % 4
    if r = 4 then some (BitVec.ofNat 32 (cluStatusWord s c))
    else if r = 0x50000 then some (BitVec.ofNat 32 (rbStatusWord s c))
    else if 0x10000 ≤ r ∧ r < 0x50000 then
      (match r % 0x10000 with
        | 0 => some (BitVec.ofNat 32 (coreStatusWord s k))
        | 4 => some (BitVec.ofNat 32 (512 - coreBmem s k))
        | 0x100 => some (BitVec.ofNat 32 (taStatusWord s k))
        | _ => none)
    else none

end Sys2Proof.Machine
end

