-- ==== Sys2Proof/Machine/Cmp.lean ====
section
/-!
DEFINITION. The compression engine (spec/18_compression.md): the stored form of a block, packing and unpacking of one
block for any unit, PACK and UNPACK descriptors on the two instances, and the CMP registers.
-/

namespace Sys2Proof.Machine

/-! ### The stored form (R499 to R503) -/

/-- One bit of the reflected CRC-32C. -/
def crcBit (c : Nat) : Nat := if c % 2 = 1 then (c / 2) ^^^ 0x82F63B78 else c / 2

/-- One byte of the CRC-32C. -/
def crcByte (c : Nat) (b : Byte) : Nat := (List.range 8).foldl (fun c _ => crcBit c) (c ^^^ b.toNat)

/-- The CRC-32C of some bytes (R503). -/
def crc32c (bs : List Byte) : Nat := bs.foldl crcByte 0xFFFFFFFF ^^^ 0xFFFFFFFF

/-- n little-endian 64-bit words of a list of bytes. -/
def wordsLE : Nat → List Byte → List Nat
  | 0, _ => []
  | n + 1, bs => leValue (bs.take 8) :: wordsLE n (bs.drop 8)

/-- The byte differences d_k of a word to the one before, each modulo 256. -/
def cmpDiffs (w p : Nat) : List Nat := (List.range 8).map fun k => (nfld w (8 * k) 8 + 256 - nfld p (8 * k) 8) % 256

/-- The tag and payload of a word after the word p (R500). -/
def cmpClass (w p : Nat) : Nat × List Byte :=
  let ds := cmpDiffs w p
  if w = 0 then (0, [])
  else if w = p then (1, [])
  else if ds.all fun d => decide (d < 8 ∨ 248 ≤ d) then
    (2, leBytes (ds.zipIdx.foldl (fun a d => a + d.1 % 16 * 16 ^ d.2) 0) 4)
  else (3, leBytes w 8)

/-- The tags and payloads of words that follow the word p. -/
def cmpClasses : Nat → List Nat → List (Nat × List Byte)
  | _, [] => []
  | p, w :: ws => cmpClass w p :: cmpClasses w ws

/-- The packed form of a block of 4,096 bytes, zero padding included (R501, R502). -/
def cmpPacked (orig : List Byte) : List Byte :=
  let cs := cmpClasses 0 (wordsLE 512 orig)
  let payload := cs.flatMap Prod.snd
  let tags := leBytes (cs.zipIdx.foldl (fun a c => a + c.1.1 * 4 ^ c.2) 0) 128
  let h0 := crc32c orig + (128 + payload.length) * 2 ^ 32 + 2 ^ 48
  let bs := leBytes h0 8 ++ leBytes 0 8 ++ tags ++ payload
  bs ++ List.replicate (ceilDiv bs.length 64 * 64 - bs.length) 0

/-- The stored form of a block, packed or raw; its length is SIZE (R504). -/
def cmpStored (orig : List Byte) : List Byte :=
  let p := cmpPacked orig
  if p.length ≤ 4032 then p else orig

/-- Payload bytes of a tag. -/
def tagBytes (t : Nat) : Nat := if t = 2 then 4 else if t = 3 then 8 else 0

/-- The word that a tag and its payload rebuild after the word p (R506). -/
def cmpRebuild (t p payload : Nat) : Nat :=
  match t with
  | 0 => 0
  | 1 => p
  | 2 => (List.range 8).foldl (fun a k =>
      a + wrapU ((nfld p (8 * k) 8 : Int) + sext (nfld payload (4 * k) 4) 4) 8 * 256 ^ k) 0
  | _ => payload

/-- The words that tags and payloads rebuild. -/
def cmpWords : Nat → List Nat → List Byte → List Nat
  | _, [], _ => []
  | p, t :: ts, bs =>
    let w := cmpRebuild t p (leValue (bs.take (tagBytes t)))
    w :: cmpWords w ts (bs.drop (tagBytes t))

/-- The unpacked form of a slot with a size, or the cause of R506. -/
def cmpUnpacked (size : Nat) (slot : List Byte) : Except Nat (List Byte) :=
  if size = 4096 then .ok (slot.take 4096)
  else if size = 0 ∨ 4032 < size ∨ size % 64 ≠ 0 then .error 0
  else
    let h0 := leValue (slot.take 8)
    let len := nfld h0 32 13
    let tagWord := leValue ((slot.drop 16).take 128)
    let tags := (List.range 512).map fun i => nfld tagWord (2 * i) 2
    if nfld h0 48 4 ≠ 1 ∨ ceilDiv (16 + len) 64 * 64 ≠ size then .error 1
    else if 128 + (tags.map tagBytes).foldl (· + ·) 0 ≠ len then .error 2
    else
      let bs := (cmpWords 0 tags (slot.drop 144)).flatMap fun w => leBytes w 8
      if crc32c bs = h0 % 2 ^ 32 then .ok bs else .error 3

/-! ### One block on an instance -/

/-- The jobs bound to an instance. -/
def cmpJobs (s : State) (i : Nat) : List CmpJob := (s.work.cmp[i]?).getD []

/-- The state with the jobs of an instance changed. -/
def onCmp (s : State) (i : Nat) (f : List CmpJob → List CmpJob) : State :=
  onWork s fun w => { w with cmp := modAt w.cmp i f }

/-- The counts and the event of a packed block of SIZE bytes (R512). -/
def cmpPackNote (s : State) (i size : Nat) : State :=
  let s := inc64 (inc64 s (Reg.cmpOrigLo i) 4096) (Reg.cmpStoredLo i) size
  if size = 4096 then setEv (satInc s (Reg.cmpRaw i) 1) Reg.cmpEvents 1 else satInc s (Reg.cmpPacked i) 1

/-- The counts of an unpacked block, and the capture of a failing one, whose slot lies at a PA (R512). -/
def cmpUnpackNote (s : State) (i size : Nat) (cause : Option Nat) (pa slot : Nat) : State :=
  let s := inc64 (inc64 s (Reg.cmpOrigLo i) 4096) (Reg.cmpStoredLo i) (min size 4096)
  let s := satInc s (Reg.cmpUnpacked i) 1
  match cause with
  | none => s
  | some c =>
    captureErr (satInc s (Reg.cmpCheckErrs i) 1) Reg.cmpEvents 0 fun s =>
      wrN (wr64 s Reg.cmpCheckAddrLo (pa % 2 ^ 48)) Reg.cmpCheckInfo (c + 4 * i + 16 * (slot % 128))

/-- A digested write at a key address, one element set per 64 bytes from its start (R589). -/
def digestBeats (s : State) (d : Desc) (t : Tap) (key : Nat) (bs : List Byte) : State :=
  (List.range (ceilDiv bs.length 64)).foldl (fun s i =>
    digestWrite s d t (key + 64 * i) (((bs.drop (64 * i)).take 64).map some)) s

/-! ### PACK and UNPACK (R508 to R511) -/

/-- SRC, DST, SIZES and BLOCKS of a PACK or UNPACK (R120). -/
def packSrc (d : Desc) : Nat := (descWord d 2).toNat

/-- DST. -/
def packDst (d : Desc) : Nat := (descWord d 3).toNat

/-- SIZES. -/
def packSizes (d : Desc) : Nat := (descWord d 5).toNat

/-- BLOCKS. -/
def packBlocks (d : Desc) : Nat := fld (descWord d 4) 0 24

/-- The instance with fewer queued descriptors, CMP_0 when the counts are equal (R508). -/
def cmpFewer (s : State) : Nat := if (cmpJobs s 1).length < (cmpJobs s 0).length then 1 else 0

/-- A PACK or UNPACK is handed over: it is bound to an instance (R508). -/
def cmpBind (s : State) (d : Desc) (pack : Bool) : State :=
  onCmp s (cmpFewer s) fun js => js ++ [{ id := d.id, pack := pack }]

/-- A bound PACK or UNPACK is taken up. -/
def cmpTake (s : State) (op : Nat) : State :=
  match oldestOf s fun d => decide (descOp d = op) && !d.started with
  | none => s
  | some d => onDesc s d.id fun d => { d with started := true }

/-! ### Who has the next block (R508, R514) -/

/-- Lift requests of a cluster. -/
def liftsOf (s : State) (c : Nat) : List LiftReq := (cluOf s c).lifts

/-- The block that holds the heat of an age on a core, resident or saved. -/
def blkOfHeat (s : State) (core age : Nat) : Option Blk :=
  let x := coreOf s core
  (x.blocks ++ x.saved).find? fun b => b.heats.any fun h => decide (h.age = age)

/-- What a scheduler knows a lift request by, within its descriptor or step. -/
def ownerItem (o : UnitOwner) : List Nat := match o with
  | .heat core age num => [0, core, age, num]
  | .step _ _ => [1]
  | .desc => [2]

/-- Rank data of a lift request: those of the work that issued it (R514). -/
def liftRank (s : State) (r : LiftReq) : Rank :=
  let ofStep := fun (id : DescId) (i : Nat) => match layerOf s id with
    | some l => stepRank s l i (layerStep l i)
    | none => descRank s (descOf s id)
  let k := match r.owner with
    | .step id i => ofStep id i
    | .heat core age _ => match blkOfHeat s core age with
      | some b => if b.kind = BlkKind.step then ofStep b.id b.idx else descRank s (descOf s r.id)
      | none => descRank s (descOf s r.id)
    | .desc => descRank s (descOf s r.id)
  { k with item := ownerItem r.owner }

/-- A job by its descriptor. -/
def cmpJob (s : State) (id : DescId) : Option CmpJob := (cmpJobs s 0 ++ cmpJobs s 1).find? fun j => decide (j.id = id)

/-- The lift request that an instance is asked for. -/
def cmpLift (s : State) (c : Nat) (o : UnitOwner) (id : DescId) : Option LiftReq :=
  (liftsOf s c).find? fun r => decide (r.owner = o) && decide (r.id = id)

/-- Rank data of a block request: those of the work that issued it; none where that asks for no block any more. -/
def cmpRank (s : State) (u : CmpUser) : Option Rank :=
  match u with
  | .job id => (cmpJob s id).bind fun j =>
      if descRuns s id && (descOf s id).started then some { descRank s (descOf s id) with item := [0, j.next] } else none
  | .lift c o id => (cmpLift s c o id).bind fun r =>
      if r.parked then none else some { liftRank s r with item := [1, c] ++ ownerItem o ++ [r.units] }
  | .tile id t pack =>
    if descRuns s id && s.work.tiles.any fun j => decide (j.id = id) && decide (j.tile = t) then
      some { descRank s (descOf s id) with item := [2, t, b2n pack] }
    else none

/-- The block requests that an instance chooses among: the next blocks of its descriptors, and the units' that wait. -/
def cmpCands (s : State) (i : Nat) : List (Rank × CmpUser) :=
  ((cmpJobs s i).map fun j => CmpUser.job j.id) ++ s.work.cmpWaits |>.filterMap fun u => (cmpRank s u).map fun r => (r, u)

/-- The choice of an instance that is free. -/
def cmpPick (s : State) (i : Nat) : Share × Option (Rank × CmpUser) := schedPick s ((s.con.cmp[i]?).getD {}) (cmpCands s i)

/-- The block in progress on an instance. -/
def cmpCurOf (s : State) (i : Nat) : Option CmpCur := (s.work.cmpCur[i]?).getD none

/-- The state with the block in progress on an instance changed. -/
def onCmpCur (s : State) (i : Nat) (f : CmpCur → CmpCur) : State :=
  onWork s fun w => { w with cmpCur := modAt w.cmpCur i fun c => c.map f }

/-- A free instance begins the block that it chooses, at a cost of 1 (R519). -/
def cmpBegin (s : State) (i : Nat) : State :=
  match cmpPick s i with
  | (_, none) => s
  | (sh, some (r, u)) =>
    let s := onCon s fun c => { c with cmp := setAt c.cmp i (schedServe s sh r 1) }
    onWork s fun w => { w with cmpCur := setAt w.cmpCur i (some { user := u }), cmpWaits := w.cmpWaits.filter fun x => decide (x ≠ u) }

/-- An instance is free again. -/
def cmpRelease (s : State) (i : Nat) : State := onWork s fun w => { w with cmpCur := setAt w.cmpCur i none }

/-- The instance on which a unit's block is in progress. -/
def cmpHolder (s : State) (u : CmpUser) : Option Nat :=
  (List.range 2).find? fun i => (cmpCurOf s i).any fun c => decide (c.user = u)

/-- A lift or a tile job asks for a block: it takes the first instance that is free and chooses it, CMP_0 before CMP_1,
and waits while there is none (R508). -/
def cmpAcquire (s : State) (u : CmpUser) : State × Option Nat :=
  match cmpHolder s u with
  | some i => (s, some i)
  | none =>
    let s := if s.work.cmpWaits.contains u then s else onWork s fun w => { w with cmpWaits := w.cmpWaits ++ [u] }
    match (List.range 2).find? fun i => (cmpCurOf s i).isNone && decide ((cmpPick s i).2.map Prod.snd = some u) with
    | some i => (cmpBegin s i, some i)
    | none => (s, none)

/-! ### One block (R504, R506, R507) -/

/-- The stored form of a block goes to its slot, and then SIZE to its size entry; what waits for another device goes on
from there (R504). -/
def cmpPackOut (s : State) (i : Nat) (st : List Byte) (slot entry : State → List Byte → State × AccRes Unit) :
    State × AccRes Nat :=
  match if (cmpCurOf s i).any CmpCur.slotDone then (s, .ok ()) else slot s st with
  | (s', .wait) => (retryWait s s', .wait)
  | (s, .fault f) => (cmpRelease s i, .fault f)
  | (s, .ok _) =>
    let s := onCmpCur s i fun c => { c with slotDone := true }
    match entry s (leBytes st.length 4) with
    | (s', .wait) => (retryWait s s', .wait)
    | (s, .fault f) => (cmpRelease s i, .fault f)
    | (s, .ok _) => (cmpRelease (cmpPackNote s i st.length) i, .ok st.length)

/-- An instance packs one block: the original is read once and whole, then the slot and the entry are written (R504). The
answer is SIZE. -/
def cmpPack (s : State) (i owner : Nat) (read : State → State × AccRes (List Byte))
    (slot entry : State → List Byte → State × AccRes Unit) : State × AccRes Nat :=
  match (cmpCurOf s i).bind CmpCur.bytes with
  | some st => cmpPackOut s i st slot entry
  | none => match read s with
    | (s', .wait) => (retryWait s s', .wait)
    | (s, .fault f) => (cmpRelease s i, .fault f)
    | (s, .ok bs) =>
      let st := cmpStored bs
      cmpPackOut (onCmpCur (remoteFlush s owner) i fun c => { c with bytes := some st, size := st.length }) i st slot entry

/-- The rebuilt block goes to its destination. The answer says whether it failed its check (R506). -/
def cmpUnpackOut (s : State) (i slotNo : Nat) (write : State → List Byte → State × AccRes Unit) : State × AccRes Bool :=
  match cmpCurOf s i with
  | none => (s, .wait)
  | some c => match write s (c.bytes.getD []) with
    | (s', .wait) => (retryWait s s', .wait)
    | (s, .fault f) => (cmpRelease s i, .fault f)
    | (s, .ok _) => (cmpRelease (cmpUnpackNote s i c.size c.cause c.pa slotNo) i, .ok c.cause.isSome)

/-- An instance unpacks one block: its entry and its slot, at a PA, are read once, then the destination is written (R506). -/
def cmpUnpack (s : State) (i owner slotNo : Nat) (entry : State → State × AccRes (List Byte))
    (slot : State → Nat → State × AccRes (List Byte)) (pa : State → Nat) (write : State → List Byte → State × AccRes Unit) :
    State × AccRes Bool :=
  if ((cmpCurOf s i).bind CmpCur.bytes).isSome then cmpUnpackOut s i slotNo write
  else
    match entry s with
    | (s', .wait) => (retryWait s s', .wait)
    | (s, .fault f) => (cmpRelease s i, .fault f)
    | (s1, .ok eb) =>
      let size := leValue eb % 2 ^ 13
      match slot s1 (min size 4096) with
      | (s', .wait) => (retryWait s s', .wait)
      | (s, .fault f) => (cmpRelease s i, .fault f)
      | (s, .ok sl) =>
        let x : List Byte × Option Nat := match cmpUnpacked size sl with
          | .ok bs => (bs, none)
          | .error e => (List.replicate 4096 0, some e)
        let s := onCmpCur (remoteFlush s owner) i fun c => { c with bytes := some x.1, size := size, cause := x.2, pa := pa s }
        cmpUnpackOut s i slotNo write

/-! ### Blocks of PACK and UNPACK (R509 to R511) -/

/-- The requester number of an instance at other devices. -/
def cmpOwner (i : Nat) : Nat := 2 ^ 51 + i

/-- A read for a block of a descriptor. -/
def cmpRead (s : State) (i : Nat) (d : Desc) (va n : Nat) : State × AccRes (List Byte) :=
  vaRead (descAccess s d.id) (.unit (cmpOwner i)) (descSlot d) va n accLoad

/-- A write of a block of a descriptor, with its elements. -/
def cmpWrite (s : State) (i : Nat) (d : Desc) (va : Nat) (bs : List Byte) : State × AccRes Unit :=
  match vaWrite (descAccess s d.id) (.unit (cmpOwner i)) (descSlot d) va (bs.map some) with
  | (s, .ok u) => (digestBeats s d {} (va % 2 ^ 48) bs, .ok u)
  | x => x

/-- A job after a block; the last one ends the descriptor (R126, R509). -/
def cmpNext (s : State) (i : Nat) (d : Desc) (j : CmpJob) : State :=
  if j.next < packBlocks d then onCmp s i fun js => js.map fun x => if x.id = j.id then j else x
  else
    let s := onCmp s i fun js => js.filter fun x => decide (x.id ≠ j.id)
    if j.bad = 0 then unitDone s d.id (if j.pack then j.sum else 4096 * packBlocks d)
    else if j.pack then
      unitDone (noteDesc s d.id { status := 0x40, detail := j.bad % 2 ^ 32 + j.firstBad % 2 ^ 32 * 2 ^ 32 }) d.id 0
    else unitDone (noteDesc s d.id { status := 0x41, detail := j.firstBad % 2 ^ 32 + j.bad % 2 ^ 32 * 2 ^ 32 }) d.id 0

/-- A job with the result of its next block: SIZE bytes written, and whether it is raw or has failed its check. -/
def cmpAfter (j : CmpJob) (size : Nat) (bad : Bool) : CmpJob :=
  { j with next := j.next + 1, sum := j.sum + size, bad := j.bad + b2n bad
           firstBad := if bad && decide (j.bad = 0) then j.next else j.firstBad }

/-- The PA of a VA, 0 when it has none. -/
def paOf (s : State) (slot va : Nat) : Nat := match (translate s slot va accLoad).2 with
  | .ok x => x.pa
  | .error _ => 0

/-- The block in progress of a PACK (R504, R509, R510). -/
def cmpPackBlock (s : State) (i : Nat) (d : Desc) (j : CmpJob) : State :=
  match cmpPack s i (cmpOwner i) (fun s => cmpRead s i d (packSrc d + 4096 * j.next) 4096)
      (fun s bs => cmpWrite s i d (packDst d + 4096 * j.next) bs) (fun s bs => cmpWrite s i d (packSizes d + 4 * j.next) bs) with
  | (s, .wait) => s
  | (s, .fault f) => unitFault s d f
  | (s, .ok size) => cmpNext s i d (cmpAfter j size (decide (size = 4096)))

/-- The block in progress of an UNPACK (R506, R509, R510). -/
def cmpUnpackBlock (s : State) (i : Nat) (d : Desc) (j : CmpJob) : State :=
  let slotVa := packSrc d + 4096 * j.next
  match cmpUnpack s i (cmpOwner i) (descSlot d) (fun s => cmpRead s i d (packSizes d + 4 * j.next) 4)
      (fun s n => cmpRead s i d slotVa n) (fun s => paOf s (descSlot d) slotVa)
      (fun s bs => cmpWrite s i d (packDst d + 4096 * j.next) bs) with
  | (s, .wait) => s
  | (s, .fault f) => unitFault s d f
  | (s, .ok bad) => cmpNext s i d (cmpAfter j 0 bad)

/-- The block that an instance has begun for a descriptor goes on to its end, or to a wait for another device. -/
def cmpGoOn (s : State) (i : Nat) (id : DescId) : State :=
  match (cmpJobs s i).find? fun j => decide (j.id = id) with
  | some j => if j.pack then cmpPackBlock s i (descOf s id) j else cmpUnpackBlock s i (descOf s id) j
  | none => s

/-- Whether a block that an instance processes is unpacked. -/
def cmpUnpacks (s : State) (u : CmpUser) : Bool := match u with
  | .job id => (cmpJob s id).any fun j => !j.pack
  | .lift c o id => (cmpLift s c o id).any fun r => decide (r.comp = 2)
  | .tile _ _ pack => !pack

/-- The block in progress on an instance, or else the one that it begins next. -/
def cmpBusyWith (s : State) (i : Nat) : Option CmpUser :=
  match cmpCurOf s i with
  | some c => some c.user
  | none => (cmpPick s i).2.map Prod.snd

/-- An instance finishes the block in progress, or begins and finishes the one it chooses, when that is a descriptor's of
the kind given; a cancelled one's block in progress too (R508, R511). -/
def cmpBlock (s : State) (i : Nat) (pack : Bool) : State :=
  match cmpBusyWith s i with
  | some (.job id) =>
    if cmpUnpacks s (.job id) = pack then s
    else cmpGoOn (if (cmpCurOf s i).isSome then s else cmpBegin s i) i id
  | _ => s

/-- CMP_i_STATUS, the live word of the CMP registers (R512). -/
def cmpRegRead (s : State) (off : Nat) : Option Word :=
  let one := fun (i : Nat) =>
    let u := cmpBusyWith s i
    some (BitVec.ofNat 32 (b2n u.isSome + 2 * (cmpJobs s i).length + 16 * b2n (u.any (cmpUnpacks s))))
  if off = Reg.cmpStatus 0 then one 0 else if off = Reg.cmpStatus 1 then one 1 else none

end Sys2Proof.Machine
end

