-- ==== Sys2Proof/Machine/Fp.lean ====
section
/-!
DEFINITION. Floating point (spec/10_kamir_semantics.md R289 to R292, R314; spec/14_tiles_and_bins.md R427): binary
formats, exact dyadic values, one rounding, the arithmetic of the vector instructions, and sRGB.
-/

namespace Sys2Proof.Machine

/-- A binary interchange format: exponent and fraction widths. -/
structure FpFmt where
  eb : Nat
  mb : Nat
deriving DecidableEq, Repr

/-- binary32. -/
def fp32 : FpFmt := { eb := 8, mb := 23 }

/-- binary16. -/
def fp16 : FpFmt := { eb := 5, mb := 10 }

/-- BF16. -/
def bf16 : FpFmt := { eb := 8, mb := 7 }

/-- A value: NaN, an infinity, or a sign with a dyadic magnitude m * 2^e. -/
inductive FVal where
  | nan
  | inf (neg : Bool)
  | num (neg : Bool) (m : Nat) (e : Int)
deriving DecidableEq, Repr

/-- The exponent bias. -/
def fpBias (f : FpFmt) : Nat := 2 ^ (f.eb - 1) - 1

/-- The value that an encoding holds; subnormals are kept (R289). -/
def fpDecode (f : FpFmt) (x : Nat) : FVal :=
  let neg := x.testBit (f.eb + f.mb)
  let e := nfld x f.mb f.eb
  let m := x % 2 ^ f.mb
  if e = 2 ^ f.eb - 1 then (if m = 0 then .inf neg else .nan)
  else if e = 0 then .num neg m (1 - (fpBias f : Int) - f.mb)
  else .num neg (2 ^ f.mb + m) ((e : Int) - fpBias f - f.mb)

/-- The canonical NaN of a format: the top fraction bit set (R289, R291). -/
def fpNan (f : FpFmt) : Nat := (2 ^ f.eb - 1) * 2 ^ f.mb + 2 ^ (f.mb - 1)

/-- The sign bit of a format, for a negative value. -/
def fpSign (f : FpFmt) (neg : Bool) : Nat := if neg then 2 ^ (f.eb + f.mb) else 0

/-- The encoding of an infinity. -/
def fpInf (f : FpFmt) (neg : Bool) : Nat := fpSign f neg + (2 ^ f.eb - 1) * 2 ^ f.mb

/-- Whether a magnitude with quotient q and remainder r over d goes to q + 1 under a rounding mode of R271:
0 to nearest even, 1 toward zero, 2 toward minus infinity, 3 toward plus infinity. -/
def roundsUp (rnd : Nat) (neg : Bool) (q r d : Nat) : Bool :=
  match rnd with
  | 0 => decide (d < 2 * r) || (decide (2 * r = d) && decide (q % 2 = 1))
  | 1 => false
  | 2 => neg && decide (0 < r)
  | _ => !neg && decide (0 < r)

/-- n / d rounded to an integer. -/
def roundDiv (rnd : Nat) (neg : Bool) (n d : Nat) : Nat :=
  n / d + b2n (roundsUp rnd neg (n / d) (n % d) d)

/-- n / d * 2^k as a fraction of naturals. -/
def scaleFrac (n d : Nat) (k : Int) : Nat × Nat := if 0 ≤ k then (n * 2 ^ k.toNat, d) else (n, d * 2 ^ (-k).toNat)

/-- The exponent e with 2^e <= n / d < 2^(e + 1), for n and d above 0. -/
def fracLog (n d : Nat) : Int :=
  let e : Int := (Nat.log2 n : Int) - (Nat.log2 d : Int)
  let (a, b) := scaleFrac n d (-e)
  if a < b then e - 1 else e

/-- The encoding of a positive fraction n / d rounded once in a format, with the sign given (R289). -/
def fpRoundFrac (f : FpFmt) (rnd : Nat) (neg : Bool) (n d : Nat) : Nat :=
  if n = 0 then fpSign f neg
  else
    let emin : Int := 1 - (fpBias f : Int)
    let e := max (fracLog n d) emin
    let (a, b) := scaleFrac n d ((f.mb : Int) - e)
    let bits := (e - emin).toNat * 2 ^ f.mb + roundDiv rnd neg a b
    if (2 ^ f.eb - 1) * 2 ^ f.mb ≤ bits then
      if rnd = 0 ∨ (rnd = 2 ∧ neg) ∨ (rnd = 3 ∧ !neg) then fpInf f neg
      else fpSign f neg + (2 ^ f.eb - 1) * 2 ^ f.mb - 1
    else fpSign f neg + bits

/-- The encoding of a value, rounded once. -/
def fpEncode (f : FpFmt) (rnd : Nat) (v : FVal) : Nat :=
  match v with
  | .nan => fpNan f
  | .inf neg => fpInf f neg
  | .num neg m e => let (n, d) := scaleFrac m 1 e; fpRoundFrac f rnd neg n d

/-- A dyadic value as a signed integer at exponent e0, for e0 at most its exponent. -/
def dyAt (neg : Bool) (m : Nat) (e e0 : Int) : Int :=
  let x : Int := (m * 2 ^ (e - e0).toNat : Nat)
  if neg then -x else x

/-- The exact sum of two dyadic values. An exact zero takes the common sign of two zeros of one sign, else minus
under rounding toward minus infinity and plus otherwise (R289, log entry 40). -/
def dySum (rnd : Nat) (n1 : Bool) (m1 : Nat) (e1 : Int) (n2 : Bool) (m2 : Nat) (e2 : Int) : FVal :=
  let e0 := min e1 e2
  let x := dyAt n1 m1 e1 e0 + dyAt n2 m2 e2 e0
  if x = 0 then .num (if m1 = 0 ∧ m2 = 0 ∧ n1 = n2 then n1 else decide (rnd = 2)) 0 0
  else .num (decide (x < 0)) x.natAbs e0

/-- The exact sum of two values. -/
def fvAdd (rnd : Nat) (a b : FVal) : FVal :=
  match a, b with
  | .nan, _ => .nan
  | _, .nan => .nan
  | .inf x, .inf y => if x = y then .inf x else .nan
  | .inf x, .num _ _ _ => .inf x
  | .num _ _ _, .inf y => .inf y
  | .num n1 m1 e1, .num n2 m2 e2 => dySum rnd n1 m1 e1 n2 m2 e2

/-- A value with its sign changed. -/
def fvNeg (a : FVal) : FVal :=
  match a with
  | .nan => .nan
  | .inf n => .inf (!n)
  | .num n m e => .num (!n) m e

/-- The sign of a value; a NaN has none. -/
def fvSign (a : FVal) : Bool :=
  match a with
  | .nan => false
  | .inf n => n
  | .num n _ _ => n

/-- The exact product of two values. -/
def fvMul (a b : FVal) : FVal :=
  match a, b with
  | .nan, _ => .nan
  | _, .nan => .nan
  | .num n1 m1 e1, .num n2 m2 e2 => .num (n1 != n2) (m1 * m2) (e1 + e2)
  | .num _ m _, .inf _ => if m = 0 then .nan else .inf (fvSign a != fvSign b)
  | .inf _, .num _ m _ => if m = 0 then .nan else .inf (fvSign a != fvSign b)
  | .inf x, .inf y => .inf (x != y)

/-- The order of two values that are no NaN; minus zero equals plus zero. -/
def fvLt (a b : FVal) : Bool :=
  match a, b with
  | .inf x, .inf y => x && !y
  | .inf x, .num _ _ _ => x
  | .num _ _ _, .inf y => !y
  | .num n1 m1 e1, .num n2 m2 e2 => let e0 := min e1 e2; decide (dyAt n1 m1 e1 e0 < dyAt n2 m2 e2 e0)
  | _, _ => false

/-- Equality of two values that are no NaN. -/
def fvEq (a b : FVal) : Bool :=
  match a, b with
  | .nan, _ => false
  | _, .nan => false
  | _, _ => !fvLt a b && !fvLt b a

/-- Whether a value is NaN. -/
def fvNan (a : FVal) : Bool := decide (a = .nan)

/-- The value of an FP32 word. -/
def fv (x : Word) : FVal := fpDecode fp32 x.toNat

/-- A value rounded to an FP32 word. -/
def fw (rnd : Nat) (v : FVal) : Word := BitVec.ofNat 32 (fpEncode fp32 rnd v)

/-! ### FP32 operations (R289, R290) -/

/-- FADD. -/
def fAdd (rnd : Nat) (a b : Word) : Word := fw rnd (fvAdd rnd (fv a) (fv b))

/-- FSUB. -/
def fSub (rnd : Nat) (a b : Word) : Word := fw rnd (fvAdd rnd (fv a) (fvNeg (fv b)))

/-- FMUL. -/
def fMul (rnd : Nat) (a b : Word) : Word := fw rnd (fvMul (fv a) (fv b))

/-- FFMA. -/
def fFma (rnd : Nat) (a b c : Word) : Word := fw rnd (fvAdd rnd (fvMul (fv a) (fv b)) (fv c))

/-- Whether a comes before b for FMIN: minus zero counts as less than plus zero. -/
def fBefore (a b : FVal) : Bool := fvLt a b || (fvEq a b && fvSign a && !fvSign b)

/-- FMIN (minimumNumber). -/
def fMin (a b : Word) : Word :=
  match fv a, fv b with
  | .nan, y => fw 0 y
  | x, .nan => fw 0 x
  | x, y => if fBefore y x then b else a

/-- FMAX (maximumNumber). -/
def fMax (a b : Word) : Word :=
  match fv a, fv b with
  | .nan, y => fw 0 y
  | x, .nan => fw 0 x
  | x, y => if fBefore x y then b else a

/-- A finite value rounded to an integer, as its magnitude. -/
def dyRound (rnd : Nat) (neg : Bool) (m : Nat) (e : Int) : Nat :=
  let (n, d) := scaleFrac m 1 e
  roundDiv rnd neg n d

/-- FRND. -/
def fRnd (rnd : Nat) (a : Word) : Word :=
  match fv a with
  | .num neg m e => fw 0 (.num neg (dyRound rnd neg m e) 0)
  | v => fw 0 v

/-- FP32 to an integer in [lo, hi], NaN giving 0 (R291). -/
def fToInt (rnd : Nat) (lo hi : Int) (a : Word) : Word :=
  match fv a with
  | .nan => 0
  | .inf neg => BitVec.ofInt 32 (if neg then lo else hi)
  | .num neg m e =>
    let x : Int := dyRound rnd neg m e
    BitVec.ofInt 32 (max lo (min hi (if neg then -x else x)))

/-- F2I. -/
def f2i (rnd : Nat) (a : Word) : Word := fToInt rnd (-2147483648) 2147483647 a

/-- F2U. -/
def f2u (rnd : Nat) (a : Word) : Word := fToInt rnd 0 4294967295 a

/-- An integer to FP32. -/
def intToF (rnd : Nat) (x : Int) : Word := fw rnd (.num (decide (x < 0)) x.natAbs 0)

/-- FP32 to a narrower format (R291). -/
def fNarrow (f : FpFmt) (rnd : Nat) (a : Word) : Nat := fpEncode f rnd (fv a)

/-- A narrower format to FP32, exactly. -/
def fWiden (f : FpFmt) (x : Nat) : Word := fw 0 (fpDecode f x)

/-! ### Roots -/

/-- The greatest r below 2^k with r^n <= x, one bit at a time. -/
def rootBits (n x : Nat) : Nat → Nat → Nat
  | 0, r => r
  | k + 1, r => let t := r + 2 ^ k; rootBits n x k (if t ^ n ≤ x then t else r)

/-- The n-th root of x, rounded down. -/
def rootFloor (n x : Nat) : Nat := rootBits n x (Nat.log2 x / n + 1) 0

/-- Fraction bits of the results of root. -/
abbrev rootPrec : Nat := 200

/-- The n-th root of a / d as (2 r + sticky) / 2^201, sticky being 1 when r / 2^200 is not the root exactly. -/
def rootFrac (n a d : Nat) : Nat × Nat :=
  let x := a * 2 ^ (n * rootPrec)
  let r := rootFloor n (x / d)
  (2 * r + b2n (decide (r ^ n * d ≠ x)), 2 ^ (rootPrec + 1))

/-! ### RCP, RSQ, SQRT (R292) -/

/-- RCP. -/
def fRcp (a : Word) : Word :=
  match fv a with
  | .nan => fw 0 .nan
  | .inf neg => fw 0 (.num neg 0 0)
  | .num neg m e =>
    if m = 0 then fw 0 (.inf neg)
    else let (n, d) := scaleFrac m 1 e; BitVec.ofNat 32 (fpRoundFrac fp32 0 neg d n)

/-- SQRT. -/
def fSqrt (a : Word) : Word :=
  match fv a with
  | .nan => fw 0 .nan
  | .inf neg => if neg then fw 0 .nan else a
  | .num neg m e =>
    if m = 0 then a
    else if neg then fw 0 .nan
    else
      let (n, d) := scaleFrac m 1 e
      let (p, q) := rootFrac 2 n d
      BitVec.ofNat 32 (fpRoundFrac fp32 0 false p q)

/-- RSQ. -/
def fRsq (a : Word) : Word :=
  match fv a with
  | .nan => fw 0 .nan
  | .inf neg => if neg then fw 0 .nan else 0
  | .num neg m e =>
    if m = 0 then fw 0 (.inf neg)
    else if neg then fw 0 .nan
    else
      let (n, d) := scaleFrac m 1 e
      let (p, q) := rootFrac 2 d n
      BitVec.ofNat 32 (fpRoundFrac fp32 0 false p q)

/-! ### Series with 300 fraction bits -/

/-- Fraction bits of the series. -/
abbrev serPrec : Nat := 300

/-- pi, scaled by 2^300 and rounded down. -/
def piScaled : Nat := 0x3243f6a8885a308d313198a2e03707344a4093822299f31d0082efa98ec4e6c89452821e638d

/-- The natural logarithm of 2, scaled by 2^300 and rounded down. -/
def ln2Scaled : Nat := 0xb17217f7d1cf79abc9e3b39803f2f6af40f343267298b62d8a0d175b8baafa2be7b876206de

/-- Sum of t x^k / k! over n further terms, all scaled by 2^300. -/
def expSeries (x : Nat) : Nat → Nat → Nat → Nat
  | 0, _, _ => 0
  | n + 1, k, t => t + expSeries x n (k + 1) (t * x / 2 ^ serPrec / (k + 1))

/-- Sum of the alternating series of sine or cosine: term t, then t x^2 / ((k + 1)(k + 2)) subtracted, and so on. -/
def trigSeries (x2 : Nat) : Nat → Nat → Int → Int
  | 0, _, _ => 0
  | n + 1, k, t => t + trigSeries x2 n (k + 2) (-(t * x2 / (2 ^ serPrec : Nat) / ((k + 1) * (k + 2) : Nat)))

/-- Sum of t y^(2k) / (2k + 1), the series of the inverse hyperbolic tangent. -/
def atanhSeries (y2 : Nat) : Nat → Nat → Nat → Nat
  | 0, _, _ => 0
  | n + 1, k, t => t / k + atanhSeries y2 n (k + 2) (t * y2 / 2 ^ serPrec)

/-- A value scaled by 2^300 that is known not to be exact, as a fraction between its neighbours. -/
def serFrac (v : Nat) : Nat × Nat := (2 * v + 1, 2 ^ (serPrec + 1))

/-- A dyadic value scaled by 2^300; exact for every FP32 magnitude. -/
def serScale (m : Nat) (e : Int) : Nat := let (n, d) := scaleFrac m 1 (e + serPrec); n / d

/-- EXP2 (R292). -/
def fExp2 (a : Word) : Word :=
  match fv a with
  | .nan => fw 0 .nan
  | .inf neg => if neg then 0 else a
  | .num neg m e =>
    let x : Int := if neg then -(serScale m e : Int) else serScale m e
    let i := x / (2 ^ serPrec : Nat)
    let f := (x % (2 ^ serPrec : Nat)).toNat
    if 200 < i then fw 0 (.inf false)
    else if i < -200 then 0
    else
      let v := expSeries (f * ln2Scaled / 2 ^ serPrec) 90 0 (2 ^ serPrec)
      let (n, d) := if f = 0 then (1, 1) else serFrac v
      let (n, d) := scaleFrac n d i
      BitVec.ofNat 32 (fpRoundFrac fp32 0 false n d)

/-- LOG2 (R292). -/
def fLog2 (a : Word) : Word :=
  match fv a with
  | .nan => fw 0 .nan
  | .inf neg => if neg then fw 0 .nan else a
  | .num neg m e =>
    if m = 0 then fw 0 (.inf true)
    else if neg then fw 0 .nan
    else
      let k := Nat.log2 m
      let i : Int := e + k
      if m = 2 ^ k then intToF 0 i
      else
        let y := (m - 2 ^ k) * 2 ^ serPrec / (m + 2 ^ k)
        let ln := 2 * atanhSeries (y * y / 2 ^ serPrec) 100 1 y
        let v : Int := i * (2 ^ serPrec : Nat) + (ln * 2 ^ serPrec / ln2Scaled : Nat)
        let (n, d) := serFrac (if v < 0 then v.natAbs - 1 else v.natAbs)
        BitVec.ofNat 32 (fpRoundFrac fp32 0 (decide (v < 0)) n d)

/-- The sine of r / 2^300 turns, for r below 2^298, scaled by 2^300. -/
def sinSeries (r : Nat) : Nat :=
  let x := 2 * piScaled * r / 2 ^ serPrec
  (trigSeries (x * x / 2 ^ serPrec) 40 1 x).toNat

/-- The sine of r / 2^300 turns, r below 2^300: exactly zero, plus or minus one, or a sign and a magnitude. -/
def sinTurn (r : Nat) : FVal ⊕ (Bool × Nat) :=
  let q := r / 2 ^ (serPrec - 2)
  let f := r % 2 ^ (serPrec - 2)
  let neg := decide (2 ≤ q)
  if f = 0 then (if q % 2 = 0 then .inl (.num false 0 0) else .inl (.num neg 1 0))
  else .inr (neg, sinSeries (if q % 2 = 0 then f else 2 ^ (serPrec - 2) - f))

/-- SIN when quarter is 0 and COS when it is 1 (R292). -/
def fTrig (quarter : Nat) (a : Word) : Word :=
  match fv a with
  | .num neg m e =>
    let x := serScale m e % 2 ^ serPrec
    let r := (if neg then 2 ^ serPrec - x else x) + quarter * 2 ^ (serPrec - 2)
    match sinTurn (r % 2 ^ serPrec) with
    | .inl (.num _ 0 _) => if quarter = 0 ∧ neg then fw 0 (.num true 0 0) else 0
    | .inl v => fw 0 v
    | .inr (n, v) => let (p, q) := serFrac v; BitVec.ofNat 32 (fpRoundFrac fp32 0 n p q)
  | _ => fw 0 .nan

/-! ### sRGB and UNORM (R314, R427) -/

/-- The value of an n-bit UNORM channel, correctly rounded. -/
def unormDecode (n c : Nat) : Word := BitVec.ofNat 32 (fpRoundFrac fp32 0 false c (2 ^ n - 1))

/-- The linear value of an 8-bit sRGB channel (IEC 61966-2-1), correctly rounded. -/
def srgbDecode (c : Nat) : Word :=
  if 10000 * c * 1000 ≤ 404500 * 255 then BitVec.ofNat 32 (fpRoundFrac fp32 0 false (c * 100) (255 * 1292))
  else
    let n := 1000 * c + 55 * 255
    let d := 1055 * 255
    let (p, q) := rootFrac 5 (n ^ 12) (d ^ 12)
    BitVec.ofNat 32 (fpRoundFrac fp32 0 false p q)

/-- A value clamped to [0, 1] as a fraction; NaN gives 0 (R427). -/
def clampFrac (v : FVal) : Nat × Nat :=
  match v with
  | .nan => (0, 1)
  | .inf neg => (b2n (!neg), 1)
  | .num neg m e =>
    let (n, d) := scaleFrac m 1 e
    if neg then (0, 1) else if d ≤ n then (1, 1) else (n, d)

/-- A fraction in [0, 1] times 2^n - 1, rounded to nearest even. -/
def unormRound (n a d : Nat) : Nat := roundDiv 0 false (a * (2 ^ n - 1)) d

/-- The sRGB encoding of a fraction in [0, 1], as a fraction. -/
def srgbFrac (a d : Nat) : Nat × Nat :=
  if a * 10000000 ≤ 31308 * d then (a * 1292, d * 100)
  else if a = d then (1, 1)
  else
    let (p, q) := rootFrac 12 (a ^ 5) (d ^ 5)
    (1055 * p - 55 * q, 1000 * q)

/-- An n-bit UNORM channel of a value, in sRGB when asked (R427). -/
def unormEncode (n : Nat) (srgb : Bool) (v : FVal) : Nat :=
  let (a, d) := clampFrac v
  let (a, d) := if srgb then srgbFrac a d else (a, d)
  unormRound n a d

end Sys2Proof.Machine
end

