-- ==== Sys2Proof/Machine/KCtl.lean ====
section
/-!
DEFINITION. Control, divergence, scalar and predicate instructions (spec/08_heats_and_blocks.md R250 to R254;
spec/10_kamir_semantics.md R288, R296, R309 to R311), and the rows ICACHE_FILL, ILLEGAL_INSTRUCTION and
VARIABLE_RESULT_WRITE's shared parts.
-/

namespace Sys2Proof.Machine

/-! ### Block memory (R255, R299) -/

/-- Bytes of a block's block memory. -/
def bmemSize (b : Blk) : Nat := 256 * b.bmemUnits

/-- A read of n bytes of block memory; bytes beyond it read 0. -/
def bmemRead (b : Blk) (a n : Nat) : List Byte :=
  (List.range n).map fun i => if a + i < bmemSize b then memByte b.bmem (a + i) else 0

/-- A write of bytes of block memory; bytes beyond it are discarded. -/
def bmemWrite (b : Blk) (a : Nat) (bs : List Byte) : Blk :=
  { b with bmem := memWrite b.bmem a (bs.take (bmemSize b - a)) }

/-! ### Control flow (R309, R310) -/

/-- The effect of NOP: none. -/
def kNop (e : KEnv) : KEnv :=
  e

/-- The effect of BRA. -/
def kBra (e : KEnv) : KEnv :=
  { e with nextPc := some (kTarget e.i) }

/-- The effect of BRX: bits [2:0] of the scalar are ignored. -/
def kBrx (e : KEnv) : KEnv :=
  { e with nextPc := some ((hs e.h (kSReg e.i)).toNat / 8 * 8) }

/-- The effect of CALL: the return code offset is PC + 8. -/
def kCall (e : KEnv) : KEnv :=
  let e := sclWrite e (kSReg e.i) (BitVec.ofNat 32 (e.h.pc + 8))
  { e with nextPc := some (kTarget e.i) }

/-- The effect of RET. -/
def kRet (e : KEnv) : KEnv :=
  { e with nextPc := some ((hs e.h (kSReg e.i)).toNat / 8 * 8) }

/-- The effect of EXIT: the lanes of EM leave LM and AM (R310). -/
def kExit (e : KEnv) : KEnv :=
  let keep := 0xFFFFFFFF - e.em
  { e with h := { e.h with lm := e.h.lm &&& keep, am := e.h.am &&& keep } }

/-- The effect of BAR: the heat arrives and waits. Its release at block scope has held it back until the heat's accesses
were performed (R253, R254). -/
def kBar (e : KEnv) : KEnv :=
  { e with h := { e.h with waiting := true } }

/-! ### Divergence stack (R250) -/

/-- The effect of DPUSH. -/
def kDpush (e : KEnv) : KEnv :=
  { e with h := { e.h with stack := (e.h.am, kTarget e.i) :: e.h.stack } }

/-- The effect of DSPLIT. -/
def kDsplit (e : KEnv) : KEnv :=
  let p := (hp e.h (kCP e.i)).toNat
  let no := 0xFFFFFFFF - p
  { e with h := { e.h with stack := (e.h.am &&& no, kXAlt e.i) :: (e.h.am, kTarget e.i) :: e.h.stack
                           am := e.h.am &&& p } }

/-- The effect of DNEXT: the top entry is popped (R251). -/
def kDnext (e : KEnv) : KEnv :=
  match e.h.stack with
  | (m, a) :: st => { e with h := { e.h with am := m &&& e.h.lm, stack := st }, nextPc := some a }
  | [] => e

/-- The effect of DMASK. -/
def kDmask (e : KEnv) : KEnv :=
  { e with h := { e.h with am := e.h.am &&& (0xFFFFFFFF - (hp e.h (kCP e.i)).toNat) } }

/-- The effect of DSPILL: entries 0 to 7, the oldest first, go to block memory (R255). -/
def kDspill (e : KEnv) : KEnv :=
  let low := (e.h.stack.drop (e.h.stack.length - 8)).reverse
  let bs := low.flatMap fun x => leBytes (x.1 % 2 ^ 32 + x.2 % 2 ^ 32 * 2 ^ 32) 8
  { e with b := bmemWrite e.b (hs e.h (kSReg e.i)).toNat bs
           h := { e.h with stack := e.h.stack.take (e.h.stack.length - 8), spilled := e.h.spilled + 1 } }

/-- The effect of DFILL: eight entries come back below the others; an ADDR is a multiple of 8 (R255). -/
def kDfill (e : KEnv) : KEnv :=
  let a := (hs e.h (kSReg e.i)).toNat
  let entry := fun (j : Nat) =>
    let v := leValue (bmemRead e.b (a + 8 * j) 8)
    (v % 2 ^ 32, v / 2 ^ 32 / 8 * 8)
  { e with h := { e.h with stack := e.h.stack ++ ((List.range 8).map entry).reverse, spilled := e.h.spilled - 1 } }

/-! ### Scalars (R288, R296) -/

/-- Source B of a scalar instruction (R268, R269). -/
def kScalarB (e : KEnv) : Word :=
  if kExt e.i then kXImm e.i else if kBimm e.i then kImm15 e.i else hs e.h (kSB e.i)

/-- SD := f SA B. -/
def kScalar (f : Word → Word → Word) (e : KEnv) : KEnv := sclWrite e (kSD e.i) (f (hs e.h (kSA e.i)) (kScalarB e))

/-- Shift left; a count of 32 or more gives 0. -/
def shl32 (a b : Word) : Word := if b.toNat < 32 then a <<< b.toNat else 0

/-- Logical shift right; a count of 32 or more gives 0. -/
def shr32 (a b : Word) : Word := if b.toNat < 32 then a >>> b.toNat else 0

/-- Arithmetic shift right; a count of 32 or more gives 32 copies of the sign. -/
def sra32 (a b : Word) : Word := BitVec.sshiftRight a (min b.toNat 31)

/-- Signed minimum. -/
def smin32 (a b : Word) : Word := if a.toInt ≤ b.toInt then a else b

/-- Signed maximum. -/
def smax32 (a b : Word) : Word := if a.toInt ≤ b.toInt then b else a

/-- Unsigned minimum. -/
def umin32 (a b : Word) : Word := if a.toNat ≤ b.toNat then a else b

/-- Unsigned maximum. -/
def umax32 (a b : Word) : Word := if a.toNat ≤ b.toNat then b else a

/-- The effect of SADD64: a pair plus sign-extended B, modulo 2^64. -/
def kSadd64 (e : KEnv) : KEnv :=
  let v := (BitVec.ofNat 64 (hs64 e.h (kSA e.i)) + (kScalarB e).signExtend 64).toNat
  { e with writes := [{ reg := .s (kSD e.i), vals := [BitVec.ofNat 32 v] },
                      { reg := .s (kSD e.i + 1), vals := [BitVec.ofNat 32 (v / 2 ^ 32)] }] }

/-- The special registers of R270. -/
def kSpecial (e : KEnv) (code : Nat) : Nat :=
  match code with
  | 0 => e.h.am
  | 1 => e.h.lm
  | 2 => e.h.stack.length
  | 3 => e.h.spilled
  | 4 => e.b.barGen
  | 5 => e.h.progress
  | 6 => ltNow e.s
  | 7 => e.h.ltHi
  | 8 => e.b.core
  | _ => e.b.core / 4

/-- The effect of SMOVS; reading LT_LO keeps the upper half of its stamp for LT_HI. -/
def kSmovs (e : KEnv) : KEnv :=
  let e := sclWrite e (kSD e.i) (BitVec.ofNat 32 (kSpecial e (kSB e.i)))
  if kSB e.i = 6 then { e with h := { e.h with ltHi := ltNow e.s / 2 ^ 32 } } else e

/-- PD := f PA PB on all 32 bits (R296). -/
def kPred (f : Word → Word → Word) (e : KEnv) : KEnv :=
  { e with writes := [{ reg := .p (kSD e.i % 8), vals := [f (hp e.h (kSA e.i % 8)) (hp e.h (kSB e.i % 8))] }] }

/-- The effect of SMOVP. -/
def kSmovp (e : KEnv) : KEnv :=
  sclWrite e (kSD e.i) (hp e.h (kSA e.i % 8))

/-- The effect of PMOVS. -/
def kPmovs (e : KEnv) : KEnv :=
  { e with writes := [{ reg := .p (kSD e.i % 8), vals := [hs e.h (kSA e.i)] }] }

/-! ### Fetch, illegal instructions and results -/

/-- The next instruction of a heat misses: its line is filled, or its fetch faults (R328, R332). -/
def icacheFill (s : State) (core age : Nat) : State :=
  match findHeat s core age with
  | none => s
  | some (b, h) =>
    if !blkLive s b || h.waiting || h.faulted || (blkTold s b && pendNone h) then s
    else
      match fetchIns s b h with
      | (_, .ins _) => s
      | (s, .fault f) => unitFaultOf s b age { f with detail := (b.code + h.pc) % 2 ^ 48 }
      | (s, .miss x va) =>
        match icLoad (blkAccess s b) core x va with
        | (s, none) => s
        | (s, some f) => unitFaultOf s b age { f with detail := (b.code + h.pc) % 2 ^ 48 }

/-- The instruction next to issue of a heat is illegal: its descriptor faults (R285). -/
def illegalNext (s : State) (core age : Nat) : State :=
  match findHeat s core age with
  | none => s
  | some (b, h) =>
    match fetchIns s b h with
    | (s', .ins i) =>
      let due := kIllegal b.vregs i || (waitsClear h i && nextIllegal b h i)
      if due && heatGoes s b h i then heatFault s' b age (illegalResult b h) else s
    | _ => s

end Sys2Proof.Machine
end

