-- ==== Sys2Proof/Machine/KVec.lean ====
section
/-!
DEFINITION. Vector, compare and lane instructions (spec/10_kamir_semantics.md R288 to R295).
-/

namespace Sys2Proof.Machine

/-! ### Sources (R268, R269, R271) -/

/-- Vector source k of format V, 0 A, 1 B, 2 C, in a lane: the register, or what X-V puts in its place. -/
def kSrc (e : KEnv) (k : Nat) (lane : Nat) : Word :=
  if kExt e.i && decide (kXSub e.i = k + 1) then
    (if kXKind e.i then kXImm e.i else hs e.h (kXSreg e.i))
  else hv e.h (if k = 0 then kVA e.i else if k = 1 then kVB e.i else kVC e.i) lane

/-- VD := f A per lane. -/
def kVec1 (f : Word → Word) (e : KEnv) : KEnv := vecWrite e (kVD e.i) fun l => f (kSrc e 0 l)

/-- VD := f A B per lane. -/
def kVec2 (f : Word → Word → Word) (e : KEnv) : KEnv := vecWrite e (kVD e.i) fun l => f (kSrc e 0 l) (kSrc e 1 l)

/-- VD := f A B C per lane. -/
def kVec3 (f : Word → Word → Word → Word) (e : KEnv) : KEnv :=
  vecWrite e (kVD e.i) fun l => f (kSrc e 0 l) (kSrc e 1 l) (kSrc e 2 l)

/-- RND. -/
def kRnd (e : KEnv) : Nat := kMod e.i

/-- SGN and HALF: bit 62. -/
def kBit62 (e : KEnv) : Bool := e.i.w.testBit 62

/-- High 32 bits of a product (R288). -/
def mulHigh (sgn : Bool) (a b : Word) : Word :=
  if sgn then BitVec.ofInt 32 (a.toInt * b.toInt / (2 ^ 32 : Nat)) else BitVec.ofNat 32 (a.toNat * b.toNat / 2 ^ 32)

/-- The number of ones. -/
def popc32 (a : Word) : Word := BitVec.ofNat 32 (popCount a.toNat 32)

/-- Leading zeros; 32 for 0 (R288). -/
def clz32 (a : Word) : Word := BitVec.ofNat 32 (if a = 0 then 32 else 31 - Nat.log2 a.toNat)

/-- The bits in reverse order. -/
def brev32 (a : Word) : Word := a.reverse

/-- The half of a word that HALF chooses. -/
def half (hi : Bool) (a : Word) : Nat := if hi then nfld a.toNat 16 16 else nfld a.toNat 0 16

/-- Two narrowed values packed in a word (R291). -/
def packHalves (f : FpFmt) (rnd : Nat) (a b : Word) : Word :=
  BitVec.ofNat 32 (fNarrow f rnd a + 2 ^ 16 * fNarrow f rnd b)

/-! ### Arithmetic -/

/-- The effect of SEL: A where the lane's bit of p(VC[2:0]) is 1, else B (R294). -/
def kSel (e : KEnv) : KEnv :=
  vecWrite e (kVD e.i) fun l => if bit (hp e.h (kVC e.i % 8)) l then kSrc e 0 l else kSrc e 1 l

/-! ### Compares (R271, R293) -/

/-- Source k of a compare in a lane: a vector register, a scalar when SCAL is 1, or what X-V puts in its place. -/
def kCmpSrc (e : KEnv) (k lane : Nat) : Word :=
  if kExt e.i && decide (kXSub e.i = k + 1) then
    (if kXKind e.i then kXImm e.i else hs e.h (kXSreg e.i))
  else
    let r := if k = 0 then kPVA e.i else kPVB e.i
    if kScal e.i then hs e.h r else hv e.h r lane

/-- Condition R from less and equal, for operands that are ordered. -/
def condOf (cond : Nat) (lt eq : Bool) : Bool :=
  match cond with
  | 0 => eq
  | 1 => !eq
  | 2 => lt
  | 3 => lt || eq
  | 4 => !lt && !eq
  | 5 => !lt
  | 6 => true
  | _ => false

/-- R of FCMP. -/
def condFloat (cond : Nat) (a b : Word) : Bool :=
  if fvNan (fv a) || fvNan (fv b) then decide (cond = 1 ∨ cond = 7) else condOf cond (fvLt (fv a) (fv b)) (fvEq (fv a) (fv b))

/-- R of ICMP. -/
def condSigned (cond : Nat) (a b : Word) : Bool := condOf cond (decide (a.toInt < b.toInt)) (decide (a = b))

/-- R of UCMP. -/
def condUnsigned (cond : Nat) (a b : Word) : Bool := condOf cond (decide (a.toNat < b.toNat)) (decide (a = b))

/-- R combined with p(PS) (R268). -/
def combine (comb : Nat) (r ps : Bool) : Bool :=
  match comb with
  | 0 => r
  | 1 => r && ps
  | 2 => r || ps
  | _ => r && !ps

/-- The effect of a compare on the PD bits of the lanes of EM (R293). -/
def kCompare (r : Nat → Word → Word → Bool) (e : KEnv) : KEnv :=
  let ps := hp e.h (kPS e.i)
  let v := (List.range 32).foldl (fun a l =>
    if combine (kComb e.i) (r (kCond e.i) (kCmpSrc e 0 l) (kCmpSrc e 1 l)) (bit ps l) then a + 2 ^ l else a) 0
  { e with writes := [{ reg := .p (kPD e.i), mask := e.em, vals := [BitVec.ofNat 32 v] }] }

/-! ### Lane operations (R294, R295) -/

/-- The effect of SHFL: A of the lane that B names, whether or not it is in EM. -/
def kShfl (e : KEnv) : KEnv := vecWrite e (kVD e.i) fun l => kSrc e 0 ((kSrc e 1 l).toNat % 32)

/-- The effect of VTOS: A of the lane that B of the lowest-numbered lane of EM names. -/
def kVtos (e : KEnv) : KEnv := sclWrite e (kVD e.i % 64) (kSrc e 0 ((kSrc e 1 (lowLane e.em)).toNat % 32))

/-- Neighbours added in pairs. -/
def pairSums (f : Word → Word → Word) : List Word → List Word
  | a :: b :: l => f a b :: pairSums f l
  | l => l

/-- The fixed tree of R295 over 32 lane values. -/
def treeSum (f : Word → Word → Word) (l : List Word) : Word :=
  ((pairSums f (pairSums f (pairSums f (pairSums f (pairSums f l)))))[0]?).getD 0

/-- The effect of a reduction over EM; other lanes contribute z. -/
def kReduce (f : Word → Word → Word) (z : Word) (e : KEnv) : KEnv :=
  sclWrite e (kVD e.i % 64) (treeSum f ((List.range 32).map fun l => if e.em.testBit l then kSrc e 0 l else z))

end Sys2Proof.Machine
end

