-- ==== Sys2Proof/Machine/KMem.lean ====
section
/-!
DEFINITION. Memory, atomic, fence, sync and allocation instructions (spec/10_kamir_semantics.md R297 to R308), and the
completion of variable-latency operations (R278, R280).
-/

namespace Sys2Proof.Machine

/-! ### One access of a lane -/

/-- The digest tap of a block's stores (R589, R591). -/
def blkTap (b : Blk) : Tap :=
  { mapSens := b.mapSens, layer := if b.kind = .step then some b.layer else none, cluster := some (b.core / 4) }

/-- A write of a block's heat is digested (R588, R590). -/
def blkDigest (s : State) (b : Blk) (key : Nat) (bs : List (Option Byte)) : State :=
  match findDesc s b.id with
  | some d => digestWrite s d (blkTap b) key bs
  | none => s

/-- The window that a heat's sheet accesses reach: only blocks of BLOCK steps have one (R238, R431). -/
def blkWindow (b : Blk) : Option Window := if b.kind = .step then b.window else none

/-- The limit of a heat's sheet offsets. -/
def blkWinBytes (b : Blk) : Nat := match blkWindow b with
  | some w => winBytes w
  | none => 0

/-- The new value of an atomic (R301). -/
def atomicNew (op n m x cmp : Nat) : Nat :=
  let w := 8 * n
  let lt := decide (sext m w < sext x w)
  match op with
  | 0xA8 => (m + x) % 2 ^ w
  | 0xA9 => if lt then m else x
  | 0xAA => if lt then x else m
  | 0xAB => min m x
  | 0xAC => max m x
  | 0xAD => m &&& x
  | 0xAE => m ||| x
  | 0xAF => m ^^^ x
  | 0xB0 => x
  | 0xB1 => if m = cmp then x else m
  | _ => (fAdd 0 (BitVec.ofNat 32 m) (BitVec.ofNat 32 x)).toNat

/-- The bytes of a value, all present. -/
def allBytes (v n : Nat) : List (Option Byte) := (leBytes v n).map some

/-- An atomic of another device: sent once, answered from its response (R302, R580, R581). -/
def remoteAtomic (s : State) (owner dev addr op : Nat) (a : LaneAcc) : State × AccRes Nat :=
  match s.vzl.reqs.find? fun r => decide (r.owner = owner) && decide (r.op = 3) with
  | some r => match r.data with
    | some d => (remoteFlush s owner, .ok (leValue d % 2 ^ (8 * a.n)))
    | none => (s, .wait)
  | none =>
    let body := leBytes a.data 8 ++ (if op = 0xB1 then leBytes a.cmp 8 else [])
    ((vzlSend s 3 dev addr a.n (op - 0xA8) (decide (a.n = 8)) body owner).getD s, .wait)

/-- An atomic on a virtual address (R302). -/
def vaAtomic (s : State) (core owner slot op : Nat) (a : LaneAcc) : State × AccRes Nat :=
  match translate s slot a.addr accStore with
  | (s, .error f) => (s, .fault f)
  | (s, .ok x) =>
    let va := a.addr % 2 ^ 48
    let out := paFault x.pa accStore va
    let modify := fun (s : State) (m : Nat) (bad : Option Nat) (put : State → Nat → State) =>
      match bad with
      | some p => (s, AccRes.fault { reason := 8, access := accStore, addr := p, detail := va })
      | none => (put s (atomicNew op a.n m a.data a.cmp), AccRes.ok m)
    let dram := fun (s : State) (pa : Nat) =>
      let (s, bs, bad) := dramRead s pa a.n
      modify s (leValue bs) bad fun s v => dramWrite s pa (allBytes v a.n)
    match paSpace x.pa with
    | 0 =>
      if usable s < x.pa + a.n then (s, .fault out)
      else if x.mtype ≤ 1 then
        let (s, m, bad) := l2ReadLE (l1OpPa s 3 core x.pa) x.pa a.n
        modify s m bad fun s v => l2WriteLE s x.pa a.n v
      else dram s x.pa
    | 1 => (s, .fault { reason := 10, access := accStore, addr := va, detail := va })
    | 2 =>
      let dev := nfld x.pa 39 7
      if dev = vzlId s ∧ !hostDropped s then
        if usable s < x.pa % 2 ^ 39 + a.n then (s, .fault out) else dram s (x.pa % 2 ^ 39)
      else if vzlUnreachable s dev then (s, .fault out)
      else remoteAtomic s owner dev (x.pa % 2 ^ 39) op a
    | _ => (s, .fault out)

/-- What a memory instruction does at an address. -/
inductive MemKind where
  | load
  | store
  | atomic (op : Nat)
deriving DecidableEq, Repr

/-- The kind of a memory opcode. -/
def memKind (op : Nat) : MemKind := if op = 0xA0 ∨ op = 0xA2 then .load else if op = 0xA1 then .store else .atomic op

/-- One access to a virtual address by a heat of a block. -/
def accVirtual (s : State) (b : Blk) (owner : Nat) (k : MemKind) (a : LaneAcc) : State × AccRes Nat :=
  let who : Agent := .core b.core owner
  match k with
  | .load =>
    match vaRead s who b.slot a.addr a.n accLoad with
    | (s, .ok bs) => (s, .ok (leValue bs))
    | (s, .fault f) => (s, .fault f)
    | (s, .wait) => (s, .wait)
  | .store =>
    match vaWrite s who b.slot a.addr (allBytes a.data a.n) with
    | (s, .ok _) => (blkDigest s b (a.addr % 2 ^ 48) (allBytes a.data a.n), .ok 0)
    | (s, .fault f) => (s, .fault f)
    | (s, .wait) => (s, .wait)
  | .atomic op =>
    match vaAtomic s b.core owner b.slot op a with
    | (s, .ok m) => (blkDigest s b (a.addr % 2 ^ 48) (allBytes (atomicNew op a.n m a.data a.cmp) a.n), .ok m)
    | r => r

/-- One access to block memory (R299, R302). -/
def accBlock (b : Blk) (k : MemKind) (a : LaneAcc) : Blk × Nat :=
  match k with
  | .load => (b, leValue (bmemRead b a.addr a.n))
  | .store => (bmemWrite b a.addr (leBytes a.data a.n), 0)
  | .atomic op =>
    if bmemSize b < a.addr + a.n then (b, 0)
    else
      let m := leValue (bmemRead b a.addr a.n)
      (bmemWrite b a.addr (leBytes (atomicNew op a.n m a.data a.cmp) a.n), m)

/-- One access to the sheet window (R197, R299, R302). -/
def accSheet (s : State) (b : Blk) (k : MemKind) (a : LaneAcc) : State × AccRes Nat :=
  let acc := if k = .load then accLoad else accStore
  match blkWindow b with
  | none => (s, .fault (sheetFault (b.core / 4) a.addr acc true))
  | some w =>
    if winBytes w < a.addr + a.n then (s, .fault (sheetFault w.cluster (max a.addr (winBytes w)) acc true))
    else
      let put := fun (s : State) (v : Nat) =>
        blkDigest (winWrite s w a.addr (allBytes v a.n)) b (sheetWriteKey b.vcl a.addr) (allBytes v a.n)
      match k with
      | .store => (put s a.data, .ok 0)
      | _ =>
        let (s, m, bad) := winReadLE s w a.addr a.n
        match bad with
        | some o => (s, .fault (sheetBadFault w.cluster o acc (sheetPa w.cluster a.addr true)))
        | none =>
          match k with
          | .atomic op => (put s (atomicNew op a.n m a.data a.cmp), .ok m)
          | _ => (s, .ok m)

/-- One access in any space. -/
def accOne (s : State) (b : Blk) (owner space : Nat) (k : MemKind) (a : LaneAcc) : State × Blk × AccRes Nat :=
  match space with
  | 0 => let (s, r) := accVirtual s b owner k a; (s, b, r)
  | 1 => let (b, m) := accBlock b k a; (s, b, .ok m)
  | _ => let (s, r) := accSheet s b k a; (s, b, r)

/-! ### All accesses of an instruction -/

/-- The accesses of a value of n bytes at an address: whole or in 64-bit halves when aligned, else byte by byte (R298). -/
def accPieces (lane addr n data cmp : Nat) : List LaneAcc :=
  let cut := fun (m : Nat) => (List.range (n / m)).map fun k =>
    ({ lane := lane, pos := m * k, n := m, addr := addr + m * k, data := data / 2 ^ (8 * m * k) % 2 ^ (8 * m)
       cmp := cmp / 2 ^ (8 * m * k) % 2 ^ (8 * m) } : LaneAcc)
  if addr % n = 0 then cut (min n 8) else cut 1

/-- Whether an access goes to another device. -/
def accRemote (s : State) (b : Blk) (a : LaneAcc) : Bool :=
  match (translate s b.slot a.addr accLoad).2 with
  | .ok x => decide (paSpace x.pa = 2) && decide (nfld x.pa 39 7 ≠ vzlId s)
  | .error _ => false

/-- The run of accesses, from the first on, whose bytes are contiguous inside one 128-byte line (R580). -/
def accRun : List LaneAcc → List LaneAcc × List LaneAcc
  | [] => ([], [])
  | a :: l => match accRun l with
    | (c :: r, rest) => if c.addr = a.addr + a.n ∧ c.addr / 128 = a.addr / 128 then (a :: c :: r, rest) else ([a], c :: r ++ rest)
    | ([], rest) => ([a], rest)

/-- A run of remote accesses as one access of its whole length. -/
def runAcc (r : List LaneAcc) : LaneAcc :=
  match r with
  | [] => { lane := 0, pos := 0, n := 0, addr := 0 }
  | a :: _ =>
    { a with pos := 0, n := (r.map LaneAcc.n).foldl (· + ·) 0
             data := leValue (r.flatMap fun x => leBytes x.data x.n) }

/-- What a run's value gives each of its accesses. -/
def runGot (v : Nat) : List LaneAcc → List (Nat × Nat × Nat)
  | [] => []
  | a :: l => (a.lane, a.pos, v % 2 ^ (8 * a.n)) :: runGot (v / 2 ^ (8 * a.n)) l

/-- What the accesses of an instruction come to. -/
structure MemRun where
  s : State
  b : Blk
  left : List LaneAcc
  got : List (Nat × Nat × Nat)
  fault : Option MFault := none

/-- Performs the accesses left, in order, until one waits or none is left. -/
def memRun (owner space : Nat) (k : MemKind) : Nat → MemRun → MemRun
  | 0, m => m
  | n + 1, m =>
    match m.left with
    | [] => m
    | a :: l =>
      let one := decide (space ≠ 0) || (match k with | .atomic _ => true | _ => false) || !accRemote m.s m.b a
      let (run, rest) := if one then ([a], l) else accRun (a :: l)
      match accOne m.s m.b owner space k (if one then a else runAcc run) with
      | (s, b, .ok v) => memRun owner space k n { m with s := s, b := b, left := rest, got := m.got ++ runGot v run }
      | (s, _, .fault f) => { m with s := s, fault := some f }
      | (s', _, .wait) => { m with s := retryWait m.s s' }

/-- The first access, in lane order, that faults, with the state after it alone (R300). -/
def memFault (s : State) (b : Blk) (owner space : Nat) (k : MemKind) (accs : List LaneAcc) : Option (State × MFault) :=
  accs.findSome? fun a => match accOne s b owner space k a with
    | (s', _, .fault f) => some (s', f)
    | _ => none

/-! ### Addresses and results -/

/-- The address of a lane (R268). -/
def kAddr (e : KEnv) (lane : Nat) : Nat :=
  let off : Int := if kExt e.i then kXOff e.i else 0
  let base : Nat := if kMSB e.i = 63 then 0 else if kSpace e.i = 0 then hs64 e.h (kMSB e.i) else (hs e.h (kMSB e.i)).toNat
  let x : Int := (base + (hv e.h (kVA e.i) lane).toNat * 2 ^ kOsh e.i : Nat) + off
  if kSpace e.i = 0 then wrapU x 48 else wrapU x 32

/-- A value of n registers from vector register r in a lane. -/
def hvWide (h : Heat) (r lane n : Nat) : Nat := leValue ((List.range n).flatMap fun k => leBytes (hv h (r + k) lane).toNat 4)

/-- The value that a lane got, from its pieces. -/
def gotValue (got : List (Nat × Nat × Nat)) (lane : Nat) : Nat :=
  got.foldl (fun a g => if g.1 = lane then a + g.2.2 * 2 ^ (8 * g.2.1) else a) 0

/-- The extension of a loaded value to its registers (R297). -/
def loadExtend (width v : Nat) : Nat :=
  match width with
  | 1 => wrapU (sext v 8) 32
  | 3 => wrapU (sext v 16) 32
  | _ => v

/-- The register writes of a load or atomic: VD upward in the lanes that got a value, or scalars for LDS. -/
def memWrites (vd width : Nat) (scalar : Bool) (got : List (Nat × Nat × Nat)) : List RegWrite :=
  let n := kWidthRegs width
  let val := fun (l k : Nat) => (BitVec.ofNat 32 (loadExtend width (gotValue got l) / 2 ^ (32 * k)) : Word)
  let mask := (List.range 32).foldl (fun a l => if got.any fun g => decide (g.1 = l) then a + 2 ^ l else a) 0
  (List.range n).map fun k =>
    if scalar then { reg := .s ((vd + k) % 64), vals := [val (lowLane mask) k] }
    else { reg := .v (vd + k), mask := mask, vals := (List.range 32).map fun l => val l k }

/-- The acquire or release of a scope at a core (R192). -/
def scopeAcquire (s : State) (core scope : Nat) : State := if 3 ≤ scope then l1Acquire s core else s

/-- The release of a scope at a core (R192). -/
def scopeRelease (s : State) (core scope : Nat) : State := if 3 ≤ scope then l1Release s core else s

/-- Whether an acquire follows the access, and a release comes before it (R304). -/
def ordAcquires (i : KIns) : Bool :=
  if memKind (kOp i) = .store then decide (kOrd i = 3) else decide (kOrd i % 2 = 1)

/-- Whether a release comes before the access (R304). -/
def ordReleases (i : KIns) : Bool :=
  if memKind (kOp i) = .load then decide (kOrd i = 3) else decide (2 ≤ kOrd i)

/-- The accesses of a memory instruction, in lane order; helper lanes neither store nor make atomics (R286, R422). -/
def kAccs (e : KEnv) : List LaneAcc :=
  let op := kOp e.i
  let k := memKind op
  let n := kWidthBytes (kWidth e.i)
  let em := if k = .load then e.em else e.em &&& (0xFFFFFFFF - e.h.helper)
  let lanes := if op = 0xA2 then [lowLane em] else onesBelow em 32
  let r := kWidthRegs (kWidth e.i)
  lanes.flatMap fun l =>
    let a := kAddr e l
    match k with
    | .load => accPieces l a n 0 0
    | .store => accPieces l a n (hvWide e.h (kVD e.i) l r % 2 ^ (8 * n)) 0
    | .atomic _ => [{ lane := l, pos := 0, n := n, addr := a / n * n, data := hvWide e.h (kXVS e.i) l r
                      cmp := if op = 0xB1 then hvWide e.h (kXVC e.i) l r else 0 }]

/-- The effect of a load, store or atomic (R297 to R304). -/
def kMemory (e : KEnv) : KEnv :=
  let op := kOp e.i
  let k := memKind op
  let owner := heatOwner e.b.core e.h.age
  let s := if ordReleases e.i then scopeRelease e.s e.b.core (kScope e.i) else e.s
  let accs := kAccs e
  match memFault s e.b owner (kSpace e.i) k accs with
  | some (s', f) => { e with s := mmuCapture s' e.b.slot f, fault := some (faultResult f) }
  | none =>
    let m := memRun owner (kSpace e.i) k accs.length { s := s, b := e.b, left := accs, got := [] }
    let e := { e with b := m.b }
    match m.left with
    | [] =>
      let s := remoteFlush m.s owner
      let s := if ordAcquires e.i then scopeAcquire s e.b.core (kScope e.i) else s
      { e with s := s, writes := if k = .store then [] else memWrites (kVD e.i) (kWidth e.i) (decide (op = 0xA2)) m.got }
    | left =>
      { e with s := m.s, work := .mem op (kWidth e.i) (kSpace e.i) left m.got
               acquire := if ordAcquires e.i then some (kScope e.i) else none }

/-- The effect of FENCE: a release, then an acquire, as ORD asks (R304). -/
def kFence (e : KEnv) : KEnv :=
  let s := if 2 ≤ kOrd e.i then scopeRelease e.s e.b.core (kScope e.i) else e.s
  { e with s := if kOrd e.i % 2 = 1 then scopeAcquire s e.b.core (kScope e.i) else s }

/-! ### Sync objects (R306, R307) -/

/-- Whether a block's ring is a twin ring of a device out of OFF. -/
def blkTwin (s : State) (b : Blk) : Bool := twinRing s b.id.ring && decide (twinState s ≠ 0)

/-- An uncorrectable sync entry loses the context (R203). -/
def syncBad (s : State) (b : Blk) (bad : Bool) : State := if bad then contextLoss s b.slot 0x21 b.id.ring b.id.seq true else s

/-- The effect of SIG (R306): it completes when its signal takes effect, so one that must wait for the mirror queue stays
outstanding (R540). -/
def kSig (e : KEnv) : KEnv :=
  let w := hs e.h (kSA e.i)
  let v := hs64 e.h (kSB e.i)
  let s := l1Release e.s e.b.core
  if bit w 31 then
    let tag := (vzlFreeTag s).getD 0
    { e with s := (vzlSend s 4 (fld w 16 7) (fld w 0 16) 8 0 false (leBytes v 8) (heatOwner e.b.core e.h.age)).getD s
             work := .reply tag }
  else if inSignalRange s e.b.slot (fld w 0 16) then
    if syncMustWait s (blkTwin s e.b) then { e with s := s, work := .sig (fld w 0 16) v }
    else
    let (s, _, bad) := signalObj s (fld w 0 16) v e.b.slot (blkTwin s e.b)
    { e with s := syncBad s e.b bad }
  else { e with s := sigReject s e.b.slot (fld w 0 16) }

/-- Whether a SWAIT's condition holds: outside the wait range at once, else by the entry's counter (R307). -/
def swaitHolds (s : State) (b : Blk) (obj value : Nat) : State × Bool :=
  if !inWaitRange s b.slot obj then (s, true)
  else
    let (s, e, bad) := syncRead s obj
    (syncBad s b bad, bad || decide (value ≤ e.counter))

/-- The effect of SWAIT (R307). -/
def kSwait (e : KEnv) : KEnv :=
  let obj := (hs e.h (kSA e.i)).toNat % 2 ^ 16
  let v := hs64 e.h (kSB e.i)
  let (s, ok) := swaitHolds e.s e.b obj v
  if ok then { e with s := l1Acquire s e.b.core } else { e with s := s, work := .swait obj v }

/-- A waiting SWAIT is evaluated again, and completes with an acquire when it holds. -/
def swaitCheck (s : State) (core age : Nat) : State :=
  match findAnyHeat s core age with
  | none => s
  | some (b, h) =>
    match h.ops.findSome? fun o => match o.work with | .swait obj v => some (o, obj, v) | _ => none with
    | none => s
    | some (o, obj, v) =>
      let (s, ok) := swaitHolds (blkAccess s b) b obj v
      if ok then putBlk (l1Acquire s core) (putHeat b (opComplete h o (coreOf s core).cycle)) else s

/-! ### Allocation (R308) -/

/-- The effect of ALLOC (R217, R218, R222, R308). -/
def kAlloc (e : KEnv) : KEnv :=
  let n := (hs e.h (kSA e.i)).toNat
  let (s, va, st) := heapAlloc e.s e.b.slot n
  let s := if st = 0 then s else allocNull s e.b.id n st
  { e with s := s, writes := [{ reg := .s (kSD e.i), vals := [BitVec.ofNat 32 va] },
                              { reg := .s (kSD e.i + 1), vals := [BitVec.ofNat 32 (va / 2 ^ 32)] },
                              { reg := .s (kSB e.i), vals := [BitVec.ofNat 32 st] }] }

/-- The effect of FREE (R219, R308). -/
def kFree (e : KEnv) : KEnv :=
  let (s, st) := heapFree e.s e.b.slot (hs64 e.h (kSA e.i))
  sclWrite { e with s := s } (kSB e.i) (BitVec.ofNat 32 st)

end Sys2Proof.Machine
end

