-- ==== Sys2Proof/Machine/Tensor.lean ====
section
/-!
DEFINITION. Tensor arithmetic (spec/11_tensor_arithmetic.md R336 to R354): storage formats, contributions, the exact
window, the accumulator tile with its status word, and the output conversion of TOUT.
-/

namespace Sys2Proof.Machine

/-! ### Storage formats (R337 to R341) -/

/-- Width of a storage format in bits. -/
def tFmtBits (f : Nat) : Nat := match f with
  | 0 => 4
  | 1 => 8
  | 2 => 16
  | 3 => 8
  | 4 => 8
  | 5 => 16
  | 6 => 16
  | _ => 32

/-- Exponent and fraction bits of a float format; none for an integer format. -/
def tFloat (f : Nat) : Option FpFmt := match f with
  | 3 => some { eb := 4, mb := 3 }
  | 4 => some { eb := 5, mb := 2 }
  | 5 => some fp16
  | 6 => some bf16
  | 7 => some fp32
  | _ => none

/-- A decoded operand: (-1)^s * M and E (R338); none for NaN and infinity (R339). -/
def tDecode (f x : Nat) : Option (Int × Int) :=
  match tFloat f with
  | none => some (sext x (tFmtBits f), 0)
  | some g =>
    let e := nfld x g.mb g.eb
    let m := x % 2 ^ g.mb
    let special := if f = 3 then decide (x % 128 = 127) else decide (e = 2 ^ g.eb - 1)
    if special then none
    else
      let b : Int := fpBias g
      let (mm, ee) : Nat × Int := if e = 0 then (m, 1 - b - g.mb) else (2 ^ g.mb + m, (e : Int) - b - g.mb)
      some (if x.testBit (g.eb + g.mb) then -(mm : Int) else (mm : Int), ee)

/-- Permitted format pairs (R340). -/
def tPairOk (a b : Nat) : Bool :=
  let int := fun (f : Nat) => decide (f < 3)
  let narrow := fun (f : Nat) => decide (3 ≤ f) && decide (f < 7)
  (int a && int b) || (narrow a && narrow b) || (decide (a = 7) && decide (b = 7))

/-- The pieces of an FP32 operand: P_i and w_i (R342). -/
def tSplit (m : Int) : List (Int × Nat) :=
  let a := m.natAbs
  let s : Int := if m < 0 then -1 else 1
  let h : Int := ((a + 2 ^ 15) / 2 ^ 16 : Nat)
  let r1 : Int := (a : Int) - h * 65536
  let mi : Int := (r1 + 128) / 256
  [(s * h, 16), (s * mi, 8), (s * (r1 - mi * 256), 0)]

/-- The exact sum of the kept partial products of two operands, as a mantissa and an exponent (R336, R341, R343). -/
def tContribution (fa fb : Nat) (a b : Int × Int) : Int × Int :=
  if fa = 7 ∧ fb = 7 then
    let pa := (tSplit a.1).zipIdx
    let pb := (tSplit b.1).zipIdx
    let one := fun (p q : (Int × Nat) × Nat) =>
      if p.2 + q.2 ≤ 2 then p.1.1 * q.1.1 * ((2 ^ (p.1.2 + q.1.2) : Nat) : Int) else (0 : Int)
    let sum := (pa.flatMap fun p => pb.map fun q => one p q).foldl (fun (x y : Int) => x + y) 0
    (sum, a.2 + b.2)
  else (a.1 * b.1, a.2 + b.2)

/-! ### The accumulator tile (R344 to R347) -/

/-- The status word of a tile (R345). -/
structure TileStat where
  underflow : Nat := 0
  sat : Bool := false
  nan : Bool := false
  satCount : Nat := 0
  clip : Nat := 0
deriving DecidableEq, Repr

/-- A tile: its elements, none for the NaN marker, and its status word. -/
structure AccTile where
  elems : List (Option Int)
  stat : TileStat := {}
deriving DecidableEq, Repr

/-- The element that 16 bytes encode (R344). -/
def elemOf (x : Nat) : Option Int := if x = 2 ^ 127 then none else some (sext x 128)

/-- The encoding of an element. -/
def elemBits (q : Option Int) : Nat := match q with
  | none => 2 ^ 127
  | some v => wrapU v 128

/-- The status word in its 16 bytes. -/
def statBits (t : TileStat) : Nat :=
  t.underflow + 2 ^ 32 * b2n t.sat + 2 ^ 33 * b2n t.nan + 2 ^ 64 * t.satCount + 2 ^ 96 * t.clip

/-- A status word from its 16 bytes; its res bits are dropped. -/
def statOf (x : Nat) : TileStat :=
  { underflow := x % 2 ^ 32, sat := x.testBit 32, nan := x.testBit 33, satCount := nfld x 64 32, clip := nfld x 96 32 }

/-- A list cut into runs of n bytes, k of them. -/
def cutBytes (n : Nat) : Nat → List Byte → List (List Byte)
  | 0, _ => []
  | k + 1, bs => bs.take n :: cutBytes n k (bs.drop n)

/-- A tile from its 16,400 bytes. -/
def tileOf (bs : List Byte) : AccTile :=
  { elems := (cutBytes 16 1024 bs).map fun x => elemOf (leValue x), stat := statOf (leValue (bs.drop 16384)) }

/-- The 16,400 bytes of a tile. -/
def tileBits (t : AccTile) : List Byte := (t.elems.flatMap fun q => leBytes (elemBits q) 16) ++ leBytes (statBits t.stat) 16

/-- A counter that saturates at 2^32 - 1. -/
def sat32 (n : Nat) : Nat := min n 0xFFFFFFFF

/-- The saturation value. -/
def satMax : Int := 2 ^ 127 - 1

/-- c / 2^WEXP truncated toward zero, and whether bits were lost (R347). -/
def windowTrunc (c : Int × Int) (wexp : Int) : Int × Bool :=
  let k := c.2 - wexp
  if 0 ≤ k then (c.1 * (2 ^ k.toNat : Nat), false)
  else
    let d : Int := (2 ^ (-k).toNat : Nat)
    (c.1.tdiv d, decide (c.1.tmod d ≠ 0))

/-- One element in one K-step (R347). -/
def elemStep (fa fb : Nat) (wexp : Int) (a b : Option (Int × Int)) (q : Option Int) (st : TileStat) : Option Int × TileStat :=
  match q with
  | none => (none, st)
  | some v =>
    match a, b with
    | some x, some y =>
      let (d, lost) := windowTrunc (tContribution fa fb x y) wexp
      let st := if lost then { st with underflow := sat32 (st.underflow + 1) } else st
      let t := v + d
      if satMax < t then (some satMax, { st with sat := true, satCount := sat32 (st.satCount + 1) })
      else if t < -satMax then (some (-satMax), { st with sat := true, satCount := sat32 (st.satCount + 1) })
      else (some t, st)
    | _, _ => (none, { st with nan := true })

/-- One K-step over the tile: column k of A and row k of B, decoded. -/
def tileKStep (fa fb : Nat) (wexp : Int) (col row : List (Option (Int × Int))) (t : AccTile) : AccTile :=
  let r := t.elems.zipIdx.foldl (fun (acc : List (Option Int) × TileStat) p =>
    let (q, st) := elemStep fa fb wexp ((col[p.2 / 64]?).getD (some (0, 0))) ((row[p.2 % 64]?).getD (some (0, 0))) p.1 acc.2
    (q :: acc.1, st)) ([], t.stat)
  { elems := r.1.reverse, stat := r.2 }

/-- The n elements of a format from element index i on, in the bytes of an operand as a number. -/
def tOperands (f x i n : Nat) : List (Option (Int × Int)) :=
  (List.range n).map fun j => tDecode f (nfld x ((i + j) * tFmtBits f) (tFmtBits f))

/-- K-steps lo to hi - 1, with the A and B operands as numbers whose first K-step is lo. -/
def tileRun (fa fb : Nat) (wexp : Int) (a b lo hi : Nat) (t : AccTile) : AccTile :=
  (List.range (hi - lo)).foldl (fun t k => tileKStep fa fb wexp (tOperands fa a (16 * k) 16) (tOperands fb b (64 * k) 64) t) t

/-! ### Output conversion (R349 to R354) -/

/-- A control block: its first four words, its scales and its biases. -/
structure OutCtrl where
  w : List Nat
  scale : List Word
  bias : List Word
deriving DecidableEq, Repr

/-- Word i of a control block. -/
def ctrlWord (c : OutCtrl) (i : Nat) : Nat := (c.w[i]?).getD 0

/-- The least exponent of a grid point's spacing, and the greatest, for a float format; 0 and 0 for integers (R351). -/
def gridExps (f : Nat) : Int × Int := match tFloat f with
  | none => (0, 0)
  | some g =>
    let top : Int := if f = 3 then 8 else (2 ^ g.eb - 2 : Nat) - (fpBias g : Int)
    (1 - (fpBias g : Int) - g.mb, top - g.mb)

/-- The exponent of the grid spacing at a value m * 2^e with m > 0. -/
def gridStep (f m : Nat) (e : Int) : Int :=
  match tFloat f with
  | none => 0
  | some g =>
    let (lo, hi) := gridExps f
    max lo (min hi ((Nat.log2 m : Int) + e - g.mb))

/-- The largest magnitude of the finite range, as a multiple of the spacing's exponent: (count, exponent); for an
integer format the bounds are those of two's complement. -/
def fmtMax (f : Nat) : Nat × Int := match tFloat f with
  | none => (2 ^ (tFmtBits f - 1) - 1, 0)
  | some g => (if f = 3 then 14 else 2 ^ (g.mb + 1) - 1, (gridExps f).2)

/-- The 24 bits R of stochastic rounding (R352). -/
def stochR (c : OutCtrl) (m n : Nat) : Nat :=
  let row := (ctrlWord c 1 % 2 ^ 32 + m) % 2 ^ 32
  let col := (ctrlWord c 1 / 2 ^ 32 + n) % 2 ^ 32
  let z : DWord := BitVec.ofNat 64 (ctrlWord c 2) ^^^ BitVec.ofNat 64 (row * 2 ^ 32) ^^^ BitVec.ofNat 64 col
  let z := (z ^^^ (z >>> 30)) * 0xBF58476D1CE4E5B9
  let z := (z ^^^ (z >>> 27)) * 0x94D049BB133111EB
  (z ^^^ (z >>> 31)).toNat / 2 ^ 40

/-- A finite value (-1)^neg * m * 2^e rounded to the grid, as a signed count of spacings and their exponent (R352). -/
def gridRound (f rnd r : Nat) (neg : Bool) (m : Nat) (e : Int) : Int × Int :=
  let g := gridStep f m e
  let v : Int := if neg then -(m : Int) else (m : Int)
  let k := e - g
  if 0 ≤ k then (v * (2 ^ k.toNat : Nat), g)
  else
    let d : Int := (2 ^ (-k).toNat : Nat)
    let lo := v.fdiv d
    let rest := v - lo * d
    if rest = 0 then (lo, g)
    else
      let up := match rnd with
        | 1 => neg
        | 2 => decide ((r : Int) < rest * 16777216 / d)
        | _ => decide (d < 2 * rest) || (decide (2 * rest = d) && decide (lo % 2 ≠ 0))
      (if up then lo + 1 else lo, g)

/-- Compares c * 2^e with m * 2^k, both not negative: whether the first is larger. -/
def dyGt (c : Nat) (e : Int) (m : Nat) (k : Int) : Bool :=
  if e ≤ k then decide (m * 2 ^ (k - e).toNat < c) else decide (m < c * 2 ^ (e - k).toNat)

/-- The encoding of a value c * 2^e of the grid inside the finite range (R353); neg0 is the sign of a zero. -/
def gridEncode (f : Nat) (c : Int) (e : Int) (neg0 : Bool) : Nat :=
  match tFloat f with
  | none => wrapU (c * (2 ^ e.toNat : Nat)) (tFmtBits f)
  | some g =>
    let sign := if c < 0 ∨ (c = 0 ∧ neg0) then 2 ^ (g.eb + g.mb) else 0
    if c = 0 then sign
    else
      let m := c.natAbs
      let top := (Nat.log2 m : Int) + e
      let lo := 1 - (fpBias g : Int)
      if top < lo then sign + m * 2 ^ (e - (lo - g.mb)).toNat
      else
        let ef := (top + fpBias g).toNat
        let k := e - (top - g.mb)
        let frac := if 0 ≤ k then m * 2 ^ k.toNat else m / 2 ^ (-k).toNat
        sign + ef * 2 ^ g.mb + (frac - 2 ^ g.mb)

/-- The NaN output of a format (R353). -/
def fmtNan (f : Nat) : Nat := match f with
  | 3 => 0x7F
  | 4 => 0x7E
  | 5 => 0x7E00
  | 6 => 0x7FC0
  | 7 => 0x7FC00000
  | _ => 0

/-- The bound of a finite range on one side, encoded. -/
def fmtBound (f : Nat) (neg : Bool) : Nat :=
  match tFloat f with
  | none => if neg then 2 ^ (tFmtBits f - 1) else 2 ^ (tFmtBits f - 1) - 1
  | some _ => gridEncode f (if neg then -((fmtMax f).1 : Int) else ((fmtMax f).1 : Int)) (fmtMax f).2 false

/-- Whether c * 2^e lies outside the finite range of a format. -/
def outOfRange (f : Nat) (c e : Int) : Bool :=
  match tFloat f with
  | none => decide (c < -(2 ^ (tFmtBits f - 1) : Nat)) || decide (((2 ^ (tFmtBits f - 1) - 1 : Nat) : Int) < c)
  | some _ => dyGt c.natAbs e (fmtMax f).1 (fmtMax f).2

/-- Steps 4 to 6 of R351: the encoding, and whether it was clipped. -/
def outEncode (f rnd r : Nat) (a : FVal) : Nat × Bool :=
  match a with
  | .nan => (fmtNan f, false)
  | .inf neg => (fmtBound f neg, true)
  | .num neg m e =>
    if m = 0 then (0, false)
    else
      let (c, g) := gridRound f rnd r neg m e
      if outOfRange f c g then (fmtBound f (decide (c < 0)), true) else (gridEncode f c g neg, false)

/-- The activation of R351. -/
def outAct (c : OutCtrl) (y : FVal) : FVal :=
  match nfld (ctrlWord c 0) 2 2 with
  | 1 => if fvLt y (.num false 0 0) then .num false 0 0 else y
  | 2 =>
    let lo := fv (BitVec.ofNat 32 (ctrlWord c 3))
    let hi := fv (BitVec.ofNat 32 (ctrlWord c 3 / 2 ^ 32))
    let t := if fvNan lo then y else if fvLt y lo then lo else y
    if fvNan hi then t else if fvLt hi t then hi else t
  | _ => y

/-- Whether a value is NaN or infinite. -/
def fvSpecial (v : FVal) : Bool := match v with
  | .num _ _ _ => false
  | _ => true

/-- The output of one element (R351): the encoding, and whether it was clipped. -/
def outElem (f : Nat) (c : OutCtrl) (m n : Nat) (q : Option Int) : Nat × Bool :=
  let w0 := ctrlWord c 0
  let scale := if w0.testBit 4 then fv ((c.scale[n]?).getD 0) else .num false 1 0
  let bias := if w0.testBit 5 then fv ((c.bias[n]?).getD 0) else .num false 0 0
  match q with
  | none => (fmtNan f, false)
  | some v =>
    if fvSpecial scale || fvSpecial bias then (fmtNan f, false)
    else
      let x : FVal := .num (decide (v < 0)) v.natAbs (sext (nfld w0 16 16) 16)
      outEncode f (w0 % 4) (stochR c m n) (outAct c (fvAdd 0 (fvMul x scale) bias))

/-- All outputs of a tile: 128 * b bytes, and the elements clipped (R354). -/
def outTile (f : Nat) (c : OutCtrl) (t : AccTile) : List Byte × Nat :=
  let rs := t.elems.zipIdx.map fun p => outElem f c (p.2 / 64) (p.2 % 64) p.1
  let b := tFmtBits f
  let bytes := if b = 4 then
      (List.range 512).map fun i =>
        BitVec.ofNat 8 (((rs[2 * i]?).getD (0, false)).1 + 16 * ((rs[2 * i + 1]?).getD (0, false)).1)
    else rs.flatMap fun r => leBytes r.1 (b / 8)
  (bytes, (rs.filter fun r => r.2).length)

end Sys2Proof.Machine
end

