-- ==== Sys2Proof/Machine/Tns.lean ====
section
/-!
DEFINITION. The TNS units (spec/10_kamir_semantics.md R319 to R326; spec/11_tensor_arithmetic.md R345, R354 to R356):
TMMA, TOUT and TCLR at issue, and what begins, completes and stops in a unit's queue.
-/

namespace Sys2Proof.Machine

/-! ### Parameters and range checks -/

/-- Parameter i of an operation. -/
def tnsPar (o : TnsOp) (i : Nat) : Nat := (o.params[i]?).getD 0

/-- TMMA parameters from its five words: A, B, ACC, K, FMT_A, FMT_B, WEXP (R320). -/
def tmmaParams (a b acc k f : Nat) : List Nat :=
  [a / 64 * 64, b / 64 * 64, acc / 256 * 256, k, f % 16, nfld f 4 4, nfld f 16 16]

/-- TOUT parameters from its three words: tile, output, OUT_FMT, control block (R349). -/
def toutParams (tile out ctrl : Nat) : List Nat := [tile / 256 * 256, out / 64 * 64, out % 16, ctrl / 64 * 64]

/-- TCLR's parameter (R322). -/
def tclrParams (tile : Nat) : List Nat := [tile / 256 * 256]

/-- Whether formats are permitted (R320, R340, R349). -/
def tnsFmtOk (kind : TnsKind) (p : List Nat) : Bool :=
  let at' := fun (i : Nat) => (p[i]?).getD 0
  match kind with
  | .tmma => decide (at' 4 < 8) && decide (at' 5 < 8) && tPairOk (at' 4) (at' 5)
  | .tout => decide (at' 2 < 8)
  | .tclr => true

/-- The ranges of an operation in the order of their checks: offset, bytes and kind of access (R320, R322, R349). -/
def tnsRanges (kind : TnsKind) (p : List Nat) : List (Nat × Nat × Nat) :=
  let at' := fun (i : Nat) => (p[i]?).getD 0
  match kind with
  | .tmma =>
    if at' 3 = 0 then []
    else [(at' 0, 2 * tFmtBits (at' 4) * at' 3, 0), (at' 1, 8 * tFmtBits (at' 5) * at' 3, 0), (at' 2, 16400, 0)]
  | .tout => [(at' 0, 16400, 0), (at' 1, 128 * tFmtBits (at' 2), 1), (at' 3, 576, 0)]
  | .tclr => [(at' 0, 16400, 1)]

/-- The first range that does not fit a window of so many bytes: the offset reported and the access (R197). -/
def rangesFault (limit : Nat) (rs : List (Nat × Nat × Nat)) : Option (Nat × Nat) :=
  rs.findSome? fun r => if r.1 + r.2.1 ≤ limit then none else some (max r.1 limit, r.2.2)

/-! ### Issue -/

/-- A tensor instruction at issue: its formats and ranges are checked and it joins the queue (R319, R320). -/
def tnsIssue (kind : TnsKind) (p : List Nat) (e : KEnv) : KEnv :=
  let c := e.b.core / 4
  if !tnsFmtOk kind p then { e with fault := some (illegalResult e.b e.h) }
  else
    match rangesFault (blkWinBytes e.b) (tnsRanges kind p) with
    | some (o, acc) =>
      let f := sheetFault c o acc true
      { e with s := mmuCapture e.s e.b.slot f, fault := some (faultResult f) }
    | none =>
      let op : TnsOp :=
        { owner := .heat e.b.core e.h.age (e.h.opNum - 1), id := e.b.id, kind := kind, params := p, layer := e.b.layer
          vcl := e.b.vcl, mapSens := e.b.mapSens
          window := (blkWindow e.b).getD { owner := e.b.id, part := 0, cluster := c, granules := [] } }
      { e with s := onCore e.s e.b.core fun x => { x with tns := x.tns ++ [op] }, work := if kind = .tmma then .engine else .tns }

/-- Parameter word j of a format L instruction: s(SP + j). -/
def lPar (e : KEnv) (j : Nat) : Nat := (hs e.h (kSP e.i + j)).toNat

/-! ### The queue -/

/-- The operation at the head of a core's queue. -/
def tnsHead (s : State) (core : Nat) : Option TnsOp := (coreOf s core).tns.head?

/-- TNS_BEGIN (R319): the head begins. -/
def tnsBegin (s : State) (core : Nat) : State :=
  onCore s core fun x => { x with tns := match x.tns with
                                          | o :: os => { o with begun := true } :: os
                                          | [] => [] }

/-- The head leaves the queue. -/
def tnsPop (s : State) (core : Nat) : State := onCore s core fun x => { x with tns := x.tns.drop 1 }

/-- The window offset of an absolute offset of a window's granule. -/
def winOffOf (w : Window) (o : Nat) : Nat := ((w.granules.findIdx? fun g => decide (g = o / 65536)).getD 0) * 65536 + o % 65536

/-- A tensor unit met an uncorrectable sheet word (R203). -/
def tnsBad (s : State) (core : Nat) (o : TnsOp) (bad : Nat) : State :=
  let f := sheetBadFault o.window.cluster bad 0 (sheetPa o.window.cluster (winOffOf o.window bad) true)
  unitFault (tnsPop s core) (descOf s o.id) f

/-- A digested write of the TNS unit at a window offset (R588, R589). -/
def tnsWrite (s : State) (o : TnsOp) (off : Nat) (bs : List Byte) (tap : Bool) : State :=
  let s := winWrite s o.window off (bs.map some)
  if tap then
    match findDesc s o.id with
    | some d =>
      digestWrite s d { mapSens := o.mapSens, layer := some o.layer, cluster := some o.window.cluster }
        (sheetWriteKey o.vcl off) (bs.map some)
    | none => s
  else s

/-- An operation completes: its heat's operation or its layer step does (R280, R364). -/
def tnsDone (s : State) (core : Nat) (o : TnsOp) (st : TileStat) : State :=
  let s := tnsPop s core
  match o.owner with
  | .heat k age num => opDone s k age num fun h => if o.kind = .tmma then { h with progress := 0 } else h
  | .step id i => stepEnded s id i st.sat st.nan (decide (st.underflow ≠ 0))
  | .desc => s

/-- A TMMA's K-steps from its progress up to a bound, written back (R321, R325, R347). The flag taps the write. -/
def tmmaRun (s : State) (core : Nat) (o : TnsOp) (hi : Nat) (tap : Bool) : State × Except State TnsOp :=
  let lo := o.progress
  let (s, tb, e1) := winRead s o.window (tnsPar o 2) 16400
  let (s, ab, e2) := winRead s o.window (tnsPar o 0 + 2 * tFmtBits (tnsPar o 4) * lo) (2 * tFmtBits (tnsPar o 4) * (hi - lo))
  let (s, bb, e3) := winRead s o.window (tnsPar o 1 + 8 * tFmtBits (tnsPar o 5) * lo) (8 * tFmtBits (tnsPar o 5) * (hi - lo))
  match e1 <|> e2 <|> e3 with
  | some bad => (s, .error (tnsBad s core o bad))
  | none =>
    let t := tileOf tb
    let t' := tileRun (tnsPar o 4) (tnsPar o 5) (sext (tnsPar o 6) 16) (leValue ab) (leValue bb) lo hi t
    let s := inc64 s (Reg.taKstepsLo (core / 4) (core % 4)) (hi - lo)
    let s := tnsWrite s o (tnsPar o 2) (tileBits t') tap
    let nanNow := (t.elems.zip t'.elems).any fun p => p.1.isSome && p.2.isNone
    (s, .ok { o with progress := hi, satRose := o.satRose || decide (t.stat.satCount < t'.stat.satCount)
                     nanRose := o.nanRose || nanNow
                     underRose := o.underRose || decide (t.stat.underflow < t'.stat.underflow) })

/-- The counters of R356 at a TMMA's completion. -/
def tmmaCount (s : State) (core : Nat) (o : TnsOp) : State :=
  let c := core / 4
  let k := core % 4
  let s := if o.satRose then satInc s (Reg.taSatOps c k) 1 else s
  let s := if o.nanRose then satInc s (Reg.taNanOps c k) 1 else s
  if o.underRose then satInc s (Reg.taUnderflowOps c k) 1 else s

/-- The head, when it has begun and is of a kind. -/
def tnsRunning (s : State) (core : Nat) (kind : TnsKind) : Option TnsOp :=
  (tnsHead s core).filter fun o => o.begun && decide (o.kind = kind)

/-- A TMMA writes back its tile and completes (R321); K = 0 makes no access (R320). -/
def tmmaComplete (s : State) (core : Nat) : State :=
  match tnsRunning s core .tmma with
  | none => s
  | some o =>
    if tnsPar o 3 = 0 then tnsDone s core o {}
    else
      match tmmaRun s core o (tnsPar o 3) true with
      | (_, .error s) => s
      | (s, .ok o) => tnsDone (tmmaCount s core o) core o {}

/-- Whether an operation's work has been told to stop: its block for preemption, or its descriptor (R325). -/
def tnsStopping (s : State) (o : TnsOp) : Bool :=
  !descRuns s o.id ||
    match o.owner with
    | .heat k age _ => match findAnyHeat s k age with
      | some (b, _) => b.stopping
      | none => false
    | _ => false

/-- A stopped operation of a heat is parked, with the heat's progress register set; one that is cancelled is
discarded (R325, R326). -/
def tnsPark (s : State) (core : Nat) (o : TnsOp) : State :=
  match o.owner, descRuns s o.id with
  | .heat k age _, true =>
    let s := onCore s core fun x => { x with parked := x.parked ++ [{ o with begun := false }] }
    onCore s k fun x => { x with blocks := x.blocks.map fun b => { b with heats := b.heats.map fun h =>
      if h.age = age then { h with progress := o.progress } else h } }
  | _, _ => s

/-- TMMAs of a core that have not begun and are told to stop leave the queue at once; a TOUT or TCLR told to stop runs to
completion (R325, R327, R355). -/
def tnsStopQueued (s : State) (core : Nat) : State :=
  let gone := fun (o : TnsOp) => !o.begun && tnsStopping s o && decide (o.kind = .tmma)
  let os := (coreOf s core).tns.filter gone
  os.foldl (fun s o => tnsPark s core o) (onCore s core fun x => { x with tns := x.tns.filter fun o => !gone o })

/-- A TMMA told to stop reaches K-step 64 * groups, writes its partial tile back and parks (R325). -/
def tmmaStop (s : State) (core groups : Nat) : State :=
  let s := tnsStopQueued s core
  match tnsRunning s core .tmma with
  | none => s
  | some o =>
    let k := 64 * groups
    if tnsStopping s o ∧ o.progress ≤ k ∧ k < tnsPar o 3 then
      match tmmaRun s core o k false with
      | (_, .error s) => s
      | (s, .ok o) => tnsPark (tnsPop s core) core o
    else s

/-- A control block from its 576 bytes; the tables are read only when enabled (R350). -/
def ctrlOf (bs : List Byte) : OutCtrl :=
  { w := (cutBytes 8 8 bs).map leValue
    scale := (cutBytes 4 64 (bs.drop 64)).map fun x => BitVec.ofNat 32 (leValue x)
    bias := (cutBytes 4 64 (bs.drop 320)).map fun x => BitVec.ofNat 32 (leValue x) }

/-- A TOUT writes its outputs and status word and completes (R354, R355). -/
def toutComplete (s : State) (core : Nat) : State :=
  match tnsRunning s core .tout with
  | none => s
  | some o =>
    let (s, tb, e1) := winRead s o.window (tnsPar o 0) 16400
    let (s, hb, e2) := winRead s o.window (tnsPar o 3) 64
    let w0 := leValue (hb.take 8)
    let (s, sb, e3) := if w0.testBit 4 then winRead s o.window (tnsPar o 3 + 64) 256 else (s, List.replicate 256 0, none)
    let (s, bb, e4) := if w0.testBit 5 then winRead s o.window (tnsPar o 3 + 320) 256 else (s, List.replicate 256 0, none)
    match e1 <|> e2 <|> e3 <|> e4 with
    | some bad => tnsBad s core o bad
    | none =>
      let t := tileOf tb
      let (bytes, clips) := outTile (tnsPar o 2) (ctrlOf (hb ++ sb ++ bb)) t
      let st := { t.stat with clip := sat32 (t.stat.clip + clips) }
      let s := tnsWrite s o (tnsPar o 1) bytes true
      let s := tnsWrite s o (tnsPar o 0 + 16384) (leBytes (statBits st) 16) true
      let s := if clips = 0 then s else satInc s (Reg.taClipOps (core / 4) (core % 4)) 1
      tnsDone s core o t.stat

/-- A TCLR has zeroed its tile and completes (R322). -/
def tclrComplete (s : State) (core : Nat) : State :=
  match tnsRunning s core .tclr with
  | none => s
  | some o => tnsDone (tnsWrite s o (tnsPar o 0) (List.replicate 16400 0) true) core o {}

end Sys2Proof.Machine
end

