-- ==== Sys2Proof/Machine/Lift.lean ====
section
/-!
DEFINITION. The lift engines (spec/06_memory_hierarchy.md R199 to R202; spec/10_kamir_semantics.md R323 to R327): LIFT
descriptors, Kamir LIFT, moves to their progress points, completion and stops.
-/

namespace Sys2Proof.Machine

/-! ### Ranges -/

/-- Blocks of a compressed move (R202). -/
def liftBlocks (r : LiftReq) : Nat := ceilDiv (r.rows * r.rowBytes) 4096

/-- The first row whose bytes pass a limit, as the first offset at or beyond the limit in it (R197). -/
def rowsFault (limit o rowBytes rows stride : Nat) : Option Nat :=
  if rowBytes = 0 ∨ rows = 0 then none
  else if limit < o + rowBytes then some (max o limit)
  else if stride = 0 then none
  else
    let k := (limit - rowBytes - o) / stride + 1
    if k < rows then some (max (o + k * stride) limit) else none

/-- The bytes of the packed side: its slots and its size entries (R499). -/
def packedBytes (r : LiftReq) : Nat := 4100 * liftBlocks r

/-- The fault of one side whose range passes its window or its sheet (R197, R201, R362). -/
def sideFault (r : LiftReq) (c : Nat) (side : LiftSide) (packed : Bool) (stride access : Nat) : Option MFault :=
  let chk := fun (limit o : Nat) (window : Bool) =>
    (if packed then rowsFault limit o (packedBytes r) 1 0 else rowsFault limit o r.rowBytes r.rows stride).map fun x =>
      sheetFault c x access window
  match side with
  | .sheet o => chk (2 ^ 22) o false
  | .win w o => chk (winBytes w) o true
  | _ => none

/-- The first range of a move that does not fit, source before destination; a move of no bytes has none (R197). -/
def liftFault (r : LiftReq) (c : Nat) : Option MFault :=
  if r.rowBytes = 0 ∨ r.rows = 0 then none
  else
    match sideFault r c r.src (decide (r.comp = 2)) r.srcStride accLoad with
    | some f => some f
    | none => sideFault r c r.dst (decide (r.comp = 1)) r.dstStride accStore

/-! ### Accesses -/

/-- The requester number of a lift engine at other devices. -/
def liftOwner (c : Nat) : Nat := 2 ^ 52 + c

/-- Byte col of row row of a side: a VA or an offset. -/
def sideOff (s : State) (side : LiftSide) (row stride col : Nat) : Nat :=
  match side with
  | .va a => (a + row * stride + col) % 2 ^ 64
  | .sheet o => o + row * stride + col
  | .win _ o => o + row * stride + col
  | .cam n l0 =>
    rdF s (Reg.csiWin n) 16 6 * 65536 + (l0 + row) % max 1 (rdF s (Reg.csiWin n) 0 12) * rdF s (Reg.csiWinStride n) 0 17 + col

/-- What reading sheet bytes comes to (R203). -/
def sheetRes (c o : Nat) (window : Bool) (x : State × List Byte × Option Nat) : State × AccRes (List Byte) :=
  match x with
  | (s, _, some bad) => (s, .fault (sheetBadFault c bad accLoad (sheetPa c o window)))
  | (s, bs, none) => (s, .ok bs)

/-- A read of n bytes of one row of a side. -/
def sideRead (s : State) (c slot : Nat) (side : LiftSide) (row stride col n : Nat) : State × AccRes (List Byte) :=
  let o := sideOff s side row stride col
  match side with
  | .va _ => vaRead s (.unit (liftOwner c)) slot o n accLoad
  | .sheet _ => sheetRes c o false (sheetRead s c o n)
  | .win w _ => sheetRes w.cluster o true (winRead s w o n)
  | .cam _ _ => sheetRes c o false (sheetRead s c o n)

/-- The digest tap of a move (R589, R591). -/
def liftTap (r : LiftReq) (c : Nat) : Tap := { mapSens := r.mapSens, layer := r.layer, cluster := some c }

/-- A digested write of bytes of one row of the destination (R588). -/
def sideWrite (s : State) (c : Nat) (r : LiftReq) (row stride col : Nat) (bs : List Byte) : State × AccRes Unit :=
  let o := sideOff s r.dst row stride col
  let dig := fun (s : State) (key : Nat) => match findDesc s r.id with
    | some d => digestWrite s d (liftTap r c) key (bs.map some)
    | none => s
  match r.dst with
  | .va _ => match vaWrite s (.unit (liftOwner c)) r.slot o (bs.map some) with
    | (s, .ok u) => (dig s (o % 2 ^ 48), .ok u)
    | x => x
  | .win w _ => (dig (winWrite s w o (bs.map some)) (sheetWriteKey r.vcl o), .ok ())
  | _ => (dig (sheetWrite s c o (bs.map some)) (sheetWriteKey c o), .ok ())

/-- The PA that CMP_CHECK_ADDR shows for a slot of the source. -/
def sideSlotPa (s : State) (c slot : Nat) (side : LiftSide) (o : Nat) : Nat :=
  let x := sideOff s side 0 0 o
  match side with
  | .va _ => paOf s slot x
  | .win w _ => sheetPa w.cluster x true
  | _ => sheetPa c x false

/-! ### Units of a move (R200, R202) -/

/-- What a step of a move comes to: the bytes written to the destination, and a failing block. -/
abbrev LiftStep := State × AccRes (Nat × Bool)

/-- Units of a row. -/
def rowUnits (r : LiftReq) : Nat := ceilDiv r.rowBytes 64

/-- Units or blocks of the whole move. -/
def liftTotal (r : LiftReq) : Nat := if r.comp = 0 then r.rows * rowUnits r else liftBlocks r

/-- The next 64-byte unit of a move: read whole, then written (R200). -/
def liftUnit (s : State) (c : Nat) (r : LiftReq) : LiftStep :=
  let row := r.units / max 1 (rowUnits r)
  let col := 64 * (r.units % max 1 (rowUnits r))
  let n := min 64 (r.rowBytes - col)
  match sideRead s c r.slot r.src row r.srcStride col n with
  | (s, .fault f) => (s, .fault f)
  | (s, .wait) => (s, .wait)
  | (s, .ok bs) => match sideWrite s c r row r.dstStride col bs with
    | (s, .ok _) => (s, .ok (n, false))
    | (s, .fault f) => (s, .fault f)
    | (s, .wait) => (s, .wait)

/-- The pieces (row, column, bytes) of block i of the unpacked stream, cut at the units of each row (R200, R202). -/
def blockPieces (r : LiftReq) (i : Nat) : List (Nat × Nat × Nat) :=
  let lo := 4096 * i
  let hi := min (lo + 4096) (r.rows * r.rowBytes)
  if r.rowBytes = 0 ∨ hi ≤ lo then []
  else
    (List.range ((hi - 1) / r.rowBytes + 1 - lo / r.rowBytes)).flatMap fun k =>
      let row := lo / r.rowBytes + k
      let a := max lo (row * r.rowBytes) - row * r.rowBytes
      let b := min hi ((row + 1) * r.rowBytes) - row * r.rowBytes
      (List.range ((b + 63) / 64 - a / 64)).map fun j =>
        let x := max a ((a / 64 + j) * 64)
        (row, x, min b ((a / 64 + j + 1) * 64) - x)

/-- Reads the bytes of a block of the stream. -/
def streamRead (s : State) (c : Nat) (r : LiftReq) (ps : List (Nat × Nat × Nat)) : State × AccRes (List Byte) :=
  ps.foldl (fun (acc : State × AccRes (List Byte)) p => match acc.2 with
    | .ok bs => match sideRead acc.1 c r.slot r.src p.1 r.srcStride p.2.1 p.2.2 with
      | (s, .ok b) => (s, .ok (bs ++ b))
      | x => x
    | _ => acc) (s, .ok [])

/-- Writes the bytes of a block of the stream. -/
def streamWrite (s : State) (c : Nat) (r : LiftReq) (ps : List (Nat × Nat × Nat)) (bs : List Byte) : State × AccRes Unit :=
  let x := ps.foldl (fun (acc : State × AccRes Unit × List Byte) p => match acc.2.1 with
    | .ok _ => let (s, e) := sideWrite acc.1 c r p.1 r.dstStride p.2.1 (acc.2.2.take p.2.2)
      (s, e, acc.2.2.drop p.2.2)
    | _ => acc) (s, .ok (), bs)
  (x.1, x.2.1)

/-- The block request of a move. -/
def liftUser (c : Nat) (r : LiftReq) : CmpUser := .lift c r.owner r.id

/-- The next block of a packing move, on its CMP instance: its slot, then its size entry (R202, R499, R504). -/
def liftPack (s : State) (c : Nat) (r : LiftReq) : LiftStep :=
  match cmpPack s ((cmpHolder s (liftUser c r)).getD 0) (liftOwner c)
      (fun s => match streamRead s c r (blockPieces r r.units) with
        | (s, .ok bs) => (s, .ok (bs ++ List.replicate (4096 - bs.length) 0))
        | x => x)
      (fun s st => sideWrite s c r 0 0 (4096 * r.units) st)
      (fun s e => sideWrite s c r 0 0 (4096 * liftBlocks r + 4 * r.units) e) with
  | (s, .fault f) => (s, .fault f)
  | (s, .wait) => (s, .wait)
  | (s, .ok size) => (s, .ok (size + 4, false))

/-- The next block of an unpacking move, on its CMP instance (R202, R506). -/
def liftUnpack (s : State) (c : Nat) (r : LiftReq) : LiftStep :=
  let ps := blockPieces r r.units
  match cmpUnpack s ((cmpHolder s (liftUser c r)).getD 0) (liftOwner c) r.slot
      (fun s => sideRead s c r.slot r.src 0 0 (4096 * liftBlocks r + 4 * r.units) 4)
      (fun s n => sideRead s c r.slot r.src 0 0 (4096 * r.units) n)
      (fun s => sideSlotPa s c r.slot r.src (4096 * r.units))
      (fun s bs => streamWrite s c r ps bs) with
  | (s, .fault f) => (s, .fault f)
  | (s, .wait) => (s, .wait)
  | (s, .ok bad) => (s, .ok ((ps.map fun p => p.2.2).foldl (· + ·) 0, bad))

/-- The next unit or block of a move. -/
def liftStep (s : State) (c : Nat) (r : LiftReq) : LiftStep :=
  match r.comp with
  | 0 => liftUnit s c r
  | 1 => liftPack s c r
  | _ => liftUnpack s c r

/-- A request after a unit or block. -/
def liftMoved (r : LiftReq) (n : Nat) (failed : Bool) : LiftReq :=
  { r with units := r.units + 1, bytes := r.bytes + n, fails := r.fails + b2n failed, mid := false
           firstFail := if failed && decide (r.fails = 0) then r.units else r.firstFail }

/-- A move runs on to its next progress point, or its end (R200, R327): at most so many units. -/
def liftRun (c : Nat) : Nat → State → LiftReq → State × LiftReq × AccRes Unit
  | 0, s, r => (s, r, .ok ())
  | k + 1, s, r =>
    if liftTotal r ≤ r.units then (s, r, .ok ())
    else
      match liftStep s c r with
      | (s, .fault f) => (s, r, .fault f)
      | (s', .wait) => (if r.comp = 0 then retryWait s s' else s', { r with mid := true }, .wait)
      | (s, .ok (n, failed)) =>
        let r' := liftMoved r n failed
        if r.comp ≠ 0 ∨ r'.bytes / 4096 ≠ r.bytes / 4096 then (s, r', .ok ()) else liftRun c k s r'

/-- The same, with the bytes moved counted (R212). -/
def liftAdvance (s : State) (c : Nat) (r : LiftReq) : State × LiftReq × AccRes Unit :=
  let x := liftRun c 4097 (accessAs s (.shared (rankTier0 s (liftRank s r)))) r
  (inc64 x.1 (Reg.liftBytesLo c) (x.2.1.bytes - r.bytes), x.2)

/-! ### The engine -/

/-- A request is stored. -/
def putLift (s : State) (c : Nat) (r : LiftReq) : State :=
  onCluster s c fun x => { x with lifts := x.lifts.map fun q => if q.owner = r.owner ∧ q.id = r.id then r else q }

/-- A request leaves the engine. -/
def dropLift (s : State) (c : Nat) (r : LiftReq) : State :=
  remoteFlush (onCluster s c fun x => { x with lifts := x.lifts.filter fun q => !(decide (q.owner = r.owner) && decide (q.id = r.id)) })
    (liftOwner c)

/-- A new request joins the engine (R199). -/
def addLift (s : State) (c : Nat) (r : LiftReq) : State :=
  let s := match findDesc s r.id with
    | some d => noteCluster s d c
    | none => s
  onCluster s c fun x => { x with lifts := x.lifts ++ [r] }

/-- Whether the work of a request has been told to stop (R325). -/
def liftStopping (s : State) (r : LiftReq) : Bool :=
  !descRuns s r.id ||
    match r.owner with
    | .heat core age _ => match findAnyHeat s core age with
      | some (b, _) => b.stopping
      | none => false
    | _ => false

/-- Requests of a cluster that may move their next 4 KiB. -/
def liftCands (s : State) (c : Nat) : List (Rank × LiftReq) :=
  ((liftsOf s c).filter fun r => !r.parked && descRuns s r.id).map fun r => (liftRank s r, r)

/-- A finished move: its failing blocks are noted and its issuer goes on (R202, R323, R362). -/
def liftDone (s : State) (c : Nat) (r : LiftReq) : State :=
  let s := dropLift s c r
  let s := if r.fails = 0 then s else noteCheck s r.id r.firstFail r.fails
  match r.owner with
  | .heat core age num => opDone s core age num fun h => { h with progress := 0 }
  | .step id i => stepEnded s id i false false false
  | .desc => unitDone s r.id r.bytes

/-- A request runs to its next progress point, with what follows from that; the flag says that it completed. -/
def liftServe (s : State) (c : Nat) (r : LiftReq) : State × Bool :=
  match liftAdvance s c r with
  | (s, r, .ok _) => if liftTotal r ≤ r.units then (liftDone (putLift s c r) c r, true) else (putLift s c r, false)
  | (s, r, .fault f) => (unitFault (dropLift s c r) (descOf s r.id) f, true)
  | (s, r, .wait) => (putLift s c r, true)

/-- A request takes a CMP instance for its next block, where it packs or unpacks; the flag says that it may go on (R202,
R508). -/
def liftInstance (s : State) (c : Nat) (r : LiftReq) : State × Bool :=
  if r.comp = 0 ∨ liftTotal r ≤ r.units then (s, true)
  else
    let x := cmpAcquire s (liftUser c r)
    (x.1, x.2.isSome)

/-- The engine turns to a request of rank data rank for its next 4 KiB, which is charged to its share, unless that waits
for a CMP instance; the flag says that the engine stops there. -/
def liftTurn (s : State) (c : Nat) (sh : Share) (rank : Rank) (r : LiftReq) : State × Bool :=
  match liftInstance s c r with
  | (s, false) => (s, true)
  | (s, true) => liftServe (onCon s fun x => { x with lift := setAt x.lift c (schedServe s sh rank 1) }) c r

/-- The engine of a cluster serves requests by the choice of R517 at each progress point, until one completes, faults,
or waits for another device or a CMP instance; fuel bounds the progress points (DESIGN CHOICE, log entry 42). -/
def liftEngine (c : Nat) : Nat → State → State
  | 0, s => s
  | k + 1, s =>
    let x : State × Bool := match (liftCands s c).find? fun p => p.2.mid with
      | some (_, r) => liftServe s c r
      | none =>
        match schedPick s ((s.con.lift[c]?).getD {}) (liftCands s c) with
        | (_, none) => (s, true)
        | (sh, some (rank, r)) => liftTurn s c sh rank r
    if x.2 then x.1 else liftEngine c k x.1

/-- Progress points that a cluster's requests have left, at most. -/
def liftFuel (s : State) (c : Nat) : Nat :=
  ((liftsOf s c).map fun r => liftTotal r + 1).foldl (· + ·) 0

/-- A stopped request is parked with its heat's progress register set, or discarded with its descriptor (R325, R326). -/
def liftPark (s : State) (c : Nat) (r : LiftReq) : State :=
  match r.owner, descRuns s r.id with
  | .heat core age _, true =>
    let s := putLift s c { r with parked := true }
    let p := if r.comp = 0 then r.bytes / 4096 else r.units
    onCore s core fun x => { x with blocks := x.blocks.map fun b => { b with heats := b.heats.map fun h =>
      if h.age = age then { h with progress := p } else h } }
  | _, _ => dropLift s c r

/-- LIFT_STOP (R325): requests told to stop that have not begun stop at once, and the first that has begun goes on to
its next progress point, which is charged as any other (R519). -/
def liftStop (s : State) (c : Nat) : State :=
  let told := (liftsOf s c).filter fun r => !r.parked && liftStopping s r
  let begun := fun (r : LiftReq) => decide (r.units ≠ 0) || r.mid
  let s := (told.filter fun r => !begun r).foldl (fun s r => liftPark s c r) s
  match told.find? begun with
  | none => s
  | some r =>
    match if r.mid then (s, true) else liftInstance s c r with
    | (s, false) => s
    | (s, true) =>
    let s := if r.mid then s else onCon s fun x => { x with lift := modAt x.lift c fun sh => schedServe s sh (liftRank s r) 1 }
    match liftAdvance s c r with
    | (s, r, .ok _) => if liftTotal r ≤ r.units then liftDone (putLift s c r) c r else liftPark (putLift s c r) c r
    | (s, r, .fault f) => unitFault (dropLift s c r) (descOf s r.id) f
    | (s, r, .wait) => putLift s c r

/-! ### LIFT descriptors (R201) -/

/-- The request of a LIFT descriptor (R120). -/
def liftOfDesc (d : Desc) : LiftReq :=
  let side := fun (i sheetBit : Nat) =>
    if bit (descWord d 5) sheetBit then LiftSide.sheet (descWord d i).toNat else LiftSide.va (descWord d i).toNat
  { owner := .desc, id := d.id, slot := descSlot d, src := side 2 0, dst := side 3 1, rowBytes := fld (descWord d 4) 0 32
    rows := fld (descWord d 4) 32 32, srcStride := fld (descWord d 6) 0 32, dstStride := fld (descWord d 6) 32 32
    comp := fld (descWord d 5) 2 2 }

/-- The next LIFT is taken up: on its cluster, or on the lowest in service when it has no sheet side (R201). -/
def liftBegin (s : State) : State :=
  match oldestOf s fun d => decide (descOp d = 0x0B) && !d.started with
  | none => s
  | some d =>
    let sheet := fld (descWord d 5) 0 2 ≠ 0
    let c := fld (descWord d 5) 8 4
    let start := fun (c : Nat) =>
      if liftFull s c ∨ !mayUse s d.id c then s
      else
        let s := onDesc s d.id fun d => { d with started := true }
        match liftFault (liftOfDesc d) c with
        | some f => unitFault s d f
        | none => addLift s c (liftOfDesc d)
    if inService s c then start c
    else if sheet then decideDesc s d.id { status := 0x12 }
    else
      match clustersInService s with
      | k :: _ => start k
      | [] => decideDesc s d.id { status := 0xF0, detail := 1 }

/-- LIFT_STATUS (R212). BUSY is 1 while any request that is not parked is held (DESIGN CHOICE, log entry 72). -/
def liftStatusWord (s : State) (c : Nat) : Nat :=
  let rs := liftsOf s c
  b2n (rs.any fun r => !r.parked) + 2 ^ 8 * min 255 rs.length

/-! ### Kamir LIFT (R323) -/

/-- The request of a Kamir LIFT, from its parameters as read at issue. -/
def liftOfHeat (e : KEnv) : LiftReq :=
  let sub := kSubop e.i
  let w := (blkWindow e.b).getD { owner := e.b.id, part := 0, cluster := e.b.core / 4, granules := [] }
  let side := fun (j k : Nat) =>
    if sub.testBit k then LiftSide.win w (lPar e j) else LiftSide.va (lPar e j + 2 ^ 32 * lPar e (j + 1))
  { owner := .heat e.b.core e.h.age (e.h.opNum - 1), id := e.b.id, slot := e.b.slot, src := side 0 0, dst := side 2 1
    rowBytes := lPar e 4, rows := lPar e 5, srcStride := lPar e 6, dstStride := lPar e 7, comp := nfld sub 2 2
    layer := if e.b.kind = .step then some e.b.layer else none, vcl := e.b.vcl, mapSens := e.b.mapSens }

/-- The effect of LIFT at issue: its range is checked and it goes to the lift engine. -/
def kLift (e : KEnv) : KEnv :=
  let c := e.b.core / 4
  let r := liftOfHeat e
  match liftFault r c with
  | some f => { e with s := mmuCapture e.s e.b.slot f, fault := some (faultResult f) }
  | none => { e with s := addLift e.s c r, work := .engine }

end Sys2Proof.Machine
end

