-- ==== Sys2Proof/Machine/Layers.lean ====
section
/-!
DEFINITION. The layer sequencer (spec/12_layer_programs.md R357 to R378): program headers and their mapping, frame
binding, the layer table, window requests, the start of steps and their judgement.
-/

namespace Sys2Proof.Machine

/-! ### The header and the mapping (R358, R366, R367) -/

/-- PROGRAM of a LAYER (R120). -/
def layerProgram (d : Desc) : Nat := (descWord d 2).toNat

/-- DIGESTS of a LAYER. -/
def layerDigests (d : Desc) : Nat := (descWord d 4).toNat

/-- FAULT_ILLEGAL_INSTRUCTION of a malformed descriptor, table or record at an address (R125, R378). -/
def malformed (addr cause : Nat) : Result :=
  { status := 0x22, detail := addr % 2 ^ 48 + 2 ^ 48 + cause % 2 ^ 7 * 2 ^ 49 }

/-- Whether a camera port has a line window (R367). -/
def hasLineWindow (s : State) (n : Nat) : Bool := bit (rd0 s (Reg.csiCtrl n)) 0 && bit (rd0 s (Reg.csiCtrl n)) 10

/-- The clusters of V virtual clusters; none when the mapping fails (R367). -/
def layerMap (s : State) (stream : Bool) (csi v : Nat) : Option (List Nat) :=
  let up := clustersInService s
  let cam := rdF s (Reg.csiWin csi) 12 4
  let cs := if stream then cam :: up.filter fun c => decide (c ≠ cam) else up
  if up.length < v ∨ (stream ∧ (!hasLineWindow s csi ∨ !inService s cam)) then none else some (cs.take v)

/-- The least cause of R378 that a header shows. STEPS = 0 breaks R358 and has no cause of its own: it shows as 67, the
cause of a sum of NSTEPS that differs (DESIGN CHOICE, log entry 42). -/
def headerCause (p : List Nat) : Option Nat :=
  let p0 := (p[0]?).getD 0
  let v := nfld p0 8 5
  let f := nfld p0 16 7
  if nfld p0 0 8 ≠ 1 then some 64
  else if v = 0 ∨ 16 < v ∨ f = 0 ∨ 64 < f ∨ 192 < nfld ((p[1]?).getD 0) 20 8 then some 65
  else if (p[2]?).getD 0 % 8 ≠ 0 ∨ (p[3]?).getD 0 % 64 ≠ 0 then some 66
  else if nfld ((p[1]?).getD 0) 0 20 = 0 then some 67
  else none

/-- The least work area among some clusters, in bytes. -/
def leastArea (s : State) (cs : List Nat) : Nat := (leastOf (cs.map (workArea s))).getD 0

/-- REFUSED_SHEET of a LAYER (R366, R369). -/
def layerRefusal (granules avail : Nat) : Result :=
  { status := 0x12, detail := granules * 65536 % 2 ^ 32 + avail % 2 ^ 32 * 2 ^ 32 }

/-- The LAYER that a header describes, on the clusters of its mapping. -/
def layerOfHeader (d : Desc) (p : List Nat) (cs : List Nat) : LayerRun :=
  let at' := fun (i : Nat) => (p[i]?).getD 0
  { id := d.id, stream := bit (descWord d 3) 0, csi := fld (descWord d 3) 1 2, granules := nfld (at' 0) 16 7
    steps := nfld (at' 1) 0 20, maxG := nfld (at' 1) 20 8, layerTable := at' 2, stepTable := at' 3, vcls := cs
    layers := List.replicate (nfld (at' 0) 32 12 + 1) { nsteps := 0, mapSens := false } }

/-- Check 5 of R129 on a LAYER: its header is read, mapped and compared with the work areas (R366). The answer is
the status that it retires with; a LAYER that passes is kept by the sequencer from then on. -/
def layerFront (s : State) (d : Desc) : State × AccRes (Option Result) :=
  match vaRead (descAccess s d.id) .unit (descSlot d) (layerProgram d) 64 accLoad with
  | (s, .wait) => (s, .wait)
  | (s, .fault f) => (s, .fault f)
  | (s, .ok bs) =>
    let p := wordsLE 8 bs
    match headerCause p with
    | some c => (s, .ok (some (malformed (layerProgram d) c)))
    | none =>
      let f := nfld ((p[0]?).getD 0) 16 7
      match layerMap s (bit (descWord d 3) 0) (fld (descWord d 3) 1 2) (nfld ((p[0]?).getD 0) 8 5) with
      | none => (s, .ok (some (layerRefusal f 0)))
      | some cs =>
        if leastArea s cs < 65536 * f then (s, .ok (some (layerRefusal f (leastArea s cs))))
        else (onWork s fun w => { w with layers := w.layers ++ [layerOfHeader d p cs] }, .ok none)

/-! ### Hand-over (R368, R369, R371) -/

/-- The check of R369: why a LAYER without windows must be refused. -/
def layerCheck (s : State) (l : LayerRun) : Option Result :=
  if l.vcls.any fun c => !inService s c then some (layerRefusal l.granules 0)
  else if l.stream ∧ !hasLineWindow s l.csi then some (layerRefusal l.granules 0)
  else if leastArea s l.vcls < 65536 * l.granules then some (layerRefusal l.granules (leastArea s l.vcls))
  else none

/-- LAYERs that the sequencer holds, at most 16 (R368). -/
def layersHeld (s : State) : Nat :=
  (s.cfe.descs.filter fun d => decide (descOp d = 0x0A) && decide (d.stage = .dispatched)).length

/-- The binding of a streamed LAYER to its camera frame and display reference (R371). -/
def layerBind (s : State) (l : LayerRun) : LayerRun :=
  if !l.stream then l
  else
    let p := camPos s l
    if p.line < camWl s l.csi then { l with fc := p.frame, fd := some (rdN s (Reg.csiFsLtHi l.csi)) }
    else { l with fc := (p.frame + 1) % 2 ^ 32, fd := none }

/-- Hand-over of a LAYER: the mapping is checked again, and the frame bound. -/
def layerHandover (s : State) (id : DescId) : State :=
  match layerOf s id with
  | none => s
  | some l =>
    match layerCheck s l with
    | some r => decideDesc s id r
    | none => onLayer s id (layerBind s)

/-- The Frame Start of a port's frame takes effect in its source position: it fixes F_d of the LAYERs bound to it (R371). -/
def layerFrameStart (s : State) (n : Nat) : State :=
  let p := srcPos s (4 + n)
  let now := s.ltb.frame
  let f := fun (l : LayerRun) =>
    if l.stream && decide (l.csi = n) && l.fd.isNone && decide (l.fc = p.frame) then { l with fd := some now } else l
  onWork s fun w => { w with layers := w.layers.map f }

/-- LAYERs that wait for their windows and fail the check of R369 are refused. -/
def layerRecheck (s : State) : State :=
  s.work.layers.foldl (fun s l =>
    if !l.ready && descRuns s l.id then
      (match layerCheck s l with
        | some r => decideDesc s l.id r
        | none => s)
    else s) s

/-! ### The layer table (R359) -/

/-- The entries of a layer table. -/
def layerStats (ws : List Nat) : List LayerStat := ws.map fun w => { nsteps := nfld w 0 20, mapSens := w.testBit 20 }

/-- LAYER: the next LAYER handed over reads its layer table, and asks for its windows (R357, R368, R378). -/
def layerBegin (s : State) : State :=
  match oldestOf s fun d => decide (descOp d = 0x0A) && !d.started with
  | none => s
  | some d =>
    match layerOf s d.id with
    | none => s
    | some l =>
      match vaRead (descAccess s d.id) .unit (descSlot d) l.layerTable (8 * l.layers.length) accLoad with
      | (s', .wait) => retryWait s s'
      | (s, .fault f) => unitFault s d f
      | (s, .ok bs) =>
        let st := layerStats (wordsLE l.layers.length bs)
        let s := onDesc (remoteFlush s 0) d.id fun d => { d with started := true }
        if (st.map LayerStat.nsteps).foldl (· + ·) 0 ≠ l.steps then
          decideDesc s d.id (malformed l.layerTable 67)
        else onLayer s d.id fun l => { l with layers := st, tableRead := true }

/-! ### Windows (R370) -/

/-- A request that waits for granules: a LAYER, or the next tile job of a core. -/
inductive WinReq where
  | layer (id : DescId)
  | tile (id : DescId) (core t : Nat)
deriving DecidableEq, Repr

/-- Requests that wait on a cluster, with their rank data. A tile job asks once its core has room for it (R416). -/
def winCands (s : State) (c : Nat) : List (Rank × WinReq) :=
  (s.work.layers.filterMap fun l =>
    if l.tableRead && !l.ready && descRuns s l.id && l.vcls.contains c && mayUse s l.id c then
      some (descRank s (descOf s l.id), WinReq.layer l.id)
    else none) ++
  (List.range 4).flatMap fun k => (tileCands s (4 * c + k)).filterMap fun p =>
    match p.2 with
    | .tile id t =>
      match passOf s id with
      | some g => if coreFits s (4 * c + k) (tileNeed g) then some ({ p.1 with item := [1, t] }, WinReq.tile id (4 * c + k) t) else none
      | none => none
    | _ => none

/-- The request that the window allocator of a cluster would serve next. -/
def winTop (s : State) (c : Nat) : State × Option (Rank × WinReq) :=
  let (sh, r) := schedPick s ((s.con.window[c]?).getD {}) (winCands s c)
  (onCon s fun x => { x with window := setAt x.window c sh }, r)

/-- A request of rank r has taken its granules on a cluster: the allocator's share is charged. -/
def winServed (s : State) (c : Nat) (r : Rank) : State :=
  let sh := schedServe s ((s.con.window[c]?).getD {}) r 1
  onCon s fun x => { x with window := setAt x.window c sh }

/-- The windows of a LAYER are allocated on all its clusters, and zeroed (R196, R197). -/
def layerWindows (s : State) (l : LayerRun) : State :=
  l.vcls.zipIdx.foldl (fun s p => match winAlloc s l.id p.2 p.1 l.granules with
    | some (s, w) => winZero s w
    | none => s) s

/-- Whether a LAYER is the top request on every one of its clusters and fits on each. -/
def layerTop (s : State) (l : LayerRun) : Bool :=
  l.vcls.all fun c => windowFits s c l.granules &&
    (match (winTop s c).2 with
      | some (_, .layer id) => decide (id = l.id)
      | _ => false)

/-- WINDOW_ALLOCATE: the first waiting LAYER that is top-ranked and fits everywhere takes its windows (R369, R370). -/
def windowAllocate (s : State) : State :=
  let s := layerRecheck s
  let s := (List.range 16).foldl (fun s c => (winTop s c).1) s
  match s.work.layers.find? fun l => l.tableRead && !l.ready && descRuns s l.id && layerTop s l with
  | none => s
  | some l =>
    let r := descRank s (descOf s l.id)
    let s := onLayer (layerWindows s l) l.id fun l => { l with ready := true }
    l.vcls.foldl (fun s c => winServed s c r) s

/-! ### Step records (R360, R361, R378) -/

/-- The least cause of R378 that the record of step i shows. A CODE or ARGS that R361's alignment forbids shows as 72
(DESIGN CHOICE, log entry 42). -/
def stepCause (s : State) (l : LayerRun) (i : Nat) (r : List DWord) : Option Nat :=
  let kind := stepKind r
  let q := stepQueue r
  let dep := fun (x : Nat) => decide (i < x)
  let threads := fld (stepWord r 4) 0 11
  let vregs := fld (stepWord r 4) 16 9
  let rows := stepRows r
  let rowBytes := fld (stepWord r 4) 0 32
  let cond : List (Nat × Bool) :=
    [(68, decide (5 < kind ∨ 4 < q) || (decide (kind = 1) && decide (q ≠ 4)) || (decide (2 ≤ kind ∧ kind ≤ 5) && decide (3 < q))),
     (69, decide (l.vcls.length ≤ stepVcl r ∨ l.layers.length ≤ stepLayer r)),
     (70, dep (fld (stepWord r 0) 32 20) || dep (fld (stepWord r 1) 0 20)),
     (71, (!l.stream && (stepCamEn r || stepCamLift r)) ||
       (stepCamLift r && (decide (stepVcl r ≠ 0) || decide (camWl s l.csi < rows)))),
     (72, decide (kind = 5) && (decide (threads = 0 ∨ 1024 < threads ∨ vregs < 8 ∨ 256 < vregs ∨ vregs % 8 ≠ 0) ||
       decide (512 < fld (stepWord r 4) 32 10 ∨ l.maxG < (stepNeed r).granules) ||
       decide (fld (stepWord r 2) 0 7 ≠ 0 ∨ fld (stepWord r 3) 0 4 ≠ 0))),
     (73, decide (kind = 1) && (decide (fld (stepWord r 6) 0 2 = 3 ∨ 2 ≤ fld (stepWord r 6) 2 2 ∨ fld (stepWord r 6) 4 2 = 3) ||
       decide (rowBytes = 0 ∨ 2 ^ 31 < rowBytes ∨ rows = 0 ∨ 2 ^ 31 < rows))),
     (74, (decide (kind = 3) && !tnsFmtOk .tmma [0, 0, 0, 0, fld (stepWord r 4) 0 4, fld (stepWord r 4) 4 4]) ||
       (decide (kind = 4) && decide (7 < fld (stepWord r 2) 32 4)))]
  (cond.find? Prod.snd).map Prod.fst

/-- Reads and checks the next record of a LAYER. -/
def recRead (s : State) (l : LayerRun) : State × AccRes Unit :=
  let i := l.recs.length
  let d := descOf s l.id
  let a := l.stepTable + 64 * i
  match vaRead (descAccess s d.id) .unit (descSlot d) a 64 accLoad with
  | (s', .wait) => (retryWait s s', .wait)
  | (s, .fault f) => (unitFault s d f, .fault f)
  | (s, .ok bs) =>
    let r : List DWord := (wordsLE 8 bs).map fun w => BitVec.ofNat 64 w
    match stepCause s l i r with
    | some c => (decideDesc s l.id (malformed a c), .wait)
    | none => (onLayer (remoteFlush s 0) l.id fun l => { l with recs := l.recs ++ [r] }, .ok ())

/-- Records of a LAYER are read in order until one that has not started is found for a queue of a virtual cluster. -/
def recsUntil (id : DescId) (v q : Nat) : Nat → State → State
  | 0, s => s
  | k + 1, s =>
    match layerOf s id with
    | none => s
    | some l =>
      if (queueNext l v q).isSome ∨ l.steps ≤ l.recs.length then s
      else
        match recRead s l with
        | (s, .ok _) => recsUntil id v q k s
        | (s, _) => s

/-- The records that a queue of a cluster waits for are read, for every LAYER with windows. -/
def queueRecs (s : State) (c q : Nat) : State :=
  s.work.layers.foldl (fun s l =>
    if l.ready && descRuns s l.id then
      (List.range l.vcls.length).foldl (fun s v =>
        if (l.vcls[v]?).getD 16 = c then recsUntil l.id v q (l.steps - l.recs.length) s else s) s
    else s) s

/-! ### Starting steps (R361 to R364, R372) -/

/-- A step starts: a camera-line LIFT whose frame is past overruns (R372). -/
def stepBegin (s : State) (l : LayerRun) (i : Nat) : State :=
  let past := stepCamLift (layerStep l i) && camReached s l ((l.fc + 1) % 2 ^ 32) 0
  onLayer s l.id fun l => { l with started := l.started ++ [i], overStart := if past then l.overStart ++ [i] else l.overStart }

/-- The lift request of a LIFT step (R361, R362). -/
def liftOfStep (s : State) (l : LayerRun) (i : Nat) : LiftReq :=
  let r := layerStep l i
  let w := stepWindow s l (stepVcl r)
  let side := fun (sp j : Nat) => match sp with
    | 0 => LiftSide.va (stepWord r j).toNat
    | 1 => LiftSide.win w (stepWord r j).toNat
    | _ => LiftSide.cam l.csi (stepL0 r)
  { owner := .step l.id i, id := l.id, slot := descSlot (descOf s l.id), src := side (fld (stepWord r 6) 0 2) 2
    dst := side (fld (stepWord r 6) 2 2) 3, rowBytes := fld (stepWord r 4) 0 32, rows := stepRows r
    srcStride := fld (stepWord r 5) 0 32, dstStride := fld (stepWord r 5) 32 32, comp := fld (stepWord r 6) 4 2
    layer := some (stepLayer r), vcl := stepVcl r
    mapSens := ((l.layers[stepLayer r]?).map LayerStat.mapSens).getD false }

/-- The tensor operation of a TCLR, TMMA or TOUT step (R361, R364). -/
def tnsOfStep (s : State) (l : LayerRun) (i : Nat) : TnsOp :=
  let r := layerStep l i
  let f := fun (j lo : Nat) => fld (stepWord r j) lo 32
  let kind : TnsKind := match stepKind r with
    | 2 => .tclr
    | 3 => .tmma
    | _ => .tout
  let ps := match kind with
    | .tclr => tclrParams (f 2 0)
    | .tmma => tmmaParams (f 2 0) (f 2 32) (f 3 0) (f 3 32) (f 4 0)
    | .tout => toutParams (f 2 0) (f 2 32) (f 3 0)
  { owner := .step l.id i, id := l.id, kind := kind, window := stepWindow s l (stepVcl r), params := ps
    layer := stepLayer r, vcl := stepVcl r, mapSens := ((l.layers[stepLayer r]?).map LayerStat.mapSens).getD false }

/-- The block of a BLOCK step (R363). -/
def blkOfStep (s : State) (l : LayerRun) (i core : Nat) : Blk :=
  let r := layerStep l i
  let d := descOf s l.id
  { id := l.id, kind := .step, idx := i, core := core, slot := descSlot d, cls := descClass s d
    code := (stepWord r 2).toNat, vregs := fld (stepWord r 4) 16 9, slots := (stepNeed r).heats
    bmemUnits := fld (stepWord r 4) 32 10, window := some (stepWindow s l (stepVcl r)), layer := stepLayer r
    vcl := stepVcl r, mapSens := ((l.layers[stepLayer r]?).map LayerStat.mapSens).getD false
    heats := blockHeats (fld (stepWord r 4) 0 11) (coreOf s core).ageCtr (fld (stepWord r 5) 0 32) (fld (stepWord r 5) 32 32) 0
      (stepWord r 3).toNat }

/-- A LIFT step starts: its ranges are checked and it becomes a lift request (R362). -/
def stepLift (s : State) (l : LayerRun) (i c : Nat) : State :=
  let r := liftOfStep s l i
  match liftFault r c with
  | some f => unitFault s (descOf s l.id) f
  | none => addLift (stepBegin s l i) c r

/-- A TNS step takes an entry of its core's unit (R319, R364). -/
def stepTns (s : State) (l : LayerRun) (i core : Nat) : State :=
  let o := tnsOfStep s l i
  match rangesFault (winBytes o.window) (tnsRanges o.kind o.params) with
  | some (x, acc) => unitFault s (descOf s l.id) (sheetFault (core / 4) x acc true)
  | none =>
    let s := descRanOn s l.id core
    onCore (stepBegin s l i) core fun x => { x with tns := x.tns ++ [o] }

/-- Ready steps of a queue whose kind is one of some. -/
def readyOf (s : State) (c q : Nat) (kinds : List Nat) : List (Rank × (LayerRun × Nat)) :=
  (readySteps s c q).filterMap fun p => match layerOf s p.2.1 with
    | some l => if kinds.contains (stepKind (layerStep l p.2.2)) then some (p.1, (l, p.2.2)) else none
    | none => none

/-- Whether a heat of a core may issue a TNS instruction now. -/
def tnsHeatReady (s : State) (core : Nat) : Bool :=
  (coreOf s core).blocks.any fun b => b.heats.any fun h => match fetchIns s b h with
    | (s', .ins i) => decide (0xE8 ≤ kOp i) && decide (kOp i ≤ 0xEA) && !nextIllegal b h i && mayIssue s' b h i
    | _ => false

/-- The TNS step that takes a free entry of a core's unit; a tier-1 step yields the last one to a heat's instruction
(R319, R519). -/
def startTns (s : State) (core : Nat) : State :=
  let (sh, p) := schedPick s ((s.con.tns[core]?).getD {}) (readyOf s (core / 4) (core % 4) [2, 3, 4])
  let put := fun (s : State) (sh : Share) => onCon s fun x => { x with tns := setAt x.tns core sh }
  match p with
  | none => put s sh
  | some (r, (l, i)) =>
    if tnsFull s core || (tnsLast s core && !rankTier0 s r && tnsHeatReady s core) then put s sh
    else
      let s := stepTns (put s sh) l i core
      put s (schedServe s sh r 1)

/-- The BLOCK step that is a core's top candidate and fits is placed (R363). -/
def startBlock (s : State) (core : Nat) : State :=
  match placeTop s core with
  | (s, some (r, .step id i)) =>
    match layerOf s id with
    | some l =>
      if candFits s core (coreOf s core).blocks (.step id i) then
        let cost := (candNeed s core (.step id i)).heats
        let s := putBlock s (blkOfStep s l i core)
        placeServed (stepBegin s l i) core r cost
      else s
    | none => s
  | (s, _) => s

/-- STEP_START on a queue of a cluster: a NOP first, then a LIFT, a TNS step or a block, as R372 lets one start. -/
def stepStart (s : State) (c q : Nat) : State :=
  let s := queueRecs s c q
  match readyOf s c q [0] with
  | (_, (l, i)) :: _ => stepEnded (stepBegin s l i) l.id i false false false
  | [] =>
    if q = 4 then
      match rankFirst true (readyOf s c q [1]) with
      | some (_, (l, i)) => if liftFull s c then s else stepLift s l i c
      | none => s
    else if (readyOf s c q [2, 3, 4]).isEmpty ∨ tnsFull s (4 * c + q) then startBlock s (4 * c + q)
    else startTns s (4 * c + q)

/-! ### Judgement, digests and the end (R365, R373, R375, R376) -/

/-- Whether a step is late: an enabled gate missed in the cycle of its completion, or an overrun (R373). -/
def stepLate (s : State) (l : LayerRun) (e : StepEnd) : Bool :=
  let r := layerStep l e.step
  e.overrun || (stepCamEn r && ltGe e.cam (stepGc l r)) || (stepDispEn r && ltGe e.lt (stepGd s l r))

/-- The 16 bytes of the digest entry of a layer, completed at an LT value (R365). -/
def layerEntry (s : State) (id : DescId) (k : Nat) (st : LayerStat) (lt : Nat) : List Byte :=
  let dig := ((s.hlt.layers.find? fun e => decide (e.1 = id) && decide (e.2.1 = k)).map fun e => e.2.2.toNat).getD 0
  leBytes dig 8 ++ leBytes (min st.late 0xFFFF + 2 ^ 16 * b2n st.overrun + 2 ^ 17 * b2n st.mapSens + 2 ^ 18 +
    2 ^ 19 * b2n st.sat + 2 ^ 20 * b2n st.nan + 2 ^ 21 * b2n st.underflow + 2 ^ 32 * (lt / 2 ^ 16 % 2 ^ 32)) 8

/-- The digest entry of layer k is written, when the LAYER has a digest array (R375); a write that waits for another
device leaves the entry due. -/
def layerEntryWrite (s : State) (id : DescId) (k lt : Nat) : State :=
  let d := descOf s id
  match layerOf s id with
  | none => s
  | some l =>
    let st := (l.layers[k]?).getD { nsteps := 0, mapSens := false }
    let done := fun (s : State) =>
      onLayer s id fun l => { l with layers := modAt l.layers k fun x => { x with written := true } }
    if layerDigests d = 0 then done s
    else
      match vaWrite (descAccess s d.id) .unit (descSlot d) (layerDigests d + 16 * k) ((layerEntry s id k st lt).map some) with
      | (s', .wait) => retryWait s s'
      | (s, .fault f) => unitFault (done s) d f
      | (s, .ok _) => done s

/-- The layers of a LAYER whose entries are not written: those whose steps are all judged, and with all set every one. -/
def entriesLeft (l : LayerRun) (all : Bool) : List Nat :=
  (List.range l.layers.length).filter fun k => (l.layers[k]?).any fun st => !st.written && (all || st.doneLt.isSome)

/-- The entries that are due are written; a LAYER whose steps are all judged and whose entries are all written reports
completion (R375, R376). -/
def layerEnd (s : State) (id : DescId) : State :=
  match layerOf s id with
  | none => s
  | some l =>
    let ended := decide (l.steps ≤ l.finished.length)
    let now := ltNow s
    let at' := fun (k : Nat) => ((l.layers[k]?).bind LayerStat.doneLt).getD now
    let s := (entriesLeft l ended).foldl (fun s k => if descRuns s id then layerEntryWrite s id k (at' k) else s) s
    match layerOf s id with
    | none => s
    | some l =>
      if !ended || !(entriesLeft l true).isEmpty || !descRuns s id then s
      else
        let s := if l.lateSteps = 0 then s else noteDesc s id { status := 1 }
        unitDoneHeap s id (min l.lateSteps 0xFFFF + 2 ^ 16 * (l.firstLate.getD 0xFFFF))

/-- An ended step of a LAYER is judged. -/
def stepJudge (s : State) (l : LayerRun) (e : StepEnd) : State :=
  let k := stepLayer (layerStep l e.step)
  let late := stepLate s l e
  let upd := fun (x : LayerStat) =>
    { x with finished := x.finished + 1, late := x.late + b2n late, overrun := x.overrun || e.overrun
             doneLt := if x.finished + 1 = x.nsteps then some e.lt else x.doneLt
             sat := x.sat || e.sat, nan := x.nan || e.nan, underflow := x.underflow || e.underflow }
  let s := onLayer s l.id fun l =>
    { l with ended := l.ended.filter fun x => decide (x.step ≠ e.step), finished := l.finished ++ [e.step]
             layers := modAt l.layers k upd, lateSteps := l.lateSteps + b2n late
             firstLate := if late && l.firstLate.isNone then some k else l.firstLate }
  layerEnd s l.id

/-- The oldest completion of a LAYER that can be judged. -/
def nextEnded (l : LayerRun) : Option StepEnd := l.ended.find? fun e => stepJudged l (layerStep l e.step)

/-- Digest entries that wait for another device are tried again (R375). -/
def layerEntriesRetry (s : State) : State :=
  s.work.layers.foldl (fun s l => if descRuns s l.id && !(entriesLeft l false).isEmpty then layerEnd s l.id else s) s

/-- STEP_COMPLETE (R364, R373): the oldest completion of the first LAYER that has one is judged; one whose DISP_GATE has
no reference frame yet is judged once it has (R371). -/
def stepComplete (s : State) : State :=
  let s := layerEntriesRetry s
  match s.work.layers.find? fun l => (nextEnded l).isSome && descRuns s l.id with
  | some l => match nextEnded l with
    | some e => stepJudge s l e
    | none => s
  | none => s

end Sys2Proof.Machine
end

