-- ==== Sys2Proof/Machine/KTex.lean ====
section
/-!
DEFINITION. Texture instructions (spec/10_kamir_semantics.md R312 to R318, R333): the descriptor, levels, texel
formats, level of detail, filtering and addressing; and VARIABLE_RESULT_WRITE.
-/

namespace Sys2Proof.Machine

/-! ### Pixel formats (R23, R314) -/

/-- Bytes of a pixel of a format: 0 RGBA8888, 1 BGRA8888, 2 RGB565, 3 ARGB2101010, 4 RGBA16F, 5 M8, 6 M16. -/
def pixBytes (fmt : Nat) : Nat :=
  match fmt with
  | 2 => 2
  | 4 => 8
  | 5 => 1
  | 6 => 2
  | _ => 4

/-- The place (bit, width) of each channel that a UNORM format holds: R, G, B, A. -/
def pixFields (fmt : Nat) : List (Option (Nat × Nat)) :=
  match fmt with
  | 0 => [some (0, 8), some (8, 8), some (16, 8), some (24, 8)]
  | 1 => [some (16, 8), some (8, 8), some (0, 8), some (24, 8)]
  | 2 => [some (11, 5), some (5, 6), some (0, 5), none]
  | 3 => [some (20, 10), some (10, 10), some (0, 10), some (30, 2)]
  | 5 => [some (0, 8), none, none, none]
  | 6 => [some (0, 16), none, none, none]
  | _ => [none, none, none, none]

/-- The FP32 channels R, G, B, A of a pixel; missing channels are 0, and 1 for A (R314). -/
def pixDecode (fmt : Nat) (srgb : Bool) (v : Nat) : List Word :=
  if fmt = 4 then (List.range 4).map fun k => fWiden fp16 (nfld v (16 * k) 16)
  else
    (pixFields fmt).zipIdx.map fun p =>
      match p.1 with
      | none => if p.2 = 3 then 0x3F800000 else 0
      | some (b, n) => if srgb && decide (n = 8) && decide (p.2 < 3) then srgbDecode (nfld v b n) else unormDecode n (nfld v b n)

/-! ### Descriptor and levels (R313, R333) -/

/-- A texture descriptor. -/
structure Tex where
  base : Nat
  fmt : Nat
  srgb : Bool
  w : Nat
  h : Nat
  d : Nat
  levels : Nat
  dim : Nat
  addr : List Nat
  magLin : Bool
  minLin : Bool
  mipLin : Bool
  mipEn : Bool
  border : Nat
  bias : Int
  minLod : Nat
  maxLod : Nat
deriving DecidableEq, Repr

/-- The descriptor in four words (R333). -/
def texOf (t0 t1 t2 : Nat) : Tex :=
  { base := nfld t0 8 40 * 256, fmt := nfld t0 48 6, srgb := t0.testBit 54
    w := nfld t1 0 16 + 1, h := nfld t1 16 16 + 1, d := nfld t1 32 12 + 1, levels := nfld t1 44 4 + 1
    dim := if nfld t1 48 2 = 3 then 0 else nfld t1 48 2
    addr := [nfld t2 0 3, nfld t2 3 3, nfld t2 6 3]
    magLin := t2.testBit 9, minLin := t2.testBit 10, mipLin := t2.testBit 11, mipEn := t2.testBit 12
    border := nfld t2 13 2, bias := sext (nfld t2 16 16) 16, minLod := nfld t2 32 8, maxLod := nfld t2 40 8 }

/-- Width of a level. -/
def texW (t : Tex) (l : Nat) : Nat := max 1 (t.w / 2 ^ l)

/-- Height of a level. -/
def texH (t : Tex) (l : Nat) : Nat := max 1 (t.h / 2 ^ l)

/-- Depth or layers of a level. -/
def texD (t : Tex) (l : Nat) : Nat := if t.dim = 2 then max 1 (t.d / 2 ^ l) else t.d

/-- Row pitch of a level. -/
def texPitch (t : Tex) (l : Nat) : Nat := ceilDiv (texW t l * pixBytes t.fmt) 256 * 256

/-- Size of a level. -/
def texSize (t : Tex) (l : Nat) : Nat := texPitch t l * texH t l * texD t l

/-- Base VA of a level. -/
def texBase (t : Tex) (l : Nat) : Nat := t.base + ((List.range l).map (texSize t)).foldl (· + ·) 0

/-- VA of a texel. -/
def texelVa (t : Tex) (l x y z : Nat) : Nat :=
  texBase t l + (z * texH t l + y) * texPitch t l + x * pixBytes t.fmt

/-! ### Exact coordinates -/

/-- Fraction bits of scaled coordinates: every FP32 value is exact. -/
abbrev texScale : Nat := 160

/-- A coordinate scaled by 2^160: NaN is 0, an infinity is beyond every clamp (R316). -/
def texCoord (x : Word) : Int :=
  match fv x with
  | .nan => 0
  | .inf neg => if neg then -(2 ^ (texScale + 200) : Nat) else (2 ^ (texScale + 200) : Nat)
  | .num neg m e =>
    let (n, d) := scaleFrac m 1 (e + texScale)
    if neg then -(n / d : Nat) else (n / d : Nat)

/-- u = s w - 0.5, clamped to [-2^20, 2^20], scaled (R316). -/
def texU (s : Int) (w : Nat) : Int :=
  max (-(2 ^ (texScale + 20) : Nat)) (min (2 ^ (texScale + 20) : Nat) (s * w - (2 ^ (texScale - 1) : Nat)))

/-- The texels of an axis and their weights in 1/256: one for a nearest filter, two for a linear one (R316). -/
def texTaps (linear : Bool) (s : Int) (w : Nat) : List (Int × Nat) :=
  if linear then
    let u := (texU s w * 256) / (2 ^ texScale : Nat)
    let a := (u % 256).toNat
    [(u / 256, 256 - a), (u / 256 + 1, a)]
  else
    let lim : Int := (2 ^ 20 : Nat)
    let x := s * w / (2 ^ texScale : Nat)
    [(if s.natAbs < 2 ^ (texScale + 150) then x else max (-lim) (min lim x), 256)]

/-- An integer coordinate under an address mode; none for the border (R317). -/
def texAddr (mode : Nat) (w : Nat) (i : Int) : Option Nat :=
  match mode with
  | 0 => some (i % (w : Int)).toNat
  | 1 => let j := (i % (2 * w : Nat)).toNat; some (if j < w then j else 2 * w - 1 - j)
  | 3 => if 0 ≤ i ∧ i < w then some i.toNat else none
  | _ => some (min (w - 1) i.toNat)

/-- The border colour. -/
def texBorder (b : Nat) : List Word :=
  match b with
  | 1 => [0, 0, 0, 0x3F800000]
  | 2 => [0x3F800000, 0x3F800000, 0x3F800000, 0x3F800000]
  | _ => [0, 0, 0, 0]

/-! ### Level of detail (R315, R316) -/

/-- A level of detail in 1/256 after the clamps to [MIN_LOD, MAX_LOD] and to [0, LEVELS - 1]. -/
def lodClamp (t : Tex) (l : Int) : Nat :=
  let l : Int := max ((16 * t.minLod : Nat) : Int) (min ((16 * t.maxLod : Nat) : Int) l)
  (max (0 : Int) (min ((256 * (t.levels - 1) : Nat) : Int) l)).toNat

/-- The largest derivative magnitude of a quad, in level-0 texels, scaled. -/
def texRho (t : Tex) (src : List (List Word)) (quad : Nat) : Nat :=
  let c := fun (k l : Nat) => texCoord ((((src[k]?).getD [])[l]?).getD 0)
  let one := fun (k size : Nat) =>
    max ((c k (4 * quad + 1) - c k (4 * quad)) * size).natAbs ((c k (4 * quad + 2) - c k (4 * quad)) * size).natAbs
  max (one 0 t.w) (max (one 1 t.h) (if t.dim = 2 then one 2 t.d else 0))

/-- The level of detail of a lane, scaled: from the quad's derivatives, in 1/256 and clamped; explicit and exact; or 0
(R312, R315). An explicit one outside the levels takes the nearest level, and a NaN is 0 (DESIGN CHOICE, log entry 75). -/
def texLod (t : Tex) (subop : Nat) (src : List (List Word)) (lane : Nat) : Nat :=
  match subop with
  | 0 =>
    let rho := texRho t src (lane / 4)
    2 ^ (texScale - 8) * (if rho = 0 then lodClamp t (16 * t.minLod : Nat)
      else lodClamp t ((Nat.log2 (rho ^ 256) : Int) - (256 * texScale : Nat) + t.bias))
  | 1 => min ((t.levels - 1) * 2 ^ texScale) (texCoord ((((src[3]?).getD [])[lane]?).getD 0)).toNat
  | _ => 0

/-- The levels used and their weights, scaled (R316). -/
def texLevels (t : Tex) (lod : Nat) : List (Nat × Nat) :=
  let one := 2 ^ texScale
  if !t.mipEn then [(0, one)]
  else if !t.mipLin then [((lod + one / 2) / one, one)]
  else [(lod / one, one - lod % one), (min (lod / one + 1) (t.levels - 1), lod % one)]

/-- A layer coordinate: rounded to nearest even and clamped (R316). -/
def texLayer (t : Tex) (r : Word) : Nat :=
  match fv r with
  | .num neg m e => if neg then 0 else min (t.d - 1) (dyRound 0 false m e)
  | .inf neg => if neg then 0 else t.d - 1
  | .nan => 0

/-- The texels of a lane: level, place (none for the border) and weight in 2^-184; those of weight 0 are left out. -/
def texPlan (t : Tex) (imm lod : Nat) (s tt r : Word) : List (Nat × Option (Nat × Nat × Nat) × Nat) :=
  let lin := if lod = 0 then t.magLin else t.minLin
  let mode := fun (k : Nat) => (t.addr[k]?).getD 2
  (texLevels t lod).flatMap fun lv =>
    let l := lv.1
    let xs := texTaps lin (texCoord s) (texW t l)
    let ys := texTaps lin (texCoord tt) (texH t l)
    let zs : List (Int × Nat) :=
      if t.dim = 2 then texTaps lin (texCoord r) (texD t l)
      else [(if t.dim = 1 then (texLayer t r : Int) else 0, 256)]
    let all := zs.flatMap fun z => ys.flatMap fun y => xs.map fun x =>
      let ix := texAddr (mode 0) (texW t l) (x.1 + sext (nfld imm 0 4) 4)
      let iy := texAddr (mode 1) (texH t l) (y.1 + sext (nfld imm 4 4) 4)
      let iz := if t.dim = 2 then texAddr (mode 2) (texD t l) z.1 else some z.1.toNat
      let p := match ix, iy, iz with
        | some a, some b, some c => some (a, b, c)
        | _, _, _ => none
      (l, p, x.2 * y.2 * z.2 * lv.2)
    all.filter fun p => decide (p.2.2 ≠ 0)

/-! ### Execution -/

/-- A texel read: its channels, or why not. -/
def texelRead (s : State) (b : Blk) (owner : Nat) (t : Tex) (l x y z : Nat) : State × AccRes (List Word) :=
  match vaRead s (.core b.core owner) b.slot (texelVa t l x y z) (pixBytes t.fmt) accLoad with
  | (s, .ok bs) => (s, .ok (pixDecode t.fmt t.srgb (leValue bs)))
  | (s, .fault f) => (s, .fault f)
  | (s, .wait) => (s, .wait)

/-- A channel of the weighted exact sum of texels, rounded once (R317). -/
def texSum (vals : List (List Word × Nat)) (ch : Nat) : Word :=
  let term := fun (v : List Word × Nat) => fvMul (fv ((v.1[ch]?).getD 0)) (.num false v.2 (-184))
  match vals with
  | [] => 0
  | v :: vs => fw 0 (vs.foldl (fun a x => fvAdd 0 a (term x)) (term v))

/-- The result of one lane. -/
def texLane (s : State) (b : Blk) (owner : Nat) (t : Tex) (tld : Bool) (subop imm : Nat) (src : List (List Word))
    (lane : Nat) : State × AccRes (List Word) :=
  let c := fun (k : Nat) => (((src[k]?).getD [])[lane]?).getD 0
  if 6 < t.fmt then (s, .ok [0, 0, 0, 0])
  else if tld then
    let l := (c 3).toNat
    let x : Int := (c 0).toNat + sext (nfld imm 0 4) 4
    let y : Int := (c 1).toNat + sext (nfld imm 4 4) 4
    let z := (c 2).toNat
    if t.levels ≤ l ∨ x < 0 ∨ y < 0 ∨ (texW t l : Int) ≤ x ∨ (texH t l : Int) ≤ y ∨ texD t l ≤ z then (s, .ok [0, 0, 0, 0])
    else texelRead s b owner t l x.toNat y.toNat z
  else
    let plan := texPlan t imm (texLod t subop src lane) (c 0) (c 1) (c 2)
    let r := plan.foldl (fun (acc : State × AccRes (List (List Word × Nat))) p =>
      match acc.2 with
      | .ok vs => match p.2.1 with
        | none => (acc.1, .ok (vs ++ [(texBorder t.border, p.2.2)]))
        | some (x, y, z) => match texelRead acc.1 b owner t p.1 x y z with
          | (s, .ok v) => (s, .ok (vs ++ [(v, p.2.2)]))
          | (s, .fault f) => (s, .fault f)
          | (s, .wait) => (s, .wait)
      | _ => acc) (s, .ok [])
    match r with
    | (s, .ok vs) => (s, .ok ((List.range 4).map (texSum vs)))
    | (s, .fault f) => (s, .fault f)
    | (s, .wait) => (s, .wait)

/-- A whole TEX or TLD: the descriptor, then the lanes of EM in order; the channels per lane. -/
def texAll (s : State) (b : Blk) (owner : Nat) (tld : Bool) (subop imm desc : Nat) (src : List (List Word)) (em : Nat) :
    State × AccRes (List (Nat × List Word)) :=
  match vaRead s (.core b.core owner) b.slot (desc / 32 * 32) 32 accLoad with
  | (s, .fault f) => (s, .fault f)
  | (s, .wait) => (s, .wait)
  | (s, .ok bs) =>
    let w := fun (i : Nat) => leValue ((bs.drop (8 * i)).take 8)
    let t := texOf (w 0) (w 1) (w 2)
    (onesBelow em 32).foldl (fun (acc : State × AccRes (List (Nat × List Word))) lane =>
      match acc.2 with
      | .ok vs => match texLane acc.1 b owner t tld subop imm src lane with
        | (s, .ok v) => (s, .ok (vs ++ [(lane, v)]))
        | (s, .fault f) => (s, .fault f)
        | (s, .wait) => (s, .wait)
      | _ => acc) (s, .ok [])

/-- The register writes of a texture result. -/
def texWrites (vd em : Nat) (res : List (Nat × List Word)) : List RegWrite :=
  (List.range 4).map fun ch =>
    { reg := .v (vd + ch), mask := em
      vals := (List.range 32).map fun l => match res.find? fun r => decide (r.1 = l) with
        | some r => (r.2[ch]?).getD 0
        | none => 0 }

/-- The effect of TEX and TLD (R312). -/
def kTexture (e : KEnv) : KEnv :=
  let tld := decide (kOp e.i = 0xE1)
  let owner := heatOwner e.b.core e.h.age
  let src := (List.range 4).map fun k => (List.range 32).map fun l => hv e.h (kVA e.i + k) l
  let desc := hs64 e.h (kSP e.i) % 2 ^ 48
  match texAll e.s e.b owner tld (kSubop e.i) (kImm8 e.i) desc src e.em with
  | (s, .ok res) => { e with s := remoteFlush s owner, writes := texWrites (kVD e.i) e.em res }
  | (s, .fault f) => { e with s := mmuCapture s e.b.slot f, fault := some (faultResult f) }
  | (s', .wait) => { e with s := retryWait e.s s', work := .tex tld (kSubop e.i) (kImm8 e.i) desc src e.em }

/-! ### VARIABLE_RESULT_WRITE (R280) -/

/-- Stores a heat whose operation has completed. -/
def opFinish (s : State) (b : Blk) (h : Heat) (o : VarOp) : State :=
  let s := match o.acquire with
    | some sc => scopeAcquire s b.core sc
    | none => s
  putBlk s (putHeat b (opComplete h o (coreOf s b.core).cycle))

/-- The outstanding operation num of a heat goes on, and completes when nothing of it is left to do. -/
def varResult (s : State) (core age num : Nat) : State :=
  match findAnyHeat s core age with
  | none => s
  | some (b, h) =>
    match h.ops.find? fun o => decide (o.num = num) with
    | none => s
    | some o =>
      let owner := heatOwner core age
      let s := blkAccess s b
      match o.work with
      | .ready => opFinish s b h o
      | .mem op width space left got =>
        let m := memRun owner space (memKind op) left.length { s := s, b := b, left := left, got := got }
        match m.fault, m.left with
        | some f, _ => unitFaultOf m.s b age f
        | none, [] =>
          opFinish (remoteFlush m.s owner) m.b h { o with writes := if op = 0xA1 then [] else memWrites o.vd width o.sdest m.got }
        | none, l :: ls =>
          let o := { o with work := .mem op width space (l :: ls) m.got }
          putBlk m.s (putHeat m.b { h with ops := h.ops.map fun p => if p.num = num then o else p })
      | .tex tld subop imm desc src em =>
        match texAll s b owner tld subop imm desc src em with
        | (s, .ok res) => opFinish (remoteFlush s owner) b h { o with writes := texWrites o.vd em res }
        | (s, .fault f) => unitFaultOf s b age f
        | (s', .wait) => retryWait s s'
      | .reply tag =>
        if s.vzl.reqs.any fun r => decide (r.tag = tag) && decide (r.owner = owner) && r.data.isNone then s
        else opFinish (remoteFlush s owner) b h o
      | .sig obj v =>
        if syncMustWait s (blkTwin s b) then s
        else
          let (s, _, bad) := signalObj s obj v b.slot (blkTwin s b)
          opFinish (syncBad s b bad) b h o
      | .swait _ _ => s
      | .engine => s
      | .tns => s

end Sys2Proof.Machine
end

