-- ==== Sys2Proof/Machine/Colour.lean ====
section
/-!
DEFINITION. The colour pipeline's arithmetic (spec/16_composition.md R458 to R470): transfer functions, unpacking,
YUV conversion, scaling filters, blending, the colour matrix and dither.
-/

namespace Sys2Proof.Machine

/-- A pixel: R, G, B and alpha. -/
abbrev Px := Nat × Nat × Nat × Nat

/-- A colour: R, G and B. -/
abbrev Rgb := Nat × Nat × Nat

/-! ### Powers -/

/-- The natural logarithm of 1 / (x / 2^300), for x in 1 to 2^300, scaled by 2^300. -/
def negLn (x : Nat) : Nat :=
  let k := Nat.log2 x
  let y := (x - 2 ^ k) * 2 ^ serPrec / (x + 2 ^ k)
  (serPrec - k) * ln2Scaled - 2 * atanhSeries (y * y / 2 ^ serPrec) 100 1 y

/-- exp (-y / 2^300), scaled by 2^300. -/
def expNeg (y : Nat) : Nat :=
  let i := ceilDiv y ln2Scaled
  expSeries (i * ln2Scaled - y) 90 0 (2 ^ serPrec) / 2 ^ i

/-- (x / 2^300)^(p / q), scaled by 2^300, for x up to 2^300. -/
def powScaled (x p q : Nat) : Nat :=
  if x = 0 then 0 else if 2 ^ serPrec ≤ x then 2 ^ serPrec else expNeg (negLn x * p / q)

/-- round(n / d) = floor(n / d + 1/2) (R461). -/
def roundHalf (n d : Nat) : Nat := (2 * n + d) / (2 * d)

/-- floor(k (a / d)^(p / q) + 1/2). -/
def powRound (k a d p q : Nat) : Nat := (rootFloor q ((2 * k) ^ q * a ^ p / d ^ p) + 1) / 2

/-! ### Transfer functions (R462, R469) -/

/-- The constants of PQ over 4,096. -/
abbrev pqC1 : Nat := 3424
/-- c2. -/
abbrev pqC2 : Nat := 77216
/-- c3. -/
abbrev pqC3 : Nat := 76544

/-- E of PQ for c / n, scaled by 2^300. -/
def pqDecode (c n : Nat) : Nat :=
  let t := powScaled (c * 2 ^ serPrec / n) 32 2523
  let num := 4096 * t - pqC1 * 2 ^ serPrec
  let den := pqC2 * 2 ^ serPrec - pqC3 * t
  powScaled (num * 2 ^ serPrec / den) 8192 1305

/-- O of PQ for l / 65,535, scaled by 2^300. -/
def pqEncode (l : Nat) : Nat :=
  let t := powScaled (l * 2 ^ serPrec / 65535) 1305 8192
  let num := pqC1 * 2 ^ serPrec + pqC2 * t
  let den := 4096 * 2 ^ serPrec + pqC3 * t
  powScaled (num * 2 ^ serPrec / den) 2523 32

/-- DEC of an n-bit code under ITF (R462). -/
def dec (itf n c : Nat) : Nat :=
  let m := 2 ^ n - 1
  match itf with
  | 0 => if 100000 * c ≤ 4045 * m then roundHalf (65535 * 100 * c) (1292 * m)
    else powRound 65535 (1000 * c + 55 * m) (1055 * m) 12 5
  | 1 => if 1000 * c < 81 * m then roundHalf (65535 * 10 * c) (45 * m)
    else powRound 65535 (1000 * c + 99 * m) (1099 * m) 20 9
  | 2 => roundHalf (65535 * pqDecode c m) (2 ^ serPrec)
  | _ => roundHalf (65535 * c) m

/-- E16 of a channel value for a panel depth (R469). -/
def e16 (otf depth l : Nat) : Nat :=
  let m := 16 * (2 ^ depth - 1)
  match otf with
  | 0 => if l * 10000000 ≤ 31308 * 65535 then roundHalf (m * 1292 * l) (100 * 65535)
    else (rootFloor 12 ((1055 * m) ^ 12 * l ^ 5 / 65535 ^ 5) + 500 - 55 * m) / 1000
  | 1 => if l * 1000 < 18 * 65535 then roundHalf (m * 45 * l) (10 * 65535)
    else (rootFloor 20 ((1099 * m) ^ 20 * l ^ 9 / 65535 ^ 9) + 500 - 99 * m) / 1000
  | 2 => roundHalf (m * pqEncode l) (2 ^ serPrec)
  | _ => roundHalf (m * l) 65535

/-! ### Unpacking (R455, R462) -/

/-- A channel of RGBA16F: clamped to [0, 1], NaN giving 0. -/
def halfChan (c : Nat) : Nat :=
  let (n, d) := clampFrac (fpDecode fp16 c)
  roundHalf (65535 * n) d

/-- The linear pixel of a pixel word of FMT 0 to 6. -/
def unpackPx (c : PlaneCfg) (fmt v : Nat) : Px :=
  let itf := fld c.cfg 13 2
  let cover := bit c.cfg 18
  let k : Rgb := (fld c.constRg 0 16, fld c.constRg 16 16, fld c.constB 0 16)
  let ch := fun (f : Option (Nat × Nat)) => match f with
    | some (lo, n) => dec itf n (nfld v lo n)
    | none => 0
  match fmt with
  | 4 => (halfChan (nfld v 0 16), halfChan (nfld v 16 16), halfChan (nfld v 32 16), halfChan (nfld v 48 16))
  | 5 => if cover then (k.1, k.2.1, k.2.2, nfld v 0 8 * 257)
    else let x := dec itf 8 (nfld v 0 8); (x, x, x, 65535)
  | 6 => if cover then (k.1, k.2.1, k.2.2, nfld v 0 16) else let x := nfld v 0 16; (x, x, x, 65535)
  | _ =>
    let f := pixFields fmt
    let a := match (f[3]?).getD none with
      | some (lo, 2) => nfld v lo 2 * 21845
      | some (lo, n) => nfld v lo n * 257
      | none => 65535
    (ch ((f[0]?).getD none), ch ((f[1]?).getD none), ch ((f[2]?).getD none), a)

/-- The pixel words of b bytes each of a row. -/
def pixWords (b : Nat) : Nat → List Byte → List Nat
  | 0, _ => []
  | n + 1, bs => leValue (bs.take b) :: pixWords b n (bs.drop b)

/-! ### YUV (R460, R461) -/

/-- A signed value divided by 4,096 after rounding, clamped to 12 bits. -/
def clamp12 (x : Int) : Nat := (min 4095 ((x + 2048) / 4096)).toNat

/-- 12-bit R, G and B codes of a YUV pixel. -/
def yuvCodes (matrix full : Bool) (y u v : Nat) : Rgb :=
  let kr := if matrix then 2126 else 2990
  let kb := if matrix then 722 else 1140
  let kg := 10000 - kr - kb
  let yo : Int := if full then 0 else 16
  let dy := if full then 255 else 219
  let dc := if full then 255 else 224
  let one := 4096 * 4095
  let ky : Int := roundHalf one dy
  let krv : Int := roundHalf (one * 2 * (10000 - kr)) (10000 * dc)
  let kbu : Int := roundHalf (one * 2 * (10000 - kb)) (10000 * dc)
  let kgu : Int := roundHalf (one * 2 * kb * (10000 - kb)) (10000 * kg * dc)
  let kgv : Int := roundHalf (one * 2 * kr * (10000 - kr)) (10000 * kg * dc)
  let l : Int := ky * ((y : Int) - yo)
  let cu : Int := (u : Int) - 128
  let cv : Int := (v : Int) - 128
  (clamp12 (l + krv * cv), clamp12 (l - kgu * cu - kgv * cv), clamp12 (l + kbu * cu))

/-- The chroma of luma row y from its two chroma rows (R460). -/
def chromaMix (near far : List (Nat × Nat)) : List (Nat × Nat) :=
  List.zipWith (fun a b => ((3 * a.1 + b.1 + 2) / 4, (3 * a.2 + b.2 + 2) / 4)) near far

/-- The chroma of luma column x, from the samples i0 to i0 + n - 1 of its row (R460). -/
def chromaAt (cs : List (Nat × Nat)) (i0 x : Nat) : Nat × Nat :=
  let at' := fun (i : Nat) => (cs[min i (i0 + cs.length - 1) - i0]?).getD (0, 0)
  let a := at' (x / 2)
  if x % 2 = 0 then a
  else let b := at' (x / 2 + 1); ((a.1 + b.1 + 1) / 2, (a.2 + b.2 + 1) / 2)

/-- The linear pixels of luma samples, the first at column x, with the chroma of their row. -/
def yuvRow (c : PlaneCfg) (cs : List (Nat × Nat)) (i0 : Nat) : Nat → List Nat → List Px
  | _, [] => []
  | x, y :: ys =>
    let (u, v) := chromaAt cs i0 x
    let (r, g, b) := yuvCodes (bit c.cfg 16) (bit c.cfg 17) y u v
    let itf := fld c.cfg 13 2
    (dec itf 12 r, dec itf 12 g, dec itf 12 b, 65535) :: yuvRow c cs i0 (x + 1) ys

/-! ### Scaling (R463, R464) -/

/-- The source index and the remainder over 2 DW of destination column X (R463). -/
def srcIndex (sw dw x : Nat) : Int × Nat :=
  let n : Int := ((2 * x + 1) * sw : Nat) - (dw : Int)
  (n / ((2 * dw : Nat) : Int), (n % ((2 * dw : Nat) : Int)).toNat)

/-- A source index clamped into its rectangle. -/
def clampIdx (i : Int) (n : Nat) : Nat := (max 0 (min i ((n : Int) - 1))).toNat

/-- A function of each channel of a list of pixels. -/
def chans (f : List Nat → Nat) (ps : List Px) : Px :=
  (f (ps.map fun p => p.1), f (ps.map fun p => p.2.1), f (ps.map fun p => p.2.2.1), f (ps.map fun p => p.2.2.2))

/-- The bilinear mean of two values with weight a out of 256 for the second. -/
def lerp256 (a : Nat) (vs : List Nat) : Nat :=
  min 65535 (((vs[0]?).getD 0 * (256 - a) + (vs[1]?).getD 0 * a + 128) / 256)

/-- A filter sum over signed coefficients in 1/1,024, clamped. -/
def filter1024 (cs : List Int) (vs : List Nat) : Nat :=
  let t := (List.zipWith (fun (c : Int) (v : Nat) => c * (v : Int)) cs vs).foldl (· + ·) 0
  (min 65535 ((t + 512) / 1024)).toNat

/-- Coefficient e of a table (R458): bits [11:0] of a 16-bit entry, signed. -/
def coefAt (bank : List Byte) (e : Nat) : Int := sext (leValue ((bank.drop (2 * e)).take 2) % 4096) 12

/-- Horizontal coefficients of a phase. -/
def hCoefs (bank : List Byte) (ph : Nat) : List Int := (List.range 8).map fun t => coefAt bank (8 * ph + t)

/-- Vertical coefficients of a phase. -/
def vCoefs (bank : List Byte) (ph : Nat) : List Int := (List.range 6).map fun t => coefAt bank (512 + 6 * ph + t)

/-- Destination pixel X from rows that have been combined vertically by f. -/
def scaleCol (mode sw dw : Nat) (bank : List Byte) (col : Nat → Px) (x : Nat) : Px :=
  let (i, rem) := srcIndex sw dw x
  let at' := fun (k : Int) => col (clampIdx k sw)
  match mode with
  | 0 => col x
  | 2 => chans (filter1024 (hCoefs bank (64 * rem / (2 * dw)))) ((List.range 8).map fun (t : Nat) => at' (i - 3 + (t : Int)))
  | _ => chans (lerp256 (256 * rem / (2 * dw))) [at' i, at' (i + 1)]

/-- The source rows, counted from SY, that destination row Y uses, in the order of the vertical taps. -/
def scaleRows (mode sh dh y : Nat) : List Nat :=
  let j := (srcIndex sh dh y).1
  match mode with
  | 0 => [y]
  | 2 => (List.range 6).map fun (t : Nat) => clampIdx (j - 2 + (t : Int)) sh
  | _ => [clampIdx j sh, clampIdx (j + 1) sh]

/-- The vertical pass at one column, over the pixels of the rows of scaleRows. -/
def scaleCols (mode sh dh : Nat) (bank : List Byte) (y : Nat) (ps : List Px) : Px :=
  let rem := (srcIndex sh dh y).2
  match mode with
  | 0 => (ps[0]?).getD (0, 0, 0, 0)
  | 2 => chans (filter1024 (vCoefs bank (64 * rem / (2 * dh)))) ps
  | _ => chans (lerp256 (256 * rem / (2 * dh))) ps

/-! ### Blending (R466, R467) -/

/-- A plane's pixel over the composite (R466, R467). -/
def blendPx (c : PlaneCfg) (p : Px) (d : Rgb) : Rgb :=
  let galpha := fld c.alpha 0 16
  let gain := fld c.alpha 16 16
  let a := (p.2.2.2 * galpha + 32767) / 65535
  let fmt := fld c.cfg 4 4
  let pre := bit c.cfg 15 && !(bit c.cfg 18 && (decide (fmt = 5) || decide (fmt = 6)))
  let f := fun (s d : Nat) =>
    let l := min 65535 ((s * gain + 16384) / 32768)
    if pre then min 65535 ((l * galpha + d * (65535 - a) + 32767) / 65535)
    else (l * a + d * (65535 - a) + 32767) / 65535
  (f p.1 d.1, f p.2.1 d.2.1, f p.2.2.1 d.2.2)

/-- Pixels over the start of a row. -/
def blendFrom (c : PlaneCfg) : List Px → List Rgb → List Rgb
  | p :: ps, d :: ds => blendPx c p d :: blendFrom c ps ds
  | _, ds => ds

/-- A plane's line over a row. -/
def blendRow (c : PlaneCfg) (px : List Px) (row : List Rgb) : List Rgb :=
  let dx := fld c.dstPos 0 12
  row.take dx ++ blendFrom c px (row.drop dx)

/-! ### Colour matrix and panel codes (R468 to R470, R484) -/

/-- Coefficient e of the colour matrix. -/
def ctmAt (ctm : List Word) (e : Nat) : Int := sext (fld ((ctm[e / 2]?).getD 0) (16 * (e % 2)) 16) 16

/-- The colour matrix. -/
def ctmPx (ctm : List Word) (c : Rgb) : Rgb :=
  let f := fun (i : Nat) =>
    let t := ctmAt ctm (3 * i) * (c.1 : Int) + ctmAt ctm (3 * i + 1) * (c.2.1 : Int) + ctmAt ctm (3 * i + 2) * (c.2.2 : Int)
    (min 65535 ((t + 8192) / 16384)).toNat
  (f 0, f 1, f 2)

/-- The dither matrix B. -/
def ditherB : List Nat := [0, 8, 2, 10, 12, 4, 14, 6, 3, 11, 1, 9, 15, 7, 13, 5]

/-- T of a pixel (R470); frame is the FRAME of the source position. -/
def ditherT (color : Word) (frame x y : Nat) : Nat :=
  if !bit color 4 then 8
  else
    let (ox, oy) := if !bit color 5 then (0, 0)
      else match frame % 4 with
        | 0 => (0, 0)
        | 1 => (2, 2)
        | 2 => (2, 0)
        | _ => (0, 2)
    (ditherB[(y + oy) % 4 * 4 + (x + ox) % 4]?).getD 0

/-- Panel depth. -/
def panelDepth (color : Word) : Nat :=
  match fld color 2 2 with
  | 1 => 6
  | 2 => 10
  | _ => 8

/-- Panel codes of a composite pixel. -/
def panelPx (color : Word) (frame x y : Nat) (c : Rgb) : Rgb :=
  let dp := panelDepth color
  let t := ditherT color frame x y
  let f := fun (l : Nat) => min (2 ^ dp - 1) ((e16 (fld color 0 2) dp l + t) / 16)
  (f c.1, f c.2.1, f c.2.2)

/-- A panel code of depth D in a channel of width w (R484). -/
def dsiCode (dp w code : Nat) : Nat := if dp ≤ w then code * 2 ^ (w - dp) else code / 2 ^ (dp - w)

end Sys2Proof.Machine
end

