-- ==== Sys2Proof/Machine/Geo.lean ====
section
/-!
DEFINITION. The GEO up to the vertex program (spec/13_geometry.md R379 to R388, R404): the geometry section, the walk
of the draw list, attribute fetch, vertex batches and their heats; and what the BIN allocates when a pass begins.
-/

namespace Sys2Proof.Machine

/-! ### The geometry section (R381, R404) -/

/-- TESS_EN. -/
def passTess (p : GeoPass) : Bool := decide (passFld p 4 28 1 = 1)

/-- NATTR. -/
def passNattr (p : GeoPass) : Nat := passFld p 4 9 5

/-- NVARY. -/
def passNvary (p : GeoPass) : Nat := passFld p 4 14 6

/-- OUT_BASE. -/
def passOutBase (p : GeoPass) : Nat := passFld p 4 20 8

/-- The word of attribute a: STREAM, FMT and OFF. -/
def attrFld (p : GeoPass) (a lo w : Nat) : Nat := passFld p (28 + a / 4) (16 * (a % 4) + lo) w

/-- The causes of R404 that the geometry section shows. -/
def geoCauses (p : GeoPass) : List (Nat × Bool) :=
  let vregs := passFld p 4 0 9
  [(80, decide (passWord p 0 % 32 ≠ 0 ∨ passWord p 2 % 128 ≠ 0 ∨ passWord p 3 % 16 ≠ 0 ∨ passWord p 5 % 32 ≠ 0)),
   (81, decide (vregs < 8 ∨ 256 < vregs ∨ vregs % 8 ≠ 0 ∨ vregs < 2 + 4 * passNattr p ∨
      vregs < passOutBase p + 4 + passNvary p)),
   (82, decide (16 < passNattr p ∨ 32 < passNvary p)),
   (83, (List.range (min 16 (passNattr p))).any fun a => decide (18 < attrFld p a 3 5)),
   (84, passTess p && decide (passNattr p ≠ 0)),
   (85, decide (passFld p 4 30 2 = 3))]

/-! ### Draw records (R382, R384) -/

/-- Word i of the draw record being fetched. -/
def drawFld (p : GeoPass) (i lo w : Nat) : Nat := fld ((p.drawRec[i]?).getD 0) lo w

/-- TOPO. -/
def drawTopo (p : GeoPass) : Nat := drawFld p 0 0 3

/-- COUNT. -/
def drawCount (p : GeoPass) : Nat := drawFld p 0 32 32

/-- The causes of R404 that a draw record shows. -/
def drawCause (p : GeoPass) (r : List DWord) : Option Nat :=
  let w := (r[0]?).getD 0
  if (passTess p ∧ fld w 0 3 ≠ 6) ∨ (!passTess p ∧ fld w 0 3 = 6) then some 84
  else if fld w 0 3 = 7 ∨ (bit w 3 ∧ fld w 4 2 = 3) then some 86
  else none

/-- The GEO's requester number at other devices. -/
def geoOwner : Nat := 2 ^ 53

/-- A read by the GEO for a pass: the bytes, or the state after a fault or a wait. -/
def geoRead (s : State) (p : GeoPass) (va n : Nat) : State × Except State (List Byte) :=
  let d := descOf s p.id
  match vaRead (descAccess s p.id) (.unit geoOwner) (descSlot d) va n accLoad with
  | (s, .ok bs) => (s, .ok bs)
  | (s, .fault f) => (s, .error (unitFault s d f))
  | (s', .wait) => (s, .error (retryWait s s'))

/-- The GEO moves on to the next index position that a draw holds, or finds that the draw list is done. -/
def geoAdvance (id : DescId) : Nat → State → State
  | 0, s => s
  | k + 1, s =>
    match passOf s id with
    | none => s
    | some p =>
      if p.fetched then s
      else if passFld p 1 0 24 ≤ p.draw then onPass s id fun p => { p with fetched := true }
      else if p.drawRec = [] then
        let a := passWord p 0 + 32 * p.draw
        match geoRead s p a 32 with
        | (_, .error s) => s
        | (s, .ok bs) =>
          let r : List DWord := (wordsLE 4 bs).map fun w => BitVec.ofNat 64 w
          match drawCause p r with
          | some c => decideDesc s id (malformed a c)
          | none => geoAdvance id k (onPass (remoteFlush s geoOwner) id fun p =>
              { p with drawRec := r, inst := 0, pos := 0, patchNum := 0 })
      else if drawCount p = 0 ∨ drawFld p 1 32 32 ≤ p.inst then
        geoAdvance id k (onPass s id fun p => { p with draw := p.draw + 1, drawRec := [] })
      else if drawCount p ≤ p.pos then geoAdvance id k (onPass s id fun p => { p with inst := p.inst + 1, pos := 0, patchNum := 0 })
      else s

/-- Steps that geoAdvance may need. -/
def geoFuel (p : GeoPass) : Nat := 4 * (passFld p 1 0 24 - p.draw + 2)

/-- What index position pos of the draw holds: a vertex ID, or a restart (R384). -/
def indexAt (s : State) (p : GeoPass) (pos : Nat) : State × Except State (Option Nat) :=
  let i := drawFld p 1 0 32 + pos
  if drawFld p 0 3 1 = 0 then (s, .ok (some (i % 2 ^ 32)))
  else
    let n := 2 ^ drawFld p 0 4 2
    match geoRead s p (drawFld p 3 0 48 + i * n) n with
    | (s, .error e) => (s, .error e)
    | (s, .ok bs) =>
      let x := leValue bs
      if drawFld p 0 6 1 = 1 ∧ x = 2 ^ (8 * n) - 1 then (s, .ok none)
      else (s, .ok (some ((x + drawFld p 2 0 32) % 2 ^ 32)))

/-- The instance ID of the instance being fetched. -/
def instId (p : GeoPass) (n : Nat) : Nat := (drawFld p 2 32 32 + n) % 2 ^ 32

/-! ### Batches (R386, R395) -/

/-- Collects index positions for a batch: entries so far newest first, lanes, positions spanned, the next position. -/
def batchCollect (p : GeoPass) : Nat → State → List (Option Nat) → List Nat → Nat → Nat →
    State × Except State (List (Option Nat) × List Nat × Nat)
  | 0, s, es, ls, _, pos => (s, .ok (es, ls, pos))
  | k + 1, s, es, ls, span, pos =>
    if drawCount p ≤ pos ∨ 96 ≤ span then (s, .ok (es, ls, pos))
    else
      match indexAt s p pos with
      | (s, .error e) => (s, .error e)
      | (s, .ok none) => batchCollect p k s (none :: es) ls (if ls = [] then 0 else span + 1) (pos + 1)
      | (s, .ok (some v)) =>
        match ls.findIdx? fun x => decide (x = v) with
        | some l => batchCollect p k s (some l :: es) ls (span + 1) (pos + 1)
        | none =>
          if ls.length = 32 then (s, .ok (es, ls, pos))
          else batchCollect p k s (some ls.length :: es) (ls ++ [v]) (span + 1) (pos + 1)

/-- The next batch of index positions of a pass is formed; one that holds restarts alone runs no heat. -/
def formBatch (s : State) (p : GeoPass) : State :=
  match batchCollect p (drawCount p - p.pos) s [] [] 0 p.pos with
  | (_, .error s) => s
  | (s, .ok (es, ls, pos)) =>
    let b : GeoBatch :=
      { no := p.batchNo, inst := p.inst, instId := instId p p.inst, topo := drawTopo p, entries := es.reverse, lanes := ls
        placed := ls.isEmpty, outs := if ls.isEmpty then some [] else none, last := decide (drawCount p ≤ pos) }
    onPass (remoteFlush s geoOwner) p.id fun p =>
      { p with pos := pos, batches := p.batches ++ [b], batchNo := if ls = [] then p.batchNo else p.batchNo + 1 }

/-- The next batch of domain points of a patch (R395). -/
def formPoints (s : State) (p : GeoPass) (t : Patch) : State :=
  let n := min 32 (t.pts.length - t.batched)
  let b : GeoBatch :=
    { no := p.batchNo, inst := t.inst, instId := t.instId, topo := 6, patch := some t.total, lanes := (List.range n).map fun i => t.batched + i }
  let f := fun (q : Patch) => if q.total = t.total then { q with batched := q.batched + n } else q
  onPass s p.id fun p => { p with batches := p.batches ++ [b], batchNo := p.batchNo + 1, patches := p.patches.map f }

/-- The pass that the GEO works on, while its descriptor runs and it is not stalled. -/
def geoCurrent (s : State) : Option GeoPass :=
  (s.work.current.bind (passOf s)).filter fun p => p.inGeo && p.began && !p.stalled && descRuns s p.id

/-- The current pass's draw cursor moves on, and a pass whose binning phase is complete leaves the GEO (R406). -/
def geoSettle (s : State) : State :=
  match geoCurrent s with
  | none => s
  | some p =>
    let s := geoAdvance p.id (geoFuel p) s
    match passOf s p.id with
    | some p => if passBinned p then onPass s p.id fun p => { p with inGeo := false } else s
    | none => s

/-- The current pass forms its next batch, when none of its batches waits for a core. -/
def geoForm (s : State) : State :=
  let s := geoSettle s
  match geoCurrent s with
  | none => s
  | some p =>
    if p.batches.any fun b => !b.placed then s
    else if passTess p then
      match p.patches.find? fun t => decide (t.batched < t.pts.length) with
      | some t => formPoints s p t
      | none => s
    else if p.fetched ∨ p.drawRec = [] then s
    else formBatch s p

/-! ### Attributes (R383, R385) -/

/-- The value of an n-bit SNORM channel: c / (2^(n-1) - 1), at least -1 (R383). -/
def snormDecode (n c : Nat) : Word :=
  let x := sext c n
  let m := 2 ^ (n - 1) - 1
  BitVec.ofNat 32 (fpRoundFrac fp32 0 (decide (x < 0)) (min x.natAbs m) m)

/-- Bytes of an attribute format. -/
def attrBytes (f : Nat) : Nat := match f with
  | 0 => 0 | 1 => 4 | 2 => 8 | 3 => 12 | 4 => 16 | 5 => 4 | 6 => 8
  | 13 => 4 | 14 => 8 | 15 => 12 | 16 => 16
  | _ => 4

/-- Components of an attribute format with its bytes as a number. -/
def attrComps (f x : Nat) : List Word :=
  let cut := fun (w n : Nat) => (List.range n).map fun i => nfld x (w * i) w
  let raw := fun (n : Nat) => (cut 32 n).map fun c => (BitVec.ofNat 32 c : Word)
  match f with
  | 0 => []
  | 1 => raw 1 | 2 => raw 2 | 3 => raw 3 | 4 => raw 4
  | 5 => (cut 16 2).map (fWiden fp16)
  | 6 => (cut 16 4).map (fWiden fp16)
  | 7 => (cut 8 4).map (unormDecode 8)
  | 8 => (cut 8 4).map (snormDecode 8)
  | 9 => (cut 8 4).map fun c => BitVec.ofNat 32 c
  | 10 => (cut 16 2).map (unormDecode 16)
  | 11 => (cut 16 2).map (snormDecode 16)
  | 12 => (cut 16 2).map fun c => BitVec.ofNat 32 c
  | 13 => raw 1 | 14 => raw 2 | 15 => raw 3 | 16 => raw 4
  | 17 => (cut 16 2).map fun c => BitVec.ofInt 32 (sext c 16)
  | _ => [unormDecode 10 (nfld x 20 10), unormDecode 10 (nfld x 10 10), unormDecode 10 (nfld x 0 10), unormDecode 2 (nfld x 30 2)]

/-- Whether a format's missing fourth component is the integer 1. -/
def attrInt (f : Nat) : Bool := [9, 12, 13, 14, 15, 16, 17].contains f

/-- The four components of an attribute (R383). -/
def attrValue (f x : Nat) : List Word :=
  let cs := attrComps f x
  (List.range 4).map fun i => (cs[i]?).getD (if i = 3 then (if attrInt f then 1 else 0x3F800000) else 0)

/-- Attribute a of a vertex: its four components, and whether it lay beyond LIMIT (R385). -/
def attrFetch (s : State) (p : GeoPass) (a vid inst : Nat) : State × Except State (List Word × Bool) :=
  let st := attrFld p a 0 3
  let f := attrFld p a 3 5
  let n := attrBytes f
  if n = 0 then (s, .ok (attrValue 0 0, false))
  else
    let e := if passFld p (13 + 2 * st) 32 1 = 0 then vid else inst / max 1 (passFld p (13 + 2 * st) 40 24)
    let o := e * passFld p (12 + 2 * st) 48 16 + attrFld p a 8 8
    if passFld p (13 + 2 * st) 0 32 < o + n then (s, .ok (attrValue 0 0, true))
    else
      match geoRead s p (passFld p (12 + 2 * st) 0 48 + o) n with
      | (s, .error e) => (s, .error e)
      | (s, .ok bs) => (s, .ok (attrValue f (leValue bs), false))

/-- The register values of one lane of a batch of vertices, and its reads beyond LIMIT (R387). -/
def laneAttrs (s : State) (p : GeoPass) (b : GeoBatch) (lane vid : Nat) :
    State × Except State (List (Nat × Nat × Nat) × Nat) :=
  (List.range (passNattr p)).foldl (fun (acc : State × Except State (List (Nat × Nat × Nat) × Nat)) a =>
    match acc.2 with
    | .error _ => acc
    | .ok (vs, oob) => match attrFetch acc.1 p a vid b.inst with
      | (s, .error e) => (s, .error e)
      | (s, .ok (cs, bad)) =>
        (s, .ok (vs ++ cs.zipIdx.map (fun c => (2 + 4 * a + c.2, lane, c.1.toNat)), oob + b2n bad)))
    (s, .ok ([(0, lane, vid), (1, lane, b.instId)], 0))

/-- An exact coordinate rounded to FP32 (R393). -/
def coordWord (x : Rat) : Nat := fpRoundFrac fp32 0 (decide (x < 0)) x.num.natAbs x.den

/-- The register values of one lane of a batch of domain points (R395). -/
def lanePoint (b : GeoBatch) (t : Patch) (lane i : Nat) : List (Nat × Nat × Nat) :=
  let q := (t.pts[i]?).getD (0, 0, 0)
  [(0, lane, t.num), (1, lane, b.instId), (2, lane, coordWord q.1), (3, lane, coordWord q.2.1),
    (4, lane, coordWord q.2.2), (5, lane, t.first)]

/-- The start values of all lanes of a batch, and its reads beyond LIMIT. -/
def batchRegs (s : State) (p : GeoPass) (b : GeoBatch) : State × Except State (List (Nat × Nat × Nat) × Nat) :=
  match b.patch with
  | some k =>
    match p.patches.find? fun t => decide (t.total = k) with
    | some t => (s, .ok (b.lanes.zipIdx.flatMap fun l => lanePoint b t l.2 l.1, 0))
    | none => (s, .ok ([], 0))
  | none =>
    b.lanes.zipIdx.foldl (fun (acc : State × Except State (List (Nat × Nat × Nat) × Nat)) l =>
      match acc.2 with
      | .error _ => acc
      | .ok (vs, oob) => match laneAttrs acc.1 p b l.2 l.1 with
        | (s, .error e) => (s, .error e)
        | (s, .ok (ws, n)) => (s, .ok (vs ++ ws, oob + n))) (s, .ok ([], 0))

/-! ### Vertex heats (R387, R388) -/

/-- The block of a batch (R387). -/
def vertexBlk (s : State) (p : GeoPass) (b : GeoBatch) (core : Nat) (vs : List (Nat × Nat × Nat)) : Blk :=
  let d := descOf s p.id
  let args := passWord p 3
  { id := p.id, kind := .vertex, idx := b.no, core := core, slot := descSlot d, cls := descClass s d
    code := passWord p 2, vregs := passFld p 4 0 9, slots := 1
    heats := [newHeat 0 (coreOf s core).ageCtr (2 ^ b.lanes.length - 1)
      [b.no % 2 ^ 32, 0, 0, 0, args % 2 ^ 32, args / 2 ^ 32, b.lanes.length] vs] }

/-- VERTEX_BATCH_LAUNCH on a core: the current pass forms its next batch, and the core's top candidate is placed when
it is a batch that fits. -/
def vertexLaunch (s : State) (core : Nat) : State :=
  match placeTop (geoForm s) core with
  | (s, some (r, .vertex id no)) =>
    match passOf s id with
    | none => s
    | some p =>
      match p.batches.find? fun b => decide (b.no = no) && !b.placed with
      | none => s
      | some b =>
        if !candFits s core (coreOf s core).blocks (.vertex id no) then s
        else
          match batchRegs s p b with
          | (_, .error s) => s
          | (s, .ok (vs, oob)) =>
            let s := satInc (inc64 (remoteFlush s geoOwner) Reg.geoVertsLo b.lanes.length) Reg.geoOob oob
            let s := if b.patch.isSome then inc64 s Reg.geoTessPointsLo b.lanes.length else s
            let s := putBlock s (vertexBlk s p b core vs)
            let f := fun (x : GeoBatch) => if x.no = no ∧ !x.placed then { x with placed := true } else x
            placeServed (onPass s id fun p => { p with batches := p.batches.map f }) core r 1
  | (s, _) => s

/-- The position and varyings that a lane of an ended heat supplies (R388). -/
def laneVtx (p : GeoPass) (h : Heat) (lane : Nat) : Vtx :=
  let o := passOutBase p
  { pos := (List.range 4).map fun i => hv h (o + i) lane
    vary := (List.range (passNvary p)).map fun k => hv h (o + 4 + k) lane }

/-- The outputs of a batch reach its patch, once it belongs to one. -/
def patchOuts (p : GeoPass) (b : GeoBatch) (vs : List Vtx) : GeoPass :=
  match b.patch with
  | none =>
    let f := fun (x : GeoBatch) => if x.no = b.no ∧ x.outs.isNone then { x with outs := some vs } else x
    { p with batches := p.batches.map f }
  | some k =>
    let f := fun (x : GeoBatch) => if x.no = b.no then { x with outs := some vs } else x
    let bs := p.batches.map f
    let mine := bs.filter fun x => decide (x.patch = some k)
    if mine.all fun x => x.outs.isSome then
      let g := fun (t : Patch) => if t.total = k ∧ t.batched = t.pts.length then
        { t with outs := mine.flatMap fun x => x.outs.getD [] } else t
      { p with batches := bs, patches := p.patches.map g }
    else { p with batches := bs }

/-- VERTEX_BATCH_END on a core: the GEO reads the outputs of the first vertex heat that has ended (R388). -/
def vertexEnd (s : State) (core : Nat) : State :=
  match (coreOf s core).blocks.find? fun b => blkDone b && decide (b.kind = .vertex) with
  | none => s
  | some b =>
    let s := dropBlock s b
    match passOf s b.id, b.heats.head? with
    | some p, some h =>
      match p.batches.find? fun x => decide (x.no = b.idx) && x.outs.isNone && x.placed with
      | some x =>
        let h := heatQuiet h
        let vs := (List.range x.lanes.length).map (laneVtx p h)
        onPass s b.id fun p => patchOuts p x vs
      | none => s
    | _, _ => s

/-! ### The held passes (R380, R406, R411) -/

/-- Passes that the GEO holds and that may be worked on. -/
def geoCands (s : State) : List (Rank × DescId) :=
  (s.work.passes.filter fun p =>
    p.inGeo && descRuns s p.id &&
      !((slotHeap s (descSlot (descOf s p.id))).want.isSome && (slotHeap s (descSlot (descOf s p.id))).waiting.contains p.id)).map
    fun p => (descRank s (descOf s p.id), p.id)

/-- The binning of a pass begins: its tile directory is allocated, or it stalls (R227, R411). -/
def geoBegin (s : State) (id : DescId) : State :=
  match passOf s id with
  | none => s
  | some p =>
    if p.began then onPass s id fun p => { p with stalled := false }
    else
      let (s, got) := binAlloc s (descSlot (descOf s id)) id (8 * passTiles p)
      onPass s id fun p => { p with began := got, stalled := !got }

/-- RENDER_PASS: the GEO turns to the held pass that R517 chooses, unless the one it works on can go on (R380). With no
pass to turn to, one that waits on the BIN stays the current one (R403). -/
def geoTurn (s : State) : State :=
  match geoCurrent (geoSettle s) with
  | some _ => geoSettle s
  | none =>
    let s := geoSettle s
    let (sh, c) := schedPick s s.con.geo (geoCands s)
    match c with
    | none => onCon s fun x => { x with geo := sh }
    | some (r, id) =>
      let s := onDesc (onWork s fun w => { w with current := some id }) id fun d => { d with started := true }
      let s := geoSettle (geoBegin s id)
      onCon s fun x => { x with geo := schedServe s sh r 1 }

/-- GEO_STATUS and BIN_STATUS (R403, R430). -/
def geoRegRead (s : State) (off : Nat) : Option Word :=
  let held := (s.work.passes.filter fun p => p.inGeo).length
  if off = Reg.geoStatus then
    some (BitVec.ofNat 32 (b2n (decide (0 < held)) + 2 * held + 16 * b2n (match s.work.current.bind (passOf s) with
      | some p => p.stalled
      | none => false)))
  else if off = Reg.binStatus then
    some (BitVec.ofNat 32 (b2n (s.work.passes.any fun p => p.inGeo && p.began) +
      2 * b2n (s.heap.any fun h => h.want.isSome && !h.waiting.isEmpty)))
  else none

end Sys2Proof.Machine
end

