-- ==== Sys2Proof/Machine/Tess.lean ====
section
/-!
DEFINITION. The tessellator (spec/13_geometry.md R391 to R395): factors, partitions, rings, stitching and fill, in
exact rational coordinates; and PATCH_TESSELLATE.
-/

namespace Sys2Proof.Machine

/-- A domain point (u, v, w). -/
abbrev TPt := Rat × Rat × Rat

/-- The value of a finite factor above 0 as an exact number; plus infinity acts as any large number. -/
def factorRat (w : Word) : Option Rat :=
  match fv w with
  | .num false m e => if m = 0 then none else
      let (n, d) := scaleFrac m 1 e
      some ((n : Rat) / (d : Rat))
  | .inf false => some 1000
  | _ => none

/-- A factor after the clamp of its partitioning (R392). -/
def factorClamp (part : Nat) (f : Rat) : Rat :=
  match part with
  | 0 => max 1 (min 64 f)
  | 1 => max 2 (min 64 f)
  | _ => max 1 (min 63 f)

/-- n of a clamped factor. -/
def factorSegs (part : Nat) (f : Rat) : Nat :=
  let c := f.ceil.toNat
  match part with
  | 0 => c
  | 1 => if c % 2 = 0 then c else c + 1
  | _ => if c % 2 = 1 then c else c + 1

/-- The lengths of the n segments of a clamped factor (R392). -/
def segLengths (part : Nat) (f : Rat) : List Rat :=
  let n := factorSegs part f
  if part = 0 ∨ n ≤ 2 then List.replicate n (1 / (n : Rat))
  else
    let short := (f - (n : Rat) + 2) / (2 * f)
    let isShort := fun (i : Nat) =>
      if n % 2 = 0 then decide (i = n / 2 - 1 ∨ i = n / 2) else decide (i + 1 = (n - 1) / 2 ∨ i = (n - 1) / 2 + 1)
    (List.range n).map fun i => if isShort i then short else 1 / f

/-- The sums of a list's initial parts, from x on. -/
def runningSums : Rat → List Rat → List Rat
  | x, [] => [x]
  | x, y :: ys => x :: runningSums (x + y) ys

/-- The points x_0 to x_n of a factor. -/
def tessPoints (part : Nat) (f : Rat) : List Rat := runningSums 0 (segLengths part (factorClamp part f))

/-! ### Stitching and winding (R393, R394) -/

/-- A triangle of domain points. -/
abbrev TTri := TPt × TPt × TPt

/-- Stitches a side: outer points with their parameters, inner points with theirs, both rising. -/
def stitch : Nat → List (Rat × TPt) → List (Rat × TPt) → List TTri
  | 0, _, _ => []
  | k + 1, a :: as, b :: bs =>
    match as, bs with
    | [], [] => []
    | a' :: _, [] => (a.2, a'.2, b.2) :: stitch k as (b :: bs)
    | [], b' :: _ => (a.2, b'.2, b.2) :: stitch k (a :: as) bs
    | a' :: _, b' :: _ =>
      if a'.1 ≤ b'.1 then (a.2, a'.2, b.2) :: stitch k as (b :: bs)
      else (a.2, b'.2, b.2) :: stitch k (a :: as) bs
  | _, _, _ => []

/-- The stitch of two sides of any length. -/
def stitchSide (as bs : List (Rat × TPt)) : List TTri := stitch (as.length + bs.length) as bs

/-- Twice the signed area of a triangle in (u, v). -/
def triArea (t : TTri) : Rat :=
  let (a, b, c) := t
  (b.1 - a.1) * (c.2.1 - a.2.1) - (c.1 - a.1) * (b.2.1 - a.2.1)

/-- A triangle wound as asked, its first vertex kept (R394). -/
def triWind (cw : Bool) (t : TTri) : TTri :=
  let x := triArea t
  if (if cw then decide (0 < x) else decide (x < 0)) then (t.1, t.2.2, t.2.1) else t

/-! ### The quad domain -/

/-- Element i of a list of numbers. -/
def ratAt (l : List Rat) (i : Nat) : Rat := (l[i]?).getD 0

/-- Side j of a rectangle with the given points in u and v along it. -/
def quadSide (us vs : List Rat) (lo hi : Rat × Rat) (j : Nat) : List (Rat × TPt) :=
  match j with
  | 0 => us.map fun u => (u, (u, lo.2, 0))
  | 1 => vs.map fun v => (v, (hi.1, v, 0))
  | 2 => us.map fun u => (u, (u, hi.2, 0))
  | _ => vs.map fun v => (v, (lo.1, v, 0))

/-- Side j of inner ring k of a quad with partitions xu and xv. -/
def quadRing (xu xv : List Rat) (k j : Nat) : List (Rat × TPt) :=
  let mu := xu.length - 1
  let mv := xv.length - 1
  let cut := fun (l : List Rat) (m : Nat) => (l.drop k).take (m - 2 * k + 1)
  quadSide (cut xu mu) (cut xv mv) (ratAt xu k, ratAt xv k) (ratAt xu (mu - k), ratAt xv (mv - k)) j

/-- The cells of ring k, filled in ascending v and then u. -/
def quadFill (xu xv : List Rat) (k : Nat) : List TTri :=
  let mu := xu.length - 1
  let mv := xv.length - 1
  (List.range (mv - 2 * k)).flatMap fun j => (List.range (mu - 2 * k)).flatMap fun i =>
    let p := fun (a b : Nat) => ((ratAt xu (k + i + a), ratAt xv (k + j + b), 0) : TPt)
    [(p 0 0, p 1 0, p 1 1), (p 0 0, p 1 1, p 0 1)]

/-- A side of ring 0 meets the fill's edge; equal points need no triangle (log entry 60). -/
def meetFill (a b : List (Rat × TPt)) : List TTri := if a = b then [] else stitchSide a b

/-- The triangles of a quad patch, before winding. -/
def quadTris (outer : List (List Rat)) (xu xv : List Rat) : List TTri :=
  let mu := xu.length - 1
  let mv := xv.length - 1
  let rings := min mu mv / 2
  let side0 := fun (j : Nat) =>
    quadSide ((outer[j]?).getD []) ((outer[j]?).getD []) (0, 0) (1, 1) j
  let ring := fun (k j : Nat) => if k = 0 then side0 j else quadRing xu xv k j
  let stitched := (List.range rings).flatMap fun k => (List.range 4).flatMap fun j => stitchSide (ring k j) (ring (k + 1) j)
  let meets := if rings = 0 then (List.range 4).flatMap fun j => meetFill (side0 j) (quadRing xu xv 0 j) else []
  let fill := if 1 ≤ mu - 2 * rings ∧ 1 ≤ mv - 2 * rings then quadFill xu xv rings else []
  stitched ++ meets ++ fill

/-! ### The triangle domain -/

/-- The corners of ring k of the triangle domain. -/
def triCorner (x : List Rat) (k j : Nat) : TPt :=
  let t := 2 / 3 * ratAt x k
  match j % 3 with
  | 0 => (1 - 2 * t, t, t)
  | 1 => (t, 1 - 2 * t, t)
  | _ => (t, t, 1 - 2 * t)

/-- The parameter of a point along side j. -/
def triParam (p : TPt) (j : Nat) : Rat :=
  match j with
  | 0 => p.2.1 / (p.1 + p.2.1)
  | 1 => p.2.2 / (p.2.1 + p.2.2)
  | _ => p.1 / (p.2.2 + p.1)

/-- Points at fractions between two corners, with their parameters along side j. -/
def triSide (a b : TPt) (fs : List Rat) (j : Nat) : List (Rat × TPt) :=
  fs.map fun f =>
    let p : TPt := (a.1 + f * (b.1 - a.1), a.2.1 + f * (b.2.1 - a.2.1), a.2.2 + f * (b.2.2 - a.2.2))
    (triParam p j, p)

/-- Side j of ring k of a triangle with inner partition x. -/
def triRing (x : List Rat) (k j : Nat) : List (Rat × TPt) :=
  let n := x.length - 1
  let span := ratAt x (n - k) - ratAt x k
  let fs := if span = 0 then [0] else (List.range (n - 2 * k + 1)).map fun i => (ratAt x (k + i) - ratAt x k) / span
  triSide (triCorner x k j) (triCorner x k (j + 1)) fs j

/-- The triangles of a triangle patch, before winding. -/
def triTris (outer : List (List Rat)) (x : List Rat) : List TTri :=
  let n := x.length - 1
  let rings := n / 2
  let side0 := fun (j : Nat) => triSide (triCorner [0] 0 j) (triCorner [0] 0 (j + 1)) ((outer[j]?).getD []) j
  let ring := fun (k j : Nat) => if k = 0 then side0 j else triRing x k j
  let stitched := (List.range rings).flatMap fun k => (List.range 3).flatMap fun j => stitchSide (ring k j) (ring (k + 1) j)
  let meets := if rings = 0 then (List.range 3).flatMap fun j => meetFill (side0 j) (triRing x 0 j) else []
  let fill := if n - 2 * rings = 1 then [(triCorner x rings 0, triCorner x rings 1, triCorner x rings 2)] else []
  stitched ++ meets ++ fill

/-! ### Patches -/

/-- Points in order of first emission, and triangles by point (R394, R395). -/
def indexTris (ts : List TTri) : List TPt × List (Nat × Nat × Nat) :=
  let add := fun (ps : List TPt) (p : TPt) => match ps.findIdx? fun q => decide (q = p) with
    | some i => (ps, i)
    | none => (ps ++ [p], ps.length)
  ts.foldl (fun (acc : List TPt × List (Nat × Nat × Nat)) t =>
    let (ps, a) := add acc.1 t.1
    let (ps, b) := add ps t.2.1
    let (ps, c) := add ps t.2.2
    (ps, acc.2 ++ [(a, b, c)])) ([], [])

/-- The triangles of a patch with its six factor words; none when it emits nothing (R391). -/
def patchTris (quad : Bool) (part : Nat) (cw : Bool) (fs : List Word) : Option (List TTri) :=
  let f := fun (i : Nat) => (fs[i]?).bind factorRat
  let pts := fun (i : Nat) => (f i).map (tessPoints part)
  let used := if quad then [0, 1, 2, 3, 4, 5] else [0, 1, 2, 4]
  if used.any fun i => (f i).isNone then none
  else
    let at' := fun (i : Nat) => (pts i).getD []
    let ts := if quad then quadTris [at' 0, at' 1, at' 2, at' 3] (at' 4) (at' 5) else triTris [at' 0, at' 1, at' 2] (at' 4)
    some (ts.map (triWind cw))

/-- Collects the control points of the next patch: positions held of it, its first position, the next position. The
answer is the first position of the patch, if one is complete, and the next position (R389, R391). -/
def patchCollect (p : GeoPass) : Nat → State → Nat → Nat → Nat → State × Except State (Option Nat × Nat)
  | 0, s, _, _, pos => (s, .ok (none, pos))
  | k + 1, s, n, first, pos =>
    if drawCount p ≤ pos then (s, .ok (none, pos))
    else
      match indexAt s p pos with
      | (s, .error e) => (s, .error e)
      | (s, .ok none) => patchCollect p k s 0 0 (pos + 1)
      | (s, .ok (some _)) =>
        let first := if n = 0 then pos else first
        if n + 1 = drawFld p 0 7 5 + 1 then (s, .ok (some first, pos + 1)) else patchCollect p k s (n + 1) first (pos + 1)

/-- PATCH_TESSELLATE: the current pass's next patch is divided; one that emits nothing is counted as culled. -/
def patchTessellate (s : State) : State :=
  let s := geoSettle s
  match geoCurrent s with
  | none => s
  | some p =>
    if !passTess p ∨ p.fetched ∨ p.drawRec = [] ∨ p.patches.any (fun t => decide (t.batched < t.pts.length)) then s
    else
      match patchCollect p (drawCount p - p.pos) s 0 0 p.pos with
      | (_, .error s) => s
      | (s, .ok (none, pos)) => geoSettle (onPass (remoteFlush s geoOwner) p.id fun p => { p with pos := pos })
      | (s, .ok (some first, pos)) =>
        match geoRead s p (passWord p 5 + 32 * p.patchTotal) 32 with
        | (_, .error s) => s
        | (s, .ok bs) =>
          let fs : List Word := (List.range 6).map fun i => BitVec.ofNat 32 (leValue ((bs.drop (4 * i)).take 4))
          let next := fun (p : GeoPass) => { p with pos := pos, patchTotal := p.patchTotal + 1, patchNum := p.patchNum + 1 }
          let s := remoteFlush s geoOwner
          match patchTris (decide (passFld p 4 29 1 = 1)) (passFld p 4 30 2) (decide (passFld p 4 32 1 = 1)) fs with
          | none => geoSettle (satInc (onPass s p.id next) Reg.geoCulled 1)
          | some ts =>
            let (pts, tris) := indexTris ts
            let t : Patch := { total := p.patchTotal, num := p.patchNum, inst := p.inst, instId := instId p p.inst
                               first := (drawFld p 1 0 32 + first) % 2 ^ 32, pts := pts, tris := tris }
            onPass s p.id fun p => next { p with patches := p.patches ++ [t] }

end Sys2Proof.Machine
end

