-- ==== Sys2Proof/Machine/Setup.lean ====
section
/-!
DEFINITION. Primitive setup (spec/13_geometry.md R389, R390, R396 to R402): assembly, clipping, screen mapping,
snapping and culling; and PRIMITIVE_SETUP.
-/

namespace Sys2Proof.Machine

/-! ### Arithmetic -/

/-- A quotient of FP32 words, rounded once. -/
def fDiv (rnd : Nat) (a b : Word) : Word :=
  match fv a, fv b with
  | .nan, _ => fw 0 .nan
  | _, .nan => fw 0 .nan
  | .inf _, .inf _ => fw 0 .nan
  | .inf x, .num y _ _ => fw 0 (.inf (x != y))
  | .num x _ _, .inf y => fw 0 (.num (x != y) 0 0)
  | .num x m e, .num y n k =>
    if n = 0 then (if m = 0 then fw 0 .nan else fw 0 (.inf (x != y)))
    else let (a, b) := scaleFrac m n (e - k); BitVec.ofNat 32 (fpRoundFrac fp32 rnd (x != y) a b)

/-- FP32 with the sign changed. -/
def fNeg (a : Word) : Word := a ^^^ 0x80000000

/-- The guard-band and viewport constants of a pass (R397). -/
structure GeoK where
  hx : Word
  cx : Word
  gxp : Word
  gxm : Word
  hy : Word
  cy : Word
  gyp : Word
  gym : Word
  near : Word
  far : Word
deriving DecidableEq, Repr

/-- An FP32 half of a word of the geometry section. -/
def passF (p : GeoPass) (i lo : Nat) : Word := BitVec.ofNat 32 (passFld p i lo 32)

/-- Y_FLIP. -/
def passFlip (p : GeoPass) : Bool := decide (passFld p 4 38 1 = 1)

/-- The constants of R397. -/
def geoConsts (p : GeoPass) : GeoK :=
  let half := fun (w : Word) => fMul 0 w 0x3F000000
  let g := fun (lim c h : Word) => fDiv 1 (fSub 0 lim c) h
  let hx := half (passF p 7 0)
  let cx := fAdd 0 (passF p 6 0) hx
  let hy := half (passF p 7 32)
  let cy := fAdd 0 (passF p 6 32) hy
  let yp := g 0x47800000 cy hy
  let ym := g 0xC7800000 cy hy
  { hx := hx, cx := cx, gxp := g 0x47800000 cx hx, gxm := g 0xC7800000 cx hx, hy := hy, cy := cy
    gyp := if passFlip p then fNeg ym else yp, gym := if passFlip p then fNeg yp else ym
    near := passF p 8 0, far := passF p 8 32 }

/-- Component i of a position. -/
def vtxPos (v : Vtx) (i : Nat) : Word := (v.pos[i]?).getD 0

/-- d of a vertex for plane k, 1 to 7 (R397). -/
def planeD (c : GeoK) (k : Nat) (v : Vtx) : Word :=
  let x := vtxPos v 0
  let y := vtxPos v 1
  let z := vtxPos v 2
  let w := vtxPos v 3
  match k with
  | 1 => fFma 0 w 0x3F800000 0xB3800000
  | 2 => fFma 0 z 0x3F800000 0
  | 3 => fFma 0 w 0x3F800000 (fNeg z)
  | 4 => fFma 0 (fNeg c.gxm) w x
  | 5 => fFma 0 c.gxp w (fNeg x)
  | 6 => fFma 0 (fNeg c.gym) w y
  | _ => fFma 0 c.gyp w (fNeg y)

/-- Whether a vertex is inside a plane: d >= 0. -/
def planeIn (c : GeoK) (k : Nat) (v : Vtx) : Bool :=
  let d := fv (planeD c k v)
  !fvNan d && !fvLt d (.num false 0 0)

/-- The planes that apply to a pass, in order. -/
def passPlanes (p : GeoPass) : List Nat := if passFld p 4 37 1 = 1 then [1, 2, 3, 4, 5, 6, 7] else [1, 4, 5, 6, 7]

/-- The intersection of an edge with a plane, from its inside vertex (R398). -/
def planeCut (c : GeoK) (k : Nat) (i o : Vtx) : Vtx :=
  let di := planeD c k i
  let t := fDiv 0 di (fSub 0 di (planeD c k o))
  let mixW := fun (a b : Word) => fFma 0 t (fSub 0 b a) a
  { pos := (i.pos.zip o.pos).map fun q => mixW q.1 q.2, vary := (i.vary.zip o.vary).map fun q => mixW q.1 q.2 }

/-- What one edge of a polygon adds to it under a plane. -/
def edgeClip (c : GeoK) (k : Nat) (a b : Vtx) : List Vtx :=
  match planeIn c k a, planeIn c k b with
  | true, true => [a]
  | true, false => [a, planeCut c k a b]
  | false, true => [planeCut c k b a]
  | false, false => []

/-- A polygon clipped by one plane. -/
def polyClip (c : GeoK) (vs : List Vtx) (k : Nat) : List Vtx :=
  match vs with
  | [] => []
  | v :: rest => (vs.zip (rest ++ [v])).flatMap fun e => edgeClip c k e.1 e.2

/-- A line clipped by one plane; empty when both ends are outside. -/
def lineClip (c : GeoK) (vs : List Vtx) (k : Nat) : List Vtx :=
  match vs with
  | [a, b] =>
    (match planeIn c k a, planeIn c k b with
      | true, true => [a, b]
      | true, false => [a, planeCut c k a b]
      | false, true => [planeCut c k b a, b]
      | false, false => [])
  | _ => []

/-! ### Screen mapping (R399, R400) -/

/-- A screen coordinate in 1/4096 pixel (R400). -/
def snap (x : Word) : Int := (fToInt 0 (-268435456) 268435456 (fMul 0 x 0x45800000)).toInt

/-- A vertex after screen mapping and snapping. -/
def screenVtx (p : GeoPass) (c : GeoK) (v : Vtx) : SVtx :=
  let w := vtxPos v 3
  let q := fun (i : Nat) => fDiv 0 (vtxPos v i) w
  let qy := if passFlip p then fNeg (q 1) else q 1
  let z := fFma 0 (q 2) (fSub 0 c.far c.near) c.near
  { x := snap (fFma 0 (q 0) c.hx c.cx), y := snap (fFma 0 qy c.hy c.cy)
    z := fMax (fMin z (fMax c.near c.far)) (fMin c.near c.far), rw1 := fRcp w, vary := v.vary }

/-! ### Culling (R401, R402) -/

/-- The doubled signed area A of a triangle. -/
def triA (a b c : SVtx) : Int := (b.x - a.x) * (c.y - a.y) - (c.x - a.x) * (b.y - a.y)

/-- The widening of a primitive's bounding box, in 1/4096 pixel. -/
def primWiden (p : GeoPass) (n : Nat) : Int :=
  let sz := fun (lo : Nat) => if passFld p 10 lo 16 = 0 then 16 else passFld p 10 lo 16
  match n with
  | 1 => (128 * sz 0 : Nat)
  | 2 => (128 * sz 16 : Nat)
  | _ => 0

/-- The widened bounding box: least and greatest x, least and greatest y. -/
def primBox (p : GeoPass) (vs : List SVtx) : Int × Int × Int × Int :=
  let h := primWiden p vs.length
  let lo := fun (f : SVtx → Int) => (vs.map f).foldl min ((vs.map f).headD 0)
  let hi := fun (f : SVtx → Int) => (vs.map f).foldl max ((vs.map f).headD 0)
  (lo SVtx.x - h, hi SVtx.x + h, lo SVtx.y - h, hi SVtx.y + h)

/-- Whether [lo, hi] meets [a, b), in 1/4096 pixel, with b above a. -/
def spanMeets (lo hi a b : Int) : Bool := decide (max lo a ≤ hi) && decide (max lo a < b)

/-- Whether a bounding box meets the scissor rectangle (R402). -/
def boxInScissor (p : GeoPass) (vs : List SVtx) : Bool :=
  let (x0, x1, y0, y1) := primBox p vs
  let sc := fun (lo : Nat) => ((4096 * passFld p 9 lo 16 : Nat) : Int)
  spanMeets x0 x1 (sc 0) (sc 32) && spanMeets y0 y1 (sc 16) (sc 48)

/-- A mapped primitive that survives R401 and R402. -/
def primCull (p : GeoPass) (vs : List SVtx) (prov : SVtx) : Option Prim :=
  match vs with
  | [a, b, c] =>
    let x := triA a b c
    let cw := if passFlip p then decide (0 < x) else decide (x < 0)
    let front := decide (cw = decide (passFld p 4 36 1 = 1))
    let cull := passFld p 4 34 2
    if x = 0 ∨ (front ∧ (cull = 1 ∨ cull = 3)) ∨ (!front ∧ (cull = 2 ∨ cull = 3)) then none
    else if boxInScissor p vs then some { vs := vs, prov := prov, back := !front } else none
  | [a, b] => if (a.x = b.x ∧ a.y = b.y) ∨ !boxInScissor p vs then none else some { vs := vs, prov := prov }
  | _ => if boxInScissor p vs then some { vs := vs, prov := prov } else none

/-! ### One primitive (R396, R398) -/

/-- What setup makes of a primitive: what goes to the BIN, whether it was clipped, and the discards. -/
structure SetupRes where
  out : List Prim := []
  clipped : Nat := 0
  culled : Nat := 0
deriving DecidableEq, Repr

/-- The fan of a clipped polygon. -/
def fanOf (vs : List Vtx) : List (List Vtx) :=
  match vs with
  | q0 :: rest => (rest.zip (rest.drop 1)).map fun e => [q0, e.1, e.2]
  | [] => []

/-- Primitives mapped and culled one by one. -/
def setupOut (p : GeoPass) (c : GeoK) (prov : Vtx) (ps : List (List Vtx)) (clipped : Nat) : SetupRes :=
  let pv := screenVtx p c prov
  ps.foldl (fun (r : SetupRes) vs => match primCull p (vs.map (screenVtx p c)) pv with
    | some q => { r with out := r.out ++ [q] }
    | none => { r with culled := r.culled + 1 }) { clipped := clipped }

/-- R396 to R402 for one primitive. A polygon or line clipped away counts as discarded (log entry 61). -/
def primSetup (p : GeoPass) (vs : List Vtx) (prov : Vtx) : SetupRes :=
  let c := geoConsts p
  let planes := passPlanes p
  let finite := fun (v : Vtx) => v.pos.all fun w => match fv w with
    | .num _ _ _ => true
    | _ => false
  if !vs.all finite then { culled := 1 }
  else if planes.any fun k => vs.all fun v => !planeIn c k v then { culled := 1 }
  else if planes.all fun k => vs.all fun v => planeIn c k v then setupOut p c prov [vs] 0
  else
    match vs.length with
    | 2 =>
      let l := planes.foldl (lineClip c) vs
      if l = [] then { clipped := 1, culled := 1 } else setupOut p c prov [l] 1
    | _ =>
      let q := planes.foldl (polyClip c) vs
      if q.length < 3 then { clipped := 1, culled := 1 } else setupOut p c prov (fanOf q) 1

/-! ### Assembly (R389, R390) -/

/-- A vertex joins its segment: the vertices kept, and the primitive that it completes. n is its number in the
segment. -/
def asmPush (topo n : Nat) (kept : List Vtx) (v : Vtx) : List Vtx × Option (List Vtx) :=
  match topo, kept with
  | 0, _ => ([], some [v])
  | 1, [a] => ([], some [a, v])
  | 1, _ => ([v], none)
  | 2, [a] => ([v], some [a, v])
  | 2, _ => ([v], none)
  | 3, [a, b] => ([], some [a, b, v])
  | 3, _ => (kept ++ [v], none)
  | 4, [a, b] => ([b, v], some (if n % 2 = 0 then [a, b, v] else [b, a, v]))
  | 4, _ => (kept ++ [v], none)
  | 5, [a, b] => ([a, v], some [b, v, a])
  | 5, _ => (kept ++ [v], none)
  | _, _ => (kept, none)

/-- The provoking vertex of a tuple (R390). -/
def provoking (p : GeoPass) (vs : List Vtx) : Vtx :=
  (if passFld p 4 33 1 = 1 then vs.getLast? else vs.head?).getD { pos := [], vary := [] }

/-- An assembled primitive goes through setup, and what is left of it waits for the BIN. -/
def setupPrim (s : State) (id : DescId) (vs : List Vtx) (prov : Vtx) : State :=
  match passOf s id with
  | none => s
  | some p =>
    let r := primSetup p vs prov
    let s := inc64 s Reg.geoPrimsInLo 1
    let s := satInc (satInc s Reg.geoClipped r.clipped) Reg.geoCulled r.culled
    onPass s id fun p => { p with outq := p.outq ++ r.out }

/-- Takes the entries of a pass's first batch until a primitive is complete; the answer is that primitive. -/
def asmBatch (topo : Nat) (outs : List Vtx) : List (Option Nat) → List Vtx → Nat →
    List (Option Nat) × List Vtx × Nat × Option (List Vtx)
  | [], kept, n => ([], kept, n, none)
  | none :: es, _, _ => asmBatch topo outs es [] 0
  | some l :: es, kept, n =>
    match asmPush topo n kept ((outs[l]?).getD { pos := [], vary := [] }) with
    | (kept, some q) => (es, kept, n + 1, some q)
    | (kept, none) => asmBatch topo outs es kept (n + 1)

/-- Setup of the next primitive of vertex batches. -/
def setupBatch (s : State) (p : GeoPass) (b : GeoBatch) (outs : List Vtx) : State :=
  let (es, kept, n, q) := asmBatch b.topo outs b.entries p.asm p.asmN
  let ends := b.last && es.isEmpty
  let f := fun (x : GeoPass) =>
    { x with asm := if ends then [] else kept, asmN := if ends then 0 else n
             batches := if es = [] then x.batches.drop 1 else { b with entries := es } :: x.batches.drop 1 }
  let s := onPass s p.id f
  match q with
  | some vs => setupPrim s p.id vs (provoking p vs)
  | none => s

/-- Setup of the next triangle of the first patch; the patch and its batches go with its last triangle. -/
def setupPatch (s : State) (p : GeoPass) (t : Patch) : State :=
  match t.tris with
  | [] => onPass s p.id fun p => { p with patches := p.patches.drop 1, batches := p.batches.filter fun b => decide (b.patch ≠ some t.total) }
  | (i, j, k) :: rest =>
    let at' := fun (n : Nat) => (t.outs[n]?).getD { pos := [], vary := [] }
    let f := fun (x : GeoPass) =>
      if rest = [] then { x with patches := x.patches.drop 1, batches := x.batches.filter fun b => decide (b.patch ≠ some t.total) }
      else { x with patches := { t with tris := rest } :: x.patches.drop 1 }
    setupPrim (onPass s p.id f) p.id [at' i, at' j, at' k] (at' i)

/-- PRIMITIVE_SETUP: the next primitive of the current pass, once its vertices are there and the BIN has taken the
last one. -/
def primitiveSetup (s : State) : State :=
  match geoCurrent s with
  | none => s
  | some p =>
    if !p.outq.isEmpty then s
    else if passTess p then
      match p.patches with
      | t :: _ => if t.outs.length = t.pts.length then geoSettle (setupPatch s p t) else s
      | [] => geoSettle s
    else
      match p.batches with
      | b :: _ => match b.outs with
        | some outs => geoSettle (setupBatch s p b outs)
        | none => s
      | [] => geoSettle s

/-! ### Binning (R410, R411) -/

/-- Tiles along one axis that [lo, hi] reaches within [0, limit) and [a, b), all in 1/4096 pixel. -/
def tileSpan (n : Nat) (lo hi a b : Int) : List Nat :=
  (List.range n).filter fun t =>
    let t0 : Int := ((131072 * t : Nat) : Int)
    spanMeets (max lo a) hi t0 (min b (t0 + 131072))

/-- The tiles whose lists a primitive joins, in ascending order (R410). -/
def primTiles (p : GeoPass) (q : Prim) : List Nat :=
  let (x0, x1, y0, y1) := primBox p q.vs
  let sc := fun (lo : Nat) => ((4096 * passFld p 9 lo 16 : Nat) : Int)
  let w : Int := ((4096 * passWidth p : Nat) : Int)
  let h : Int := ((4096 * passHeight p : Nat) : Int)
  let xs := tileSpan (passTx p) x0 x1 (sc 0) (min (sc 32) w)
  let ys := tileSpan (ceilDiv (passHeight p) 32) y0 y1 (sc 16) (min (sc 48) h)
  ys.flatMap fun y => xs.map fun x => y * passTx p + x

/-- Bytes of a primitive record (R411). -/
def recordBytes (p : GeoPass) : Nat := ceilDiv (32 + 3 * (16 + 4 * passNvary p)) 32 * 32

/-- The list of a tile. -/
def tileList (p : GeoPass) (t : Nat) : List Nat := storeGet (fun _ => []) p.lists t

/-- The items of the front primitive from number k on: its record, then each tile's reference. The flag says that it
stalled. -/
def binItems (id : DescId) (tiles : List Nat) : Nat → Nat → State → State × Bool
  | 0, _, s => (s, false)
  | fuel + 1, k, s =>
    match passOf s id with
    | none => (s, false)
    | some p =>
      let c := descSlot (descOf s id)
      if k = 0 then
        match binAlloc s c id (recordBytes p) with
        | (s, false) => (s, true)
        | (s, true) => binItems id tiles fuel 1 (onPass s id fun p => { p with binDone := 1 })
      else
        match tiles[k - 1]? with
        | none => (s, false)
        | some t =>
          let (s, got) := if (tileList p t).length % 31 = 0 then binAlloc s c id 128 else (s, true)
          if got then
            let s := inc64 s Reg.binRefsLo 1
            binItems id tiles fuel (k + 1) (onPass s id fun p =>
              { p with binDone := k + 1, lists := storePut (fun _ => []) p.lists t (tileList p t ++ [p.prims.length]) })
          else (s, true)

/-- BIN_PRIMITIVE: the BIN takes the front primitive of the current pass, which joins the lists of its tiles; a pass without room stalls
and goes on where it stalled (R227). -/
def binPrimitive (s : State) : State :=
  match geoCurrent s with
  | none => s
  | some p =>
    match p.outq with
    | [] => geoSettle s
    | q :: _ =>
      let tiles := primTiles p q
      let finish := fun (s : State) => geoSettle (onPass (inc64 s Reg.geoPrimsOutLo 1) p.id fun p =>
        { p with outq := p.outq.drop 1, binDone := 0, prims := p.prims ++ [q] })
      if tiles = [] then finish s
      else
        match binItems p.id tiles (tiles.length + 2) p.binDone s with
        | (s, true) => onPass s p.id fun p => { p with stalled := true }
        | (s, false) => finish (inc64 s Reg.binPrimsLo 1)

end Sys2Proof.Machine
end

