-- ==== Sys2Proof/Machine/Tiles.lean ====
section
/-!
DEFINITION. Tile arithmetic (spec/14_tiles_and_bins.md R412, R419, R420, R424 to R428): coverage, interpolation, the
depth and stencil tests, blending, and the encoding of pixels; and loads of a tile's targets.
-/

namespace Sys2Proof.Machine

/-! ### Coverage (R419) -/

/-- A point of the screen in 1/4096 pixel. -/
abbrev Pt := Int × Int

/-- Place of sample s of pixel (x, y) with S samples a pixel. -/
def samplePt (smp x y s : Nat) : Pt :=
  let o : Nat × Nat := if smp = 1 then (2048, 2048) else match s with
    | 0 => (1536, 512)
    | 1 => (3584, 1536)
    | 2 => (512, 2560)
    | _ => (2560, 3584)
  (((4096 * x + o.1 : Nat) : Int), ((4096 * y + o.2 : Nat) : Int))

/-- E of the edge from a to b at p. -/
def edgeE (a b p : Pt) : Int := (b.1 - a.1) * (p.2 - a.2) - (b.2 - a.2) * (p.1 - a.1)

/-- Whether an edge takes a point: E is positive, or zero on an edge of the tie rule. -/
def edgeIn (a b p : Pt) : Bool :=
  let e := edgeE a b p
  decide (0 < e) || (decide (e = 0) && (decide (b.2 - a.2 < 0) || (decide (b.2 - a.2 = 0) && decide (0 < b.1 - a.1))))

/-- Whether a triangle of positive A takes a point. -/
def triIn (a b c p : Pt) : Bool := edgeIn a b p && edgeIn b c p && edgeIn c a p

/-- Whether a triangle of either orientation takes a point. -/
def triIn' (a b c p : Pt) : Bool := if edgeE a b c < 0 then triIn a c b p else triIn a b c p

/-- A vertex's place. -/
def vtxPt (v : SVtx) : Pt := (v.x, v.y)

/-- POINT_SIZE or LINE_WIDTH; 0 acts as 16, one pixel. -/
def primSize (p : GeoPass) (lo : Nat) : Int := ((128 * if passFld p 10 lo 16 = 0 then 16 else passFld p 10 lo 16 : Nat) : Int)

/-- Whether the minor axis of a line is y. -/
def lineMinorY (a b : SVtx) : Bool := decide ((b.y - a.y).natAbs ≤ (b.x - a.x).natAbs)

/-- Whether a primitive covers a point of the screen. -/
def primIn (p : GeoPass) (q : Prim) (t : Pt) : Bool :=
  match q.vs with
  | [a, b, c] => triIn' (vtxPt a) (vtxPt b) (vtxPt c) t
  | [a, b] =>
    let h := primSize p 16
    let off := fun (v : SVtx) (k : Int) => if lineMinorY a b then (v.x, v.y + k) else (v.x + k, v.y)
    triIn' (off a (-h)) (off b (-h)) (off b h) t || triIn' (off a (-h)) (off b h) (off a h) t
  | [a] =>
    let h := primSize p 0
    decide (a.x - h ≤ t.1) && decide (t.1 < a.x + h) && decide (a.y - h ≤ t.2) && decide (t.2 < a.y + h)
  | _ => false

/-- Whether a pixel lies in the render area and in the scissor rectangle. -/
def pixelIn (p : GeoPass) (x y : Nat) : Bool :=
  decide (x < passWidth p) && decide (y < passHeight p) && decide (passFld p 9 0 16 ≤ x) && decide (x < passFld p 9 32 16) &&
    decide (passFld p 9 16 16 ≤ y) && decide (y < passFld p 9 48 16)

/-- The covered samples of a pixel, as a mask. -/
def pixelCover (p : GeoPass) (q : Prim) (x y : Nat) : Nat :=
  if pixelIn p x y then
    (List.range (passSamples p)).foldl (fun m s => if primIn p q (samplePt (passSamples p) x y s) then m + 2 ^ s else m) 0
  else 0

/-! ### Interpolation (R420) -/

/-- The exact value of a finite FP32 word. -/
def wordRat (w : Word) : Option Rat :=
  match fv w with
  | .num neg m e =>
    let (n, d) := scaleFrac m 1 e
    let x : Rat := (n : Rat) / (d : Rat)
    some (if neg then -x else x)
  | _ => none

/-- An exact value rounded once to FP32. -/
def ratWord (x : Rat) : Word := BitVec.ofNat 32 (fpRoundFrac fp32 0 (decide (x < 0)) x.num.natAbs x.den)

/-- Weighted values summed exactly; none when one of them is not finite. -/
def weighSum : List (Rat × Word) → Option Rat
  | [] => some 0
  | (w, v) :: l => match wordRat v, weighSum l with
    | some x, some y => some (w * x + y)
    | _, _ => none

/-- A triangle's vertices with the first kept and A positive. -/
def triOrder (q : Prim) : List SVtx :=
  match q.vs with
  | [a, b, c] => if triA a b c < 0 then [a, c, b] else [a, b, c]
  | vs => vs

/-- The barycentric values of a triangle or line at a point: e_i of a triangle, or 1 - tau and tau of a line. -/
def primBary (q : Prim) (t : Pt) : List Rat :=
  match triOrder q with
  | [a, b, c] => [(edgeE (vtxPt b) (vtxPt c) t : Rat), (edgeE (vtxPt c) (vtxPt a) t : Rat), (edgeE (vtxPt a) (vtxPt b) t : Rat)]
  | [a, b] =>
    let dx := b.x - a.x
    let dy := b.y - a.y
    let u : Rat := (((t.1 - a.x) * dx + (t.2 - a.y) * dy : Int) : Rat) / ((dx * dx + dy * dy : Int) : Rat)
    let u := max 0 (min 1 u)
    [1 - u, u]
  | _ => []

/-- A quotient rounded once; none where it has no value. -/
def quotWord (n d : Option Rat) : Option Word :=
  match n, d with
  | some n, some d => if d = 0 then none else some (ratWord (n / d))
  | _, _ => none

/-- Varying k of a primitive at a point; none where the spec states no value. -/
def varyAt (p : GeoPass) (q : Prim) (k : Nat) (t : Pt) : Option Word :=
  let at' := fun (v : SVtx) => (v.vary[k]?).getD 0
  if (passFld p 35 0 32).testBit k ∨ q.vs.length = 1 then some (at' q.prov)
  else
    let ws := (primBary q t).zip (triOrder q)
    let w := ws.map fun x => match wordRat x.2.rw1 with
      | some r => some (x.1 * r)
      | none => none
    if w.any Option.isNone then none
    else
      let w := w.map fun x => x.getD 0
      quotWord (weighSum (w.zip ((triOrder q).map at'))) (some (w.foldl (· + ·) 0))

/-- Depth of a primitive at a point; a line takes it in screen space, as a triangle does. -/
def depthAt (q : Prim) (t : Pt) : Option Word :=
  if q.vs.length = 1 then some q.prov.z
  else
    let ws := primBary q t
    quotWord (weighSum (ws.zip ((triOrder q).map SVtx.z))) (some (ws.foldl (· + ·) 0))

/-- A value, or a free one where the spec states none (log entry 62). -/
def orFree (s : State) (v : Option Word) : State × Word :=
  match v with
  | some w => (s, w)
  | none => let (k, s) := drawFree s; (s, Config.freeWord k)

/-! ### Tests (R424, R425) -/

/-- A comparison of R424 on two FP32 words. -/
def depthPass (f : Nat) (z d : Word) : Bool :=
  let a := fv z
  let b := fv d
  let nan := fvNan a || fvNan b
  match f with
  | 0 => false
  | 1 => !nan && fvLt a b
  | 2 => !nan && fvEq a b
  | 3 => !nan && !fvLt b a
  | 4 => !nan && fvLt b a
  | 5 => nan || !fvEq a b
  | 6 => !nan && !fvLt a b
  | _ => true

/-- The same comparison on stencil values. -/
def stencilPass (f a b : Nat) : Bool :=
  match f with
  | 0 => false
  | 1 => decide (a < b)
  | 2 => decide (a = b)
  | 3 => decide (a ≤ b)
  | 4 => decide (b < a)
  | 5 => decide (a ≠ b)
  | 6 => decide (b ≤ a)
  | _ => true

/-- A stencil operation on a stored value (R425). -/
def stencilOp (op ref v : Nat) : Nat :=
  match op with
  | 0 => v
  | 1 => 0
  | 2 => ref
  | 3 => min 255 (v + 1)
  | 4 => v - 1
  | 5 => 255 - v
  | 6 => (v + 1) % 256
  | _ => (v + 255) % 256

/-- A value written under a mask. -/
def maskedByte (m new old : Nat) : Nat := (new &&& m) ||| (old &&& (255 - m))

/-- Offset of the element of pixel (x, y) of a tile, sample s, in a plane of b-byte elements (R412). -/
def planeElem (x y s b : Nat) : Nat := ((s * 32 + y) * 32 + x) * b

/-- Reads an element of a tile window; an uncorrectable word is a fault. -/
def tileRead (s : State) (w : Window) (o n : Nat) : State × Except MFault Nat :=
  match winReadLE s w o n with
  | (s, v, none) => (s, .ok v)
  | (s, _, some bad) => (s, .error (sheetBadFault w.cluster bad accLoad (sheetPa w.cluster o true)))

/-- Writes an element of a tile window. -/
def tilePut (s : State) (w : Window) (o n v : Nat) : State := winWrite s w o ((leBytes v n).map some)

/-- The stencil state of a primitive (R408). -/
def stencilState (p : GeoPass) (q : Prim) (lo n : Nat) : Nat := passFld p (if q.back then 39 else 38) lo n

/-- The tests of one sample at (x, y) of a tile with depth z, and their depth and stencil writes; whether both passed. -/
def sampleTest (s : State) (p : GeoPass) (w : Window) (q : Prim) (x y k : Nat) (z : Word) : State × Except MFault Bool :=
  let so := stencilOff p + planeElem x y k 1
  let zo := depthOff p + planeElem x y k 4
  let st := fun (lo n : Nat) => stencilState p q lo n
  let (s, sv) := if passStencil p then tileRead s w so 1 else (s, .ok 0)
  match sv with
  | .error f => (s, .error f)
  | .ok sv =>
    let sp := !passStencil p || stencilPass (st 0 3) (st 12 8 &&& st 20 8) (sv &&& st 20 8)
    let (s, dv) := if passDepth p ∧ sp then tileRead s w zo 4 else (s, .ok 0)
    match dv with
    | .error f => (s, .error f)
    | .ok dv =>
      let zp := !passDepth p || depthPass (passFld p 36 0 3) z (BitVec.ofNat 32 dv)
      let op := if !sp then st 3 3 else if !zp then st 6 3 else st 9 3
      let s := if passStencil p then tilePut s w so 1 (maskedByte (st 28 8) (stencilOp op (st 12 8) sv) sv) else s
      let s := if passDepth p ∧ sp ∧ zp ∧ passFld p 36 3 1 = 1 then tilePut s w zo 4 z.toNat else s
      (s, .ok (sp && zp))

/-! ### Blending (R426, R427) -/

/-- Whether a target is decoded and encoded in sRGB. -/
def tgtSrgb (p : GeoPass) (c : Nat) : Bool := decide (tgtFld p c 1 36 1 = 1)

/-- 1.0. -/
def oneW : Word := 0x3F800000

/-- A blend factor for channel i, 3 being A (R426). -/
def blendFactor (p : GeoPass) (src dst : List Word) (i f : Nat) : Word :=
  let at' := fun (l : List Word) (j : Nat) => (l[j]?).getD 0
  let k : Word := BitVec.ofNat 32 (passFld p (41 + i / 2) (32 * (i % 2)) 32)
  let inv := fSub 0 oneW
  match f with
  | 0 => 0
  | 1 => oneW
  | 2 => at' src i
  | 3 => inv (at' src i)
  | 4 => at' src 3
  | 5 => inv (at' src 3)
  | 6 => at' dst 3
  | 7 => inv (at' dst 3)
  | 8 => at' dst i
  | 9 => inv (at' dst i)
  | 10 => k
  | 11 => inv k
  | _ => if i = 3 then oneW else fMin (at' src 3) (inv (at' dst 3))

/-- The result of channel i of target c (R426). -/
def blendChan (p : GeoPass) (c : Nat) (src dst : List Word) (i : Nat) : Word :=
  let at' := fun (l : List Word) => (l[i]?).getD 0
  if tgtFld p c 2 0 1 = 0 then at' src
  else
    let lo := if i = 3 then 12 else 1
    let sf := fMul 0 (at' src) (blendFactor p src dst i (tgtFld p c 2 lo 4))
    let df := fMul 0 (at' dst) (blendFactor p src dst i (tgtFld p c 2 (lo + 4) 4))
    match tgtFld p c 2 (lo + 8) 3 with
    | 0 => fAdd 0 sf df
    | 1 => fSub 0 sf df
    | 2 => fSub 0 df sf
    | 3 => fMin (at' src) (at' dst)
    | _ => fMax (at' src) (at' dst)

/-- A pixel of a format with the channels of a mask replaced by the encodings of results (R427). -/
def pixEncode (fmt : Nat) (srgb : Bool) (mask old : Nat) (r : List Word) : Nat :=
  let at' := fun (i : Nat) => (r[i]?).getD 0
  let put := fun (v lo n x : Nat) => v - nfld v lo n * 2 ^ lo + x % 2 ^ n * 2 ^ lo
  (List.range 4).foldl (fun v i =>
    if mask.testBit i then
      if fmt = 4 then put v (16 * i) 16 (fNarrow fp16 0 (at' i))
      else match (pixFields fmt)[i]? with
        | some (some (b, n)) => put v b n (unormEncode n (srgb && decide (i < 3)) (fv (at' i)))
        | _ => v
    else v) old

/-- A passing sample's colour reaches target c (R426, R427). -/
def sampleBlend (s : State) (p : GeoPass) (w : Window) (c x y k : Nat) (src : List Word) : State × Except MFault Unit :=
  let fmt := tgtFmt p c
  let b := fmtBytes fmt
  let o := planeOff p c + planeElem x y k b
  match tileRead s w o b with
  | (s, .error f) => (s, .error f)
  | (s, .ok old) =>
    let dst := pixDecode fmt (tgtSrgb p c) old
    let r := (List.range 4).map (blendChan p c src dst)
    (tilePut s w o b (pixEncode fmt (tgtSrgb p c) (tgtFld p c 1 42 4) old r), .ok ())

/-! ### Resolve (R428) -/

/-- The mean of four FP32 words: their exact sum divided by 4, rounded once. -/
def meanWord (vs : List Word) : Word :=
  fw 0 (fvMul (vs.foldl (fun a v => fvAdd 0 a (fv v)) (.num false 0 0)) (.num false 1 (-2)))

/-- The pixel that a RESOLVE makes of samples. -/
def resolvePix (fmt : Nat) (srgb : Bool) (smps : List Nat) : Nat :=
  let ch := smps.map (pixDecode fmt srgb)
  pixEncode fmt srgb 15 0 ((List.range 4).map fun i => meanWord (ch.map fun l => (l[i]?).getD 0))

/-! ### Loads (R413, R414, R429) -/

/-- The requester number of a core's raster back end at other devices. -/
def tileOwner (core : Nat) : Nat := 2 ^ 54 + core

/-- First pixel column and row of a tile. -/
def tileX (p : GeoPass) (t : Nat) : Nat := 32 * (t % max 1 (passTx p))

/-- First pixel row of a tile. -/
def tileY (p : GeoPass) (t : Nat) : Nat := 32 * (t / max 1 (passTx p))

/-- Pixels of a tile row, and rows of a tile, inside the render area. -/
def tileW (p : GeoPass) (t : Nat) : Nat := min 32 (passWidth p - tileX p t)

/-- Rows of a tile inside the render area. -/
def tileH (p : GeoPass) (t : Nat) : Nat := min 32 (passHeight p - tileY p t)

/-- The rows (VA, window offset, bytes) of a target of a tile that lie inside the render area: colour target c, or
depth at 8 and stencil at 9 (R414), for the samples given. -/
def tileRows (p : GeoPass) (t c : Nat) (smps : List Nat) : List (Nat × Nat × Nat) :=
  let b := if c = 8 then 4 else if c = 9 then 1 else fmtBytes (tgtFmt p c)
  let off := if c = 8 then depthOff p else if c = 9 then stencilOff p else planeOff p c
  smps.flatMap fun k => (List.range (tileH p t)).map fun y =>
    let va := if c = 8 then passFld p 37 0 48 + t * 4096 * passSamples p + planeElem 0 y k 4
      else if c = 9 then passFld p 40 0 48 + t * 1024 * passSamples p + planeElem 0 y k 1
      else tgtFld p c 0 0 48 + k * tgtFld p c 1 0 32 * passHeight p + (tileY p t + y) * tgtFld p c 1 0 32 + tileX p t * b
    (va, off + planeElem 0 y k b, tileW p t * b)

/-- A step of work on a tile: the state, or why it stopped. -/
inductive TileRes where
  | ok (s : State)
  | fault (s : State) (f : MFault)
  | wait (s : State)

/-- Steps of work in order, up to the first that stops; one that waits leaves what the earlier ones did. -/
def tileAll {α : Type} (f : State → α → TileRes) : List α → State → TileRes
  | [], s => .ok s
  | a :: l, s => match f s a with
    | .ok s => tileAll f l s
    | r => r

/-- One row of a target is read from memory. -/
def loadRow (slot core : Nat) (w : Window) (s : State) (r : Nat × Nat × Nat) : TileRes :=
  match vaRead s (.unit (tileOwner core)) slot r.1 r.2.2 accLoad with
  | (s, .ok bs) => .ok (winWrite s w r.2.1 (bs.map some))
  | (s, .fault f) => .fault s f
  | (s', .wait) => .wait (retryWait s s')

/-- Place of block i of sample k of a tile among the slots of a compressed target (R429). -/
def packedIdx (p : GeoPass) (t c k i : Nat) : Nat := (t * passSamples p + k) * (fmtBytes (tgtFmt p c) / 4) + i

/-- The 4 KiB blocks (sample, block) of a compressed target's tile. -/
def packedBlocks (p : GeoPass) (c : Nat) (smps : List Nat) : List (Nat × Nat) :=
  smps.flatMap fun k => (List.range (fmtBytes (tgtFmt p c) / 4)).map fun i => (k, i)

/-- One block of a compressed target is unpacked into the tile window (R429, R506). -/
def loadBlock (p : GeoPass) (slot core t c : Nat) (w : Window) (s : State) (b : Nat × Nat) : TileRes :=
  let n := packedIdx p t c b.1 b.2
  let who := Agent.unit (tileOwner core)
  let va := tgtFld p c 0 0 48 + 4096 * n
  match cmpAcquire s (.tile p.id t false) with
  | (s, none) => .wait s
  | (s, some i) =>
    match cmpUnpack s i (tileOwner core) slot (fun s => vaRead s who slot (tgtFld p c 4 0 64 + 4 * n) 4 accLoad)
        (fun s k => vaRead s who slot va k accLoad) (fun s => paOf s slot va)
        (fun s bs => (winWrite s w (planeOff p c + b.1 * 1024 * fmtBytes (tgtFmt p c) + 4096 * b.2) (bs.map some), .ok ())) with
    | (s, .fault f) => .fault s f
    | (s, .wait) => .wait s
    | (s, .ok bad) => .ok (if bad then
        onPass s p.id fun g => { g with badBlocks := g.badBlocks + 1, badTile := if g.badBlocks = 0 then t else min g.badTile t }
      else s)

/-- All elements of a plane are set to a value (CLEAR). -/
def clearPlane (s : State) (w : Window) (off b n v : Nat) : State :=
  winWrite s w off ((List.replicate n ((leBytes v b).map some)).flatten)

/-- Whether a pass races and c is its colour target 0: it has no place in memory (R418). -/
def raceTarget (s : State) (p : GeoPass) (c : Nat) : Bool := descRace (descOf s p.id) && decide (c = 0)

/-- A piece of a tile's load operations. -/
inductive LoadPiece where
  /-- n elements of b bytes at a window offset take a value. -/
  | clear (off b n v : Nat)
  /-- A row (VA, window offset, bytes) of a target. -/
  | row (va off n : Nat)
  /-- Block i of sample k of compressed target c. -/
  | block (c k i : Nat)
deriving DecidableEq, Repr

/-- The pieces of a target's rows. -/
def rowLoads (p : GeoPass) (t c : Nat) : List LoadPiece :=
  (tileRows p t c (List.range (passSamples p))).map fun r => .row r.1 r.2.1 r.2.2

/-- The load operation of colour target c (R413); the strip ring is not read (DEDUCED from R418, log entry 63). -/
def colourLoads (s : State) (p : GeoPass) (t c : Nat) : List LoadPiece :=
  match tgtFld p c 1 37 2 with
  | 0 => [.clear (planeOff p c) (fmtBytes (tgtFmt p c)) (1024 * passSamples p) (tgtFld p c 3 0 64)]
  | 1 =>
    if raceTarget s p c then []
    else if tgtFld p c 1 41 1 = 1 then (packedBlocks p c (List.range (passSamples p))).map fun b => .block c b.1 b.2
    else rowLoads p t c
  | _ => []

/-- The load operation of the depth buffer, 8, or the stencil buffer, 9. -/
def dsLoads (p : GeoPass) (t c : Nat) : List LoadPiece :=
  let n := 1024 * passSamples p
  match if c = 8 then passFld p 36 4 2 else passFld p 40 48 2 with
  | 0 => [if c = 8 then .clear (depthOff p) 4 n (passFld p 36 32 32) else .clear (stencilOff p) 1 n (passFld p 40 52 8)]
  | 1 => rowLoads p t c
  | _ => []

/-- The load operations of a tile job, in order. -/
def loadPieces (s : State) (p : GeoPass) (t : Nat) : List LoadPiece :=
  (List.range (passNcol p)).flatMap (colourLoads s p t) ++
    (if passDepth p then dsLoads p t 8 else []) ++ if passStencil p then dsLoads p t 9 else []

/-- One piece of a tile's load operations. -/
def loadPiece (p : GeoPass) (j : TileJob) (s : State) (x : LoadPiece) : TileRes :=
  let slot := descSlot (descOf s p.id)
  match x with
  | .clear off b n v => .ok (clearPlane s j.window off b n v)
  | .row va off n => loadRow slot j.core j.window s (va, off, n)
  | .block c k i => loadBlock p slot j.core j.tile c j.window s (k, i)

end Sys2Proof.Machine
end

