-- ==== Sys2Proof/Machine/Race.lean ====
section
/-!
DEFINITION. Strip rings (spec/15_race_rendering.md): the checks of an enable and of a hand-over, the frames that race
passes are shown in, deadlines and substitution, read windows, strip digest entries; and what a lost cluster does.
-/

namespace Sys2Proof.Machine

/-! ### Outputs -/

/-- The state with the DSP changed. -/
def onDsp (s : State) (f : Dsp → Dsp) : State := { s with dsp := f s.dsp }

/-- Output m. -/
def outOf (s : State) (m : Nat) : OutState := (s.dsp.outs[m]?).getD {}

/-- The state with output m changed. -/
def onOut (s : State) (m : Nat) (f : OutState → OutState) : State := onDsp s fun d => { d with outs := modAt d.outs m f }

/-! ### Ring registers (R449) -/

/-- ENABLE. -/
def sringOn (s : State) (n : Nat) : Bool := decide (rdF s (Reg.sringCfg n) 0 1 = 1)

/-- TG. -/
def sringTg (s : State) (n : Nat) : Nat := rdF s (Reg.sringCfg n) 1 2

/-- FMT. -/
def sringFmt (s : State) (n : Nat) : Nat := rdF s (Reg.sringCfg n) 4 3

/-- DEPTH. -/
def sringDepth (s : State) (n : Nat) : Nat := rdF s (Reg.sringCfg n) 8 4

/-- TPS. -/
def sringTps (s : State) (n : Nat) : Nat := rdF s (Reg.sringCfg n) 16 8

/-- WIDTH. -/
def sringW (s : State) (n : Nat) : Nat := rdF s (Reg.sringSize n) 0 13

/-- HEIGHT. -/
def sringH (s : State) (n : Nat) : Nat := rdF s (Reg.sringSize n) 16 12

/-- Y0. -/
def sringY (s : State) (n : Nat) : Nat := rdF s (Reg.sringY0 n) 0 12

/-- NS (R433). -/
def sringNs (s : State) (n : Nat) : Nat := ceilDiv (sringH s n) 32

/-- Bytes of a slot, and the sheet offset of slot k (R435). -/
def sringSlot (s : State) (n k : Nat) : Nat :=
  rdF s (Reg.sringCfg n) 24 6 * 65536 + k * (sringTps s n * 1024 * fmtBytes (sringFmt s n))

/-- Lines of strip k (R433). -/
def stripLines (s : State) (n k : Nat) : Nat := min 32 (sringH s n - 32 * k)

/-! ### Frames and windows (R434, R440) -/

/-- Whether frame a is at or after frame b. -/
def frameGe (a b : Nat) : Bool := decide ((a + 2 ^ 32 - b % 2 ^ 32) % 2 ^ 32 < 2 ^ 31)

/-- Whether TG_m line l, counted from line 0 of the frame of a pass, has begun. A pass that is not yet in its frame
looks ahead from the frame before, once the next frame event can be that of its frame (log entry 64). -/
def passLine (s : State) (m : Nat) (p : RacePass) (l : Int) : Bool :=
  let o := outOf s m
  if p.past then true
  else if p.begun then decide (l ≤ (o.line : Int))
  else o.running && decide (l < 0) && decide (l + tgVtotal s m ≤ (o.line : Int)) && frameGe (ltFrameOf (ltNow s) + 1) p.fshow

/-- The first line of the read window of strip k, in lines of the pass's frame. -/
def windowFrom (s : State) (n k : Nat) : Int := ((sringY s n + 32 * k : Nat) : Int) - 2

/-- The line at which the read window of strip k ends. -/
def windowTo (s : State) (n k : Nat) : Int := windowFrom s n k + (stripLines s n k : Nat)

/-- The state with a pass of a ring changed. -/
def onRacePass (s : State) (n : Nat) (id : DescId) (f : RacePass → RacePass) : State :=
  onRace s n fun r => { r with passes := r.passes.map fun p => if p.id = id then f p else p }

/-- The state with a strip changed. -/
def onStrip (s : State) (n : Nat) (id : DescId) (k : Nat) (f : Strip → Strip) : State :=
  onRacePass s n id fun p => { p with strips := modAt p.strips k f }

/-- Whether every tile of a strip has been stored into its slot (R443). -/
def stripReady (s : State) (n : Nat) (p : RacePass) (st : Strip) : Bool :=
  !p.superseded && !p.discarded && !st.spoiled && decide (st.homes.length = ceilDiv (sringW s n) 32)

/-- Strips count as substituted (R443). -/
def noteSubst (s : State) (n count : Nat) : State :=
  if count = 0 then s else setEv (satInc s (Reg.sringSubst n) count) Reg.dspRaceEvents n

/-- Decides the strips of a pass whose deadlines have come; those of a superseded or discarded pass, and of one handed
over too late, are substituted already. -/
def passDeadlines (s : State) (n : Nat) (p : RacePass) : State :=
  (List.range p.strips.length).foldl (fun s k =>
    let st := (p.strips[k]?).getD {}
    if !st.deadline && passLine s (sringTg s n) p (windowFrom s n k) then
      let ok := st.shown.getD (stripReady s n p st)
      noteSubst (onStrip s n p.id k fun x => { x with deadline := true, shown := some ok }) n (b2n (st.shown.isNone && !ok))
    else s) s

/-- Every strip of a ring whose deadline has come is decided. -/
def stripDeadlines (s : State) (n : Nat) : State :=
  if tgEnabled s (sringTg s n) then (raceRing s n).passes.foldl (fun s p => passDeadlines s n p) s else s

/-! ### Digest entries (R448) -/

/-- Tile columns of a pass; none once it has left the raster back ends. -/
def passCols (s : State) (id : DescId) : Nat := ((passOf s id).map passTx).getD 0

/-- D0 and D1 of strip k. SUBST is that of R443, which a superseded pass's strips do not come to (R441). -/
def stripEntry (p : RacePass) (st : Strip) : List Byte :=
  leBytes st.digest.toNat 8 ++ leBytes (p.fshow % 2 ^ 32 + 2 ^ 32 * b2n (decide (st.shown = some false) && !p.superseded) +
    2 ^ 33 * b2n st.fallFrom.isSome + 2 ^ 34 * b2n p.superseded) 8

/-- Where the entry of strip k lies. -/
def stripEntryAddr (s : State) (n : Nat) (p : RacePass) (k : Nat) : Nat := (raceRing s n).digest + 16 * (k + sringNs s n * (p.fshow % 2))

/-- Writes bytes to LOCAL DRAM for the DSP or CAM, beside the L2 (R33); beyond the usable capacity nothing is written. -/
def dspWrite (s : State) (pa : Nat) (bs : List Byte) : State :=
  if pa + bs.length ≤ usable s then dramWrite s pa (bs.map some) else s

/-- Whether two strip digest entries of the twins differ in a way that counts (R558). -/
def stripDiffers (s : State) (a b : DWord × Bool) : Bool :=
  decide (a.1 ≠ b.1) && !((a.2 || b.2) && bit (rd0 s Reg.hltTwinStatus) 7)

/-- Compares the two twins' entries of one strip and frame, if both are held (R558). -/
def stripCompare (s : State) (n f k : Nat) : State :=
  let same := fun (e : Nat × Nat × Nat × DWord × Bool) => decide (e.1 = n) && decide (e.2.1 = f) && decide (e.2.2.1 = k)
  match s.twin.ownStrips.find? same, s.twin.peerStrips.find? same with
  | some a, some b =>
    let rest := fun (l : List (Nat × Nat × Nat × DWord × Bool)) => l.filter fun e => !same e
    let s' := { s with twin := { s.twin with ownStrips := rest s.twin.ownStrips, peerStrips := rest s.twin.peerStrips } }
    if stripDiffers s a.2.2.2 b.2.2.2 then setEv (satInc s' Reg.hltStripMismatches 1) Reg.hltTwinEvents 5 else s'
  | _, _ => s

/-- The STRIP record of a digest entry, and its comparison (R558, R559). -/
def stripNote (s : State) (n : Nat) (p : RacePass) (k : Nat) (dg : DWord) : State :=
  if twinLinked s && bit (rd0 s Reg.hltTwinDisp) (4 + sringTg s n) then
    let f := p.fshow % 2 ^ 32
    let s := sendCtrl s [recW0 11 0 (n % 16 + 16 * b2n p.mapSens), BitVec.ofNat 64 (f + k % 2 ^ 16 * 2 ^ 32), dg]
    stripCompare { s with twin := { s.twin with ownStrips := s.twin.ownStrips ++ [(n, f, k, dg, p.mapSens)] } } n f k
  else s

/-- Writes the entries of a pass that are due: the strip's deadline has passed, and it is released. -/
def passEntries (s : State) (n : Nat) (p : RacePass) : State :=
  (List.range p.strips.length).foldl (fun s k =>
    let st := (p.strips[k]?).getD {}
    if !st.entry && st.deadline && stripReleased s n p k (passCols s p.id) then
      let s := onStrip s n p.id k fun x => { x with entry := true }
      if (raceRing s n).digest = 0 then s
      else stripNote (dspWrite s (stripEntryAddr s n p k) (stripEntry p st)) n p k st.digest
    else s) s

/-- Read windows that have ended, entries that are due; and passes with nothing left go. -/
def ringSettle (s : State) (n : Nat) : State :=
  let m := sringTg s n
  let endOf := fun (p : RacePass) (e : Strip × Nat) =>
    if e.1.deadline && passLine s m p (windowTo s n e.2) then { e.1 with windowEnded := true } else e.1
  let ends := fun (p : RacePass) => { p with strips := p.strips.zipIdx.map (endOf p) }
  let s := if tgEnabled s m then onRace s n fun r => { r with passes := r.passes.map ends } else s
  let s := (raceRing s n).passes.foldl (fun s p => passEntries s n p) s
  onRace s n fun r => { r with passes := r.passes.filter fun p => !(p.finished && p.past && p.strips.all Strip.entry) }

/-! ### Hand-over (R439 to R441) -/

/-- Causes 100 and 101 of R439, for a race pass. -/
def raceCauses (s : State) (d : Desc) (p : GeoPass) : List (Nat × Bool) :=
  let n := descStripRing d
  [(100, !descGated d),
   (101, decide (passWidth p ≠ sringW s n ∨ passHeight p ≠ sringH s n ∨ tgtFmt p 0 ≠ sringFmt s n))]

/-- The refusal of R439, if the ring cannot take the pass. -/
def raceRefusal (s : State) (d : Desc) (p : GeoPass) : Option Result :=
  let n := descStripRing d
  let c := (clustersInService s).length
  let need := ceilDiv (passTx p) (max 1 c)
  let bytes := fun (t : Nat) => sringDepth s n * t * 1024 * fmtBytes (sringFmt s n)
  if !sringOn s n then some { status := 0x12, detail := 0 }
  else if sringTps s n < need then some { status := 0x12, detail := bytes need % 2 ^ 32 + bytes (sringTps s n) % 2 ^ 32 * 2 ^ 32 }
  else none

/-- A race pass is handed over: its frame is bound (R440, R441). -/
def raceHandover (s : State) (d : Desc) : State :=
  let n := descStripRing d
  let m := sringTg s n
  let r := raceRing s n
  let f := ltFrameOf d.gate
  let sup := match r.lastShow with
    | some g => !(frameGe f g && decide (f ≠ g))
    | none => false
  let o := outOf s m
  let at' := fun (t : Option Nat) => match t with
    | some t => tgEnabled s m && frameGe t f
    | none => false
  let late := !sup && at' o.tag && at' o.prevTag
  let lost := sup || late
  let strips : List Strip := List.replicate (sringNs s n) { shown := if lost then some false else none }
  let p : RacePass := { id := d.id, fshow := f, superseded := sup, strips := strips, mapSens := descMapSens d
                        begun := at' o.tag, past := at' o.tag && at' o.prevTag }
  let s := wrN (onRace s n fun r => { r with passes := r.passes ++ [p], lastShow := some f }) (Reg.sringShown n) f
  stripDeadlines (if late then noteSubst s n (sringNs s n) else s) n

/-! ### Frames of TG_m (R440, R441, R445) -/

/-- Settings of a ring that take effect at a frame event. -/
def ringApply (s : State) (n : Nat) : State :=
  onRace s n fun r => { r with
    fbEn := decide (rdF s (Reg.sringCfg n) 3 1 = 1), fbPitch := rdN s (Reg.sringFbPitch n)
    fb := rd64 s (Reg.sringFbLo n) % 2 ^ 48, digest := rd64 s (Reg.sringDigestLo n) % 2 ^ 48 }

/-- The pass that a ring shows in the present frame: the last one handed over for it (R440, R441). -/
def ringShown (s : State) (n : Nat) : Option RacePass :=
  (raceRing s n).passes.reverse.find? fun p => p.begun && !p.past && !p.superseded && !p.discarded

/-- A ring at a frame event of its TG: the frame that ends counts as empty when it showed no pass, its passes are
past, and those whose frame begins are shown, but for superseded and discarded ones. -/
def ringFrame (m : Nat) (s : State) (n : Nat) : State :=
  if sringTg s n ≠ m then s
  else
    let s := ringApply s n
    let s := stripDeadlines s n
    let o := outOf s m
    let showed := (ringShown s n).isSome
    let s := if sringOn s n && o.prevTag.isSome && !showed then satInc s (Reg.sringEmpty n) 1 else s
    let s := onRace s n fun r => { r with passes := r.passes.map fun p => if p.begun then { p with past := true } else p }
    let f := fun (p : RacePass) =>
      if !p.begun && !p.past && (match o.tag with
        | some t => frameGe t p.fshow
        | none => false) then { p with begun := true } else p
    ringSettle (stripDeadlines (onRace s n fun r => { r with passes := r.passes.map f }) n) n

/-- The rings of an output at its frame event; the new frame's tag has been taken. -/
def raceFrame (s : State) (m : Nat) : State := (List.range 16).foldl (ringFrame m) s

/-- The rings of an output at the start of a line: read windows end. -/
def raceLine (s : State) (m : Nat) : State :=
  (List.range 16).foldl (fun s n => if sringTg s n = m then ringSettle s n else s) s

/-! ### Enable and disable (R437, R438) -/

/-- Whether an enable of ring n with the configuration stored is refused. -/
def sringBad (s : State) (n : Nat) : Bool :=
  let b := fmtBytes (sringFmt s n)
  let pitch := rdN s (Reg.sringFbPitch n)
  let fb := rd64 s (Reg.sringFbLo n) % 2 ^ 48
  decide (4 < sringFmt s n) || decide (sringDepth s n < 2 ∨ 8 < sringDepth s n ∨ sringTps s n = 0) ||
    decide (sringW s n = 0 ∨ 4096 < sringW s n ∨ sringH s n = 0 ∨ 2400 < sringH s n) ||
    (decide (rdF s (Reg.sringCfg n) 3 1 = 1) && decide (pitch < sringW s n * b ∨ usable s < fb + sringH s n * pitch)) ||
    (clustersInService s).any fun c => decide (streamOf s c * 65536 < sringSlot s n (sringDepth s n))

/-- A ring is disabled: undecided strips are substituted and its passes' stores discarded (R438). -/
def sringStop (s : State) (n : Nat) : State :=
  let undecided := ((raceRing s n).passes.map fun p =>
    (p.strips.filter fun st => st.shown.isNone).length).foldl (· + ·) 0
  let f := fun (p : RacePass) => { p with
    discarded := true
    strips := p.strips.map fun st => if st.shown.isNone then { st with shown := some false } else st }
  ringSettle (noteSubst (onRace s n fun r => { r with passes := r.passes.map f }) n undecided) n

/-- A write of SRING_n_CFG (R437, R438, R449). -/
def sringCfgWrite (s : State) (n : Nat) (v : Word) : State :=
  let v := v &&& 0x3FFF0F7F
  if sringOn s n then
    let s' := wr s (Reg.sringCfg n) ((rd s (Reg.sringCfg n) &&& ~~~ (9 : Word)) ||| (v &&& 9))
    if bit v 0 then s' else sringStop s' n
  else
    let s := wr s (Reg.sringCfg n) (v &&& ~~~ (1 : Word))
    if !bit v 0 then s
    else if sringBad s n then setEv s Reg.dspRaceEvents (16 + n)
    else onRace (wr s (Reg.sringCfg n) v) n fun r => { r with slots := List.replicate 8 none }

/-! ### Reading strips (R434, R444) -/

/-- A shown strip reads the fallback from image line j on (R444). -/
def stripLost (s : State) (n : Nat) (p : RacePass) (k j : Nat) : State :=
  let s := setEv (satInc s (Reg.sringEccSubst n) 1) Reg.dspRaceEvents n
  let s := onStrip s n p.id k fun st => { st with fallFrom := some j }
  match racePass (raceRing s n) p.id with
  | some p =>
    let st := (p.strips[k]?).getD {}
    if st.entry ∧ (raceRing s n).digest ≠ 0 then dspWrite s (stripEntryAddr s n p k) (stripEntry p st) else s
  | none => s

/-! ### Live words -/

/-- SRING_n_STATUS: ACTIVE while the ring is enabled, PENDING while a handed-over pass is not yet shown. -/
def raceRegRead (s : State) (off : Nat) : Option Word :=
  match (List.range 16).find? fun n => decide (off = Reg.sringStatus n) with
  | some n => some (BitVec.ofNat 32 (b2n (sringOn s n) +
      2 * b2n ((raceRing s n).passes.any fun p => !p.begun && !p.past && !p.superseded && !p.discarded)))
  | none => none

end Sys2Proof.Machine
end

