-- ==== Sys2Proof/Machine/Dsp.lean ====
section
/-!
DEFINITION. Plane and scaler maps, shadow registers, COMMIT and its latch, the judgment of planes, and SCALER_LOAD
(spec/16_composition.md R451 to R458, R463 to R465, R471 to R476).
-/

namespace Sys2Proof.Machine

/-! ### Maps (R451, R452) -/

/-- The output of plane p, if it is mapped. -/
def planeOut (s : State) (p : Nat) : Option Nat :=
  let v := rdF s (if p < 8 then Reg.dspPlaneMap0 else Reg.dspPlaneMap1) (4 * (p % 8)) 4
  if v < 4 then some v else none

/-- The output of scaler k, if it is mapped. -/
def scalerOut (s : State) (k : Nat) : Option Nat :=
  let v := rdF s Reg.dspScalerMap (4 * k) 4
  if v < 4 then some v else none

/-- Active ENABLE of plane p. -/
def planeEn (s : State) (p : Nat) : Bool := bit (rd s (Reg.planeCfg p)) 0

/-- Whether plane p is enabled, mapped and selects scaler k. -/
def planeUses (s : State) (p k : Nat) : Bool :=
  planeEn s p && decide (rdF s (Reg.planeCfg p) 24 2 = 2) && decide (rdF s (Reg.planeCfg p) 26 3 = k)

/-- Descriptors of a queue that the DSP still holds. -/
def dspHeld (s : State) (ids : List DescId) : List DescId :=
  ids.filter fun id => match findDesc s id with
    | some d => decide (d.stage = .dispatched)
    | none => false

/-- The descriptor that output m executes: the first one that it holds and that is not armed (R471). -/
def outHead (s : State) (m : Nat) : Option DescId :=
  (dspHeld s (outOf s m).queue).find? fun id => decide (some id ≠ (outOf s m).armed)

/-- The name, of no descriptor, of an armed COMMIT whose watchdog has retired it (R153, R165). -/
def orphanId : DescId := { ring := 64, seq := 0 }

/-- How many descriptors output m holds, an armed COMMIT of a retired descriptor among them. -/
def outQueued (s : State) (m : Nat) : Nat :=
  (dspHeld s (outOf s m).queue).length + b2n (decide ((outOf s m).armed = some orphanId))

/-- The COMMIT that output m holds armed. -/
def outArmed (s : State) (m : Nat) : Option DescId :=
  match (outOf s m).armed with
  | some id => if decide (id ≠ orphanId) && (dspHeld s [id]).isEmpty then none else some id
  | none => none

/-- Whether the head of output m is a COMMIT in its write phase. -/
def outWriting (s : State) (m : Nat) : Bool :=
  (outOf s m).writing && (match outHead s m with
    | some id => decide (descOp (descOf s id) = 0x10)
    | none => false)

/-- Whether an output holds a COMMIT in its write phase or armed. -/
def outBusy (s : State) (m : Option Nat) : Bool :=
  match m with
  | some m => outWriting s m || (outArmed s m).isSome
  | none => false

/-- A map word with the fields of v that may change; the others stay. -/
def mapFields (old v : Word) (keep : Nat → Bool) : Word :=
  (List.range 8).foldl (fun w q => if keep q then w else setFld w (4 * q) 4 (fld v (4 * q) 4)) old

/-- The output that a map field names. -/
def mapField (v : Word) (q : Nat) : Option Nat := if fld v (4 * q) 4 < 4 then some (fld v (4 * q) 4) else none

/-- A write of a map word: fields that may not change keep their value, and MAP_REFUSED is set (R452). -/
def mapWrite (s : State) (reg : Nat) (v : Word) (blocked : Nat → Bool) : State :=
  let old := rd s reg
  let keep := fun (q : Nat) => decide (fld v (4 * q) 4 ≠ fld old (4 * q) 4) && blocked q
  let s' := wr s reg (mapFields old v keep)
  if (List.range 8).any keep then setEv s' Reg.dspEvents 9 else s'

/-- A write of DSP_PLANE_MAP_k (R452). -/
def planeMapWrite (s : State) (k : Nat) (v : Word) : State :=
  mapWrite s (Reg.dspPlaneMap0 + 4 * k) v fun q =>
    planeEn s (8 * k + q) || outBusy s (planeOut s (8 * k + q)) || outBusy s (mapField v q)

/-- A write of DSP_SCALER_MAP (R452). -/
def scalerMapWrite (s : State) (v : Word) : State :=
  mapWrite s Reg.dspScalerMap v fun q => (List.range 16).any fun p => planeUses s p q

/-! ### Shadow registers (R453) -/

/-- What an S register belongs to. -/
inductive ShadowHome where
  | out (m : Nat)
  | plane (p : Nat)
deriving DecidableEq, Repr

/-- Offsets of the S registers of an output. -/
def outShadows (m : Nat) : List Nat := (List.range 8).map fun i => Reg.outBgRg m + 4 * i

/-- Offsets of the S registers of a plane. -/
def planeShadows (p : Nat) : List Nat := (List.range 13).map fun i => Reg.planeCfg p + 4 * i

/-- What the S register at a BAR0 offset belongs to; none where no S register lies. -/
def shadowHome (a : Nat) : Option ShadowHome :=
  if Reg.outBgRg 0 ≤ a ∧ a < Reg.outBgRg 4 then
    if (outShadows ((a - Reg.outBgRg 0) / 0x100)).contains a then some (.out ((a - Reg.outBgRg 0) / 0x100)) else none
  else if Reg.planeCfg 0 ≤ a ∧ a < Reg.planeCfg 16 then
    if (planeShadows ((a - Reg.planeCfg 0) / 0x80)).contains a then some (.plane ((a - Reg.planeCfg 0) / 0x80)) else none
  else none

/-- Whether the S register at an offset is a shadow register of output m. -/
def shadowOf (s : State) (m a : Nat) : Bool :=
  match shadowHome a with
  | some (.out k) => decide (k = m)
  | some (.plane p) => decide (planeOut s p = some m)
  | none => false

/-- The planes that are mapped to output m. -/
def planesOn (s : State) (m : Nat) : List Nat := (List.range 16).filter fun p => decide (planeOut s p = some m)

/-- The shadow registers of output m. -/
def shadowsOf (s : State) (m : Nat) : List Nat := outShadows m ++ (planesOn s m).flatMap planeShadows

/-- The bits of the register at an offset that a write changes (R16). -/
def regRwMask (a : Nat) : Word :=
  match regFind a with
  | some (r, _, _) => BitVec.ofNat 32 r.rw
  | none => 0

/-- The shadow copy of an S register. -/
def shadowGet (s : State) (a : Nat) : Word := storeGet regReset s.dsp.shadow a

/-- A write of a shadow copy. -/
def shadowPut (s : State) (a : Nat) (v : Word) : State :=
  onDsp s fun d => { d with shadow := storePut regReset d.shadow a (v &&& regRwMask a) }

/-! ### Planes (R454 to R457, R463 to R465) -/

/-- The active registers of plane p. -/
def planeOf (s : State) (p : Nat) : PlaneCfg :=
  { p := p, cfg := rd s (Reg.planeCfg p), addr0 := rd64 s (Reg.planeAddr0Lo p), addr1 := rd64 s (Reg.planeAddr1Lo p)
    pitch := rd s (Reg.planePitch p), srcPos := rd s (Reg.planeSrcPos p), srcSize := rd s (Reg.planeSrcSize p)
    dstPos := rd s (Reg.planeDstPos p), dstSize := rd s (Reg.planeDstSize p), alpha := rd s (Reg.planeAlpha p)
    constRg := rd s (Reg.planeConstRg p), constB := rd s (Reg.planeConstB p) }

/-- FMT. -/
def plFmt (c : PlaneCfg) : Nat := fld c.cfg 4 4
/-- SRC_RING. -/
def plIsRing (c : PlaneCfg) : Bool := bit c.cfg 8
/-- RING. -/
def plRing (c : PlaneCfg) : Nat := fld c.cfg 9 4
/-- SCALE_MODE, 3 acting as 1. -/
def plMode (c : PlaneCfg) : Nat := if fld c.cfg 24 2 = 3 then 1 else fld c.cfg 24 2
/-- SCALER. -/
def plScaler (c : PlaneCfg) : Nat := fld c.cfg 26 3
/-- SX. -/
def plSx (c : PlaneCfg) : Nat := fld c.srcPos 0 14
/-- SY. -/
def plSy (c : PlaneCfg) : Nat := fld c.srcPos 16 14
/-- SW. -/
def plSw (c : PlaneCfg) : Nat := fld c.srcSize 0 14
/-- SH. -/
def plSh (c : PlaneCfg) : Nat := fld c.srcSize 16 14
/-- DX. -/
def plDx (c : PlaneCfg) : Nat := fld c.dstPos 0 12
/-- DY. -/
def plDy (c : PlaneCfg) : Nat := fld c.dstPos 16 12
/-- DW. -/
def plDw (c : PlaneCfg) : Nat := fld c.dstSize 0 13
/-- DH. -/
def plDh (c : PlaneCfg) : Nat := fld c.dstSize 16 13
/-- Bytes between rows of plane 0. -/
def plPitch0 (c : PlaneCfg) : Nat := fld c.pitch 0 16 * 64
/-- Bytes between chroma rows. -/
def plPitch1 (c : PlaneCfg) : Nat := fld c.pitch 16 16 * 64

/-- First and last chroma row that the source rectangle's rows use (R460). -/
def chromaRows (c : PlaneCfg) : Nat × Nat := (plSy c / 2, (plSy c + plSh c - 1) / 2)

/-- First and last chroma sample that the source rectangle's columns use (R460). -/
def chromaCols (c : PlaneCfg) : Nat × Nat := (plSx c / 2, (plSx c + plSw c - 1) / 2)

/-- Where a row of the source lies, and how many bytes of it are read: address and length (R456). -/
def lumaSpan (c : PlaneCfg) (y : Nat) : Nat × Nat :=
  let a := c.addr0 + y * plPitch0 c
  match plFmt c with
  | 7 => (a + plSx c, plSw c)
  | 8 => (a + 4 * (chromaCols c).1, 4 * ((chromaCols c).2 + 1 - (chromaCols c).1))
  | f => (a + plSx c * pixBytes f, plSw c * pixBytes f)

/-- Where a chroma row lies. -/
def chromaSpan (c : PlaneCfg) (j : Nat) : Nat × Nat :=
  (c.addr1 + j * plPitch1 c + 2 * (chromaCols c).1, 2 * ((chromaCols c).2 + 1 - (chromaCols c).1))

/-- The scan window of output m (R456). -/
def scanWindow (s : State) (m : Nat) : Nat × Nat :=
  let limit := rd64 s (Reg.outScanLimitLo m)
  if limit = 0 then (0, usable s) else (rd64 s (Reg.outScanBaseLo m), min limit (usable s))

/-- Whether a row span lies inside the scan window. -/
def spanIn (w : Nat × Nat) (sp : Nat × Nat) : Bool := decide (w.1 ≤ sp.1) && decide (sp.1 + sp.2 ≤ w.2)

/-- Whether a plane's source leaves the scan window; rows are evenly spaced, so the first and last ones decide. -/
def scanBad (s : State) (m : Nat) (c : PlaneCfg) : Bool :=
  let w := scanWindow s m
  let (j0, j1) := chromaRows c
  let spans := [lumaSpan c (plSy c), lumaSpan c (plSy c + plSh c - 1)] ++
    (if plFmt c = 7 then [chromaSpan c j0, chromaSpan c j1] else [])
  !spans.all (spanIn w)

/-- Whether a source and a destination size break the limits of a scale mode (R464). -/
def ratioBad (mode sw dw : Nat) : Bool :=
  match mode with
  | 0 => decide (sw ≠ dw)
  | 2 => decide (4 * dw < sw ∨ 16 * sw < dw)
  | _ => decide (2 * dw < sw ∨ 16 * sw < dw)

/-- Causes of PLANE_p_STATUS other than PLANE_LIMIT, each with whether plane p breaks its rules (R455 to R457, R464,
R465, R476). -/
def planeCauses (s : State) (m : Nat) (c : PlaneCfg) : List (Nat × Bool) :=
  let n := plRing c
  let z := decide (plSw c = 0 ∨ plSh c = 0 ∨ plDw c = 0 ∨ plDh c = 0)
  [(2, decide (9 ≤ plFmt c) || (plIsRing c && decide (plFmt c ≠ sringFmt s n))),
   (3, z || decide (8192 < plSw c ∨ 8192 < plSh c) || ratioBad (plMode c) (plSw c) (plDw c) ||
     ratioBad (plMode c) (plSh c) (plDh c) ||
     (plIsRing c && decide (plSy c ≠ 0 ∨ plSh c ≠ plDh c ∨ plDh c ≠ sringH s n ∨ plDy c ≠ sringY s n))),
   (4, decide (plMode c = 2) && (decide (scalerOut s (plScaler c) ≠ some m) ||
     (List.range c.p).any fun q => (planeOut s q).isSome && planeUses s q (plScaler c))),
   (5, !plIsRing c && !z && decide (plFmt c < 9) && scanBad s m c),
   (6, plIsRing c && (!sringOn s n || decide (sringTg s n ≠ m)))]

/-- Planes in composition order: ascending ZPOS, ties in ascending index (R467). -/
def zOrder (s : State) (ps : List Nat) : List Nat :=
  (List.range 16).flatMap fun z => ps.filter fun p => decide (rdF s (Reg.planeCfg p) 20 4 = z)

/-- The enabled planes of output m that come too low in composition order (R454). -/
def planesCut (s : State) (m : Nat) : List Nat :=
  let en := zOrder s ((planesOn s m).filter (planeEn s))
  en.take (en.length - 8)

/-- CAUSE of an enabled plane: the lowest code among the rules that it breaks, or 0. -/
def planeCause (s : State) (m p : Nat) : Nat :=
  if (planesCut s m).contains p then 1
  else (((planeCauses s m (planeOf s p)).find? Prod.snd).map Prod.fst).getD 0

/-- The judgment of the planes of output m at its latch (R454, R476). -/
def judgePlanes (s : State) (m : Nat) : State :=
  let js := (planesOn s m).map fun p => (p, planeEn s p, if planeEn s p then planeCause s m p else 0)
  let s := js.foldl (fun s (j : Nat × Bool × Nat) =>
    wrN s (Reg.planeStatus j.1) (j.2.2 + 8 * b2n (j.2.1 && decide (j.2.2 = 0)))) s
  if js.any fun j => decide (j.2.2 ≠ 0) then setEv s Reg.dspEvents 8 else s

/-! ### COMMIT (R471 to R474) -/

/-- OUTPUT of a COMMIT. -/
def commitOutput (d : Desc) : Nat := fld (descWord d 2) 0 2

/-- SCALER of a SCALER_LOAD. -/
def loadScaler (d : Desc) : Nat := fld (descWord d 2) 0 3

/-- The owner of requests for output m's lists and tables; 4 stands for unmapped scalers. -/
def dspOwner (m : Nat) : Nat := 2 ^ 55 + m

/-- An entry of a COMMIT list: its shadow register is written, or it is ignored and counted (R472). -/
def commitEntry (m : Nat) (acc : State × Nat) (e : Nat) : State × Nat :=
  let off := e % 2 ^ 32
  let a := 0x700000 + off
  if off % 4 = 0 ∧ shadowOf acc.1 m a then (shadowPut acc.1 a (BitVec.ofNat 32 (e / 2 ^ 32)), acc.2)
  else (acc.1, acc.2 + 1)

/-- 8-byte entries of a list. -/
def listWords : Nat → List Byte → List Nat
  | 0, _ => []
  | n + 1, bs => leValue (bs.take 8) :: listWords n (bs.drop 8)

/-- The COMMIT at the head of output m runs: its list is read, its entries are written, and it is armed (R472). -/
def commitRun (s : State) (m : Nat) : State :=
  match outHead s m with
  | none => s
  | some id =>
    let d := descOf s id
    if descOp d ≠ 0x10 ∨ (outArmed s m).isSome ∨ !descRuns s id then s
    else
      let n := fld (descWord d 4) 0 13
      match vaRead (descAccess s d.id) (.unit (dspOwner m)) (descSlot d) (descWord d 3).toNat (8 * n) accLoad with
      | (s', .wait) => onOut (retryWait s s') m fun o => { o with writing := true }
      | (s', .fault f) => onOut (unitFault s' d f) m fun o => { o with writing := false }
      | (s', .ok bs) =>
        let (s, ignored) := (listWords n bs).foldl (commitEntry m) (s', 0)
        let s := onDesc s id fun d => { d with okDetail := ignored % 2 ^ 13 }
        onOut s m fun o => { o with armed := some id, writing := false, due := false }

/-- The latch of output m (R473): shadow copies become active, its scalers' banks too, the planes are judged, and the
COMMIT reports done in this cycle. -/
def latch (s : State) (m : Nat) (id : DescId) : State :=
  let s := (shadowsOf s m).foldl (fun s a => wr s a (shadowGet s a)) s
  let s := (List.range 8).foldl (fun s k =>
    if scalerOut s k = some m then
      onDsp s fun d => { d with scalers := modAt d.scalers k fun x => { x with active := x.shadow } }
    else s) s
  let s := judgePlanes s m
  let s := setEv (satInc (wr64 s (Reg.outLatchLo m) (ltNow s)) (Reg.outCommits m) 1) Reg.dspEvents m
  let s := onOut s m fun o => { o with armed := none, due := false, queue := o.queue.filter fun i => decide (i ≠ id) }
  unitDone (onDesc s id fun d => { d with cancel := none }) id (descOf s id).okDetail

/-- The latch that is due on output m: its commit line has begun with a COMMIT armed before, or its TG is disabled
(R71, R474). -/
def latchDue (s : State) (m : Nat) : State :=
  match outArmed s m with
  | some id => if (outOf s m).due || !tgEnabled s m then latch s m id else s
  | none => s

/-! ### SCALER_LOAD (R475) -/

/-- The head of the queue of unmapped scalers. -/
def loadsHead (s : State) : Option DescId := (dspHeld s s.dsp.loads).head?

/-- The state with scaler k changed. -/
def onScaler (s : State) (k : Nat) (f : ScalerSt → ScalerSt) : State :=
  onDsp s fun d => { d with scalers := modAt d.scalers k f }

/-- Scaler k. -/
def scalerAt (s : State) (k : Nat) : ScalerSt := (s.dsp.scalers[k]?).getD {}

/-- The table of a scaler that is staged for a descriptor that is still held. -/
def stagedOf (s : State) (k : Nat) : Option (DescId × Option Nat × List Byte) :=
  match (scalerAt s k).staged with
  | some t => if (dspHeld s [t.1]).isEmpty then none else some t
  | none => none

/-- REFUSED_NOT_OWNER for a SCALER_LOAD, if it is due (R475). -/
def loadRefusal (s : State) (d : Desc) : Option Result :=
  match scalerOut s (loadScaler d) with
  | some m => if bit (ctxSlot s (descSlot d)).image.outputs m then none else some (notOwner 2 m)
  | none => if descSlot d = 0 then none else some (notOwner 2 0xFFFF)

/-- A SCALER_LOAD is taken: it is refused, or its table is read into the staging bank (R475). -/
def scalerLoad (s : State) (m : Nat) (id : DescId) : State :=
  let d := descOf s id
  let k := loadScaler d
  if descOp d ≠ 0x12 ∨ !descRuns s id ∨ (stagedOf s k).isSome then s
  else
    match loadRefusal s d with
    | some r => decideDesc s id r
    | none =>
      match vaRead (descAccess s d.id) (.unit (dspOwner m)) (descSlot d) (descWord d 3).toNat 1792 accLoad with
      | (s', .wait) => retryWait s s'
      | (s', .fault f) => unitFault s' d f
      | (s', .ok bs) => onScaler s' k fun x => { x with staged := some (id, scalerOut s k, bs) }

/-- The staged table of scaler k is copied, unless an armed COMMIT of its output has not latched (R475). -/
def bankCopy (s : State) (k : Nat) : State :=
  match stagedOf s k with
  | none => s
  | some (id, out, bs) =>
    match out with
    | some m => if (outArmed s m).isSome then s
        else unitDone (onScaler s k fun x => { x with staged := none, shadow := bs }) id 0
    | none => unitDone (onScaler s k fun x => { x with staged := none, shadow := bs, active := bs }) id 0

/-! ### Live words (R476) -/

/-- OUT_m_STATUS. -/
def outStatusWord (s : State) (m : Nat) : Word :=
  let wait := (List.range 8).any fun k => match stagedOf s k with
    | some (_, o, _) => decide (o = some m) && (outArmed s m).isSome
    | none => false
  BitVec.ofNat 32 (b2n (outWriting s m) + 2 * b2n (outArmed s m).isSome + 4 * b2n wait +
    8 * min 4 (outQueued s m))

/-- SCL_s_STATUS; USER is the lowest plane shown that selects the scaler. -/
def sclStatusWord (s : State) (k : Nat) : Word :=
  let user := (List.range 16).find? fun p => planeUses s p k && (planeOut s p).isSome && decide (rdF s (Reg.planeStatus p) 3 1 = 1)
  BitVec.ofNat 32 (b2n (stagedOf s k).isSome + 2 * b2n user.isSome + 16 * user.getD 0)

/-- TG_m_STATUS: RUNNING, PLL_LOCKED, which is 1 too while the TG waits for its TGSYNC (R544), and the stored REFUSE. -/
def tgStatusWord (s : State) (m : Nat) : Word :=
  let run := (outOf s m).running
  BitVec.ofNat 32 (b2n run + 2 * b2n (run || (s.twin.tgReady[m]?).getD false) + 16 * rdF s (Reg.tgStatus m) 4 3)

/-- DSP registers whose value is live state. -/
def dspRegRead (s : State) (off : Nat) : Option Word :=
  match (List.range 4).find? fun m => decide (off = Reg.outStatus m) with
  | some m => some (outStatusWord s m)
  | none =>
    match (List.range 8).find? fun k => decide (off = Reg.sclStatus k) with
    | some k => some (sclStatusWord s k)
    | none => ((List.range 4).find? fun m => decide (off = Reg.tgStatus m)).map (tgStatusWord s)

end Sys2Proof.Machine
end

