-- ==== Sys2Proof/Machine/Dsi.lean ====
section
/-!
DEFINITION. The packets of a DSI-2 port (spec/17_display_and_camera_ports.md R481, R484): their headers with the ECC,
their payloads in the byte order of each data type, and the CRC-16 of a long packet.
-/

namespace Sys2Proof.Machine

/-- The header bits over which each ECC bit is the parity (PRESUMED, MIPI DSI-2; log entry 77). -/
def dsiEccMasks : List Nat := [0xF12CB7, 0xF2555B, 0x749A6D, 0xB8E38E, 0xDF03F0, 0xEFFC00]

/-- The ECC of the 24 bits of a packet header. -/
def dsiEcc (d : Nat) : Nat :=
  dsiEccMasks.foldr (fun m e => (onesBelow (d &&& m) 24).length % 2 + 2 * e) 0

/-- The header of a packet of the port's virtual channel: data type, and word count or data bytes (R481). -/
def dsiHdr (s : State) (m dt wc : Nat) : DsiHdr :=
  let vc := rdF s (Reg.dsiCfg m) 6 2
  { vc := vc, dt := dt, wc := wc, ecc := dsiEcc (dt + 64 * vc + 256 * (wc % 65536)) }

/-- One bit of the CRC-16, x^16 + x^12 + x^5 + 1 with the low bit first (PRESUMED, MIPI DSI-2; log entry 77). -/
def dsiCrcBit (c : Nat) : Nat := if c % 2 = 1 then (c / 2) ^^^ 0x8408 else c / 2

/-- The CRC-16 of a payload. -/
def dsiCrc (bs : List Byte) : Nat :=
  bs.foldl (fun c b => (List.range 8).foldl (fun c _ => dsiCrcBit c) (c ^^^ b.toNat)) 0xFFFF

/-- A short packet. -/
def dsiShort (s : State) (m dt wc : Nat) : DsiPkt := .short (dsiHdr s m dt wc)

/-- A long packet. -/
def dsiLong (s : State) (m dt : Nat) (bs : List Byte) : DsiPkt := .long (dsiHdr s m dt bs.length) bs (dsiCrc bs)

/-- The EoTp. -/
def dsiEot (s : State) (m : Nat) : DsiPkt := dsiShort s m 0x08 0x0F0F

/-- Channel values of w bits behind each other, the low bits first: four fill w/2 bytes. -/
def packChans (w : Nat) : List Nat → List Byte
  | a :: b :: c :: d :: r => leBytes (a + 2 ^ w * (b + 2 ^ w * (c + 2 ^ w * d))) (w / 2) ++ packChans w r
  | [a, b, c] => leBytes (a + 2 ^ w * (b + 2 ^ w * c)) (ceilDiv (3 * w) 8)
  | [a, b] => leBytes (a + 2 ^ w * b) (ceilDiv (2 * w) 8)
  | [a] => leBytes a (ceilDiv w 8)
  | [] => []

/-- The payload of a pixel packet: loosely packed channels stand in the upper six bits of a byte each (R481, R484). -/
def dsiPayloadBytes (dt : Nat) (codes : List (Nat × Nat × Nat)) : List Byte :=
  let chans := codes.flatMap fun c => [c.1, c.2.1, c.2.2]
  match dt with
  | 0 => packChans 8 chans
  | 1 => packChans 6 chans
  | 2 => packChans 8 (chans.map (4 * ·))
  | _ => packChans 10 chans

end Sys2Proof.Machine
end

