-- ==== Sys2Proof/Machine/Scan.lean ====
section
/-!
DEFINITION. Scanout (spec/16_composition.md R459 to R470, spec/15_race_rendering.md R434, R444, R445,
spec/17_display_and_camera_ports.md R481 to R484): the fetch of a plane's line, the composition of a line, and what the
DSI port sends.
-/

namespace Sys2Proof.Machine

/-! ### Source rows -/

/-- A row span of DRAM, as read (R203, R456). -/
def spanRead (s : State) (sp : Nat × Nat) : State × List Byte :=
  let (s, bs, _) := dramRead (accessAs s .scanout) sp.1 sp.2
  (s, bs)

/-- Pairs of bytes. -/
def bytePairs : List Byte → List (Nat × Nat)
  | a :: b :: bs => (a.toNat, b.toNat) :: bytePairs bs
  | _ => []

/-- The luma bytes of YUV422 groups. -/
def lumaBytes : List Byte → List Nat
  | y :: _ :: bs => y.toNat :: lumaBytes bs
  | _ => []

/-- The chroma pairs of YUV422 groups. -/
def groupChroma : List Byte → List (Nat × Nat)
  | _ :: u :: _ :: v :: bs => (u.toNat, v.toNat) :: groupChroma bs
  | _ => []

/-- The linear pixels of source row y of a DRAM plane (R456, R460 to R462). -/
def dramRow (s : State) (c : PlaneCfg) (y : Nat) : State × List Px :=
  let (s, bs) := spanRead s (lumaSpan c y)
  let i0 := (chromaCols c).1
  match plFmt c with
  | 7 =>
    let (j0, j1) := chromaRows c
    let far := if y % 2 = 0 then (if y / 2 ≤ j0 then j0 else y / 2 - 1) else min (y / 2 + 1) j1
    let (s, near) := spanRead s (chromaSpan c (y / 2))
    let (s, farB) := spanRead s (chromaSpan c far)
    (s, yuvRow c (chromaMix (bytePairs near) (bytePairs farB)) i0 (plSx c) (bs.map fun b => b.toNat))
  | 8 => (s, yuvRow c (groupChroma bs) i0 (plSx c) (((lumaBytes bs).drop (plSx c % 2)).take (plSw c)))
  | f => (s, (pixWords (pixBytes f) (plSw c) bs).map (unpackPx c f))

/-- Free pixel words for columns that a ring does not hold. -/
def freePixels : Nat → State → State × List Nat
  | 0, s => (s, [])
  | n + 1, s =>
    let (k, s) := drawFree s
    let (s, r) := freePixels n s
    (s, (Config.freeDWord k).toNat :: r)

/-- The pieces (first column, columns) of SW columns from SX that lie in single tile columns of a ring. -/
def ringPieces (sx sw : Nat) : List (Nat × Nat) :=
  (List.range (if sw = 0 then 0 else (sx % 32 + sw + 31) / 32)).map fun i =>
    let lo := max sx ((sx / 32 + i) * 32)
    (lo, min (sx + sw) ((sx / 32 + i + 1) * 32) - lo)

/-- A strip's row j of a piece of columns (R435, R436): the pixel words, and whether a word was uncorrectable or the
tile has no home. -/
def ringPiece (n j : Nat) (st : Strip) (acc : State × List Nat × Bool) (p : Nat × Nat) : State × List Nat × Bool :=
  let (s, ws, bad) := acc
  let b := fmtBytes (sringFmt s n)
  let have' := min p.2 (sringW s n - p.1)
  let (s, got, bad) :=
    if have' = 0 then (s, [], bad)
    else match st.homes.find? fun h => decide (h.1 = p.1 / 32) with
      | some h =>
        let o := sringSlot s n (j / 32 % max 1 (sringDepth s n)) + h.2.2 * 1024 * b + (j % 32 * 32 + p.1 % 32) * b
        let (s, bs, e) := sheetRead s h.2.1 o (have' * b)
        (s, pixWords b have' bs, bad || e.isSome)
      | none => (s, List.replicate have' 0, true)
  let (s, free) := freePixels (p.2 - have') s
  (s, ws ++ got ++ free.map fun w => w % 2 ^ (8 * b), bad)

/-- Image line j of the fallback image of a ring; nothing when it has none (R445). -/
def fallbackRow (s : State) (c : PlaneCfg) (j : Nat) : State × Option (List Nat) :=
  let r := raceRing s (plRing c)
  let b := pixBytes (plFmt c)
  if r.fbEn then
    let (s, bs) := spanRead s (r.fb + j * r.fbPitch + plSx c * b, plSw c * b)
    (s, some (pixWords b (plSw c) bs))
  else (s, none)

/-- The first image line of a ring that its planes have not read yet, of the frame that a pass is shown in: the line being
read in the present line of TG_m, or the one after when that has been fetched (R434). -/
def ringUnread (s : State) (n : Nat) (p : RacePass) : Int :=
  let m := sringTg s n
  let o := outOf s m
  let now := (o.line : Int) - if p.begun then 0 else (tgVtotal s m : Int)
  let read := o.fetched.any fun l => decide (l.line = (o.line + 2) % max 1 (tgVtotal s m)) && plIsRing (planeOf s l.p) &&
    decide (plRing (planeOf s l.p) = n)
  now + (if read then 3 else 2) - (sringY s n : Int)

/-- A strip with a tile in a cluster that leaves service: not yet decided, it will be substituted; shown and not yet
read to its end, the rest of it is read from the fallback (R444). -/
def stripClusterLost (s : State) (n c : Nat) (p : RacePass) (k : Nat) : State :=
  let st := (p.strips[k]?).getD {}
  if !st.homes.any fun h => decide (h.2.1 = c) then s
  else
    match st.shown with
    | none => onStrip s n p.id k fun x => { x with spoiled := true }
    | some true =>
      let j := max (32 * k) (ringUnread s n p).toNat
      if st.windowEnded || st.fallFrom.isSome || decide (32 * k + stripLines s n k ≤ j) then s else stripLost s n p k j
    | some false => s

/-- A cluster leaves service: the strips of every ring that have tiles there. -/
def raceClusterLost (s : State) (c : Nat) : State :=
  (List.range 16).foldl (fun s n => (raceRing s n).passes.foldl (fun s p =>
    (List.range p.strips.length).foldl (fun s k => stripClusterLost s n c p k) s) s) s

/-- The pass whose strips a ring shows on an output line: that of the present frame, or, for a line fetched in the
frame before, the last one that the next frame can show (R434, R440; log entry 64). -/
def ringPass (s : State) (n : Nat) (ahead : Bool) : Option RacePass :=
  if ahead then (raceRing s n).passes.reverse.find? fun p =>
    !p.begun && !p.past && !p.superseded && !p.discarded && frameGe (ltFrameOf (ltNow s) + 1) p.fshow
  else ringShown s n

/-- Image line j of a ring for a plane: the shown strip, the fallback image, or nothing (R434, R441, R443 to R445). -/
def ringRow (s : State) (c : PlaneCfg) (j : Nat) (ahead : Bool) : State × Option (List Nat) :=
  let n := plRing c
  let s := stripDeadlines s n
  match if sringOn s n then ringPass s n ahead else none with
  | none => fallbackRow s c j
  | some p =>
    let st := (p.strips[j / 32]?).getD {}
    let fell : Bool := match st.fallFrom with
      | some f => decide (f ≤ j)
      | none => false
    if st.shown ≠ some true ∨ fell = true then fallbackRow s c j
    else
      let (s', ws, bad) := (ringPieces (plSx c) (plSw c)).foldl (ringPiece n j st) (s, [], false)
      if bad then fallbackRow (stripLost s' n p (j / 32) j) c j else (s', some ws)

/-! ### Fetch of a plane's line (R459) -/

/-- HACTIVE of TG_m. -/
def tgHactive (s : State) (m : Nat) : Nat := rdF s (Reg.tgHtime1 m) 0 13

/-- The rows of a DRAM plane, in order. -/
def dramRows (c : PlaneCfg) : List Nat → State → State × List (List Px)
  | [], s => (s, [])
  | y :: ys, s =>
    let (s, r) := dramRow s c (plSy c + y)
    let (s, rs) := dramRows c ys s
    (s, r :: rs)

/-- A row combined vertically (R464). -/
def combineRows (c : PlaneCfg) (bank : List Byte) (y : Nat) (rows : List (List Px)) : List Px :=
  let arrs := rows.map List.toArray
  (List.range (plSw c)).map fun x =>
    scaleCols (plMode c) (plSh c) (plDh c) bank y (arrs.map fun a => a.getD x (0, 0, 0, 0))

/-- The active coefficient bank that a plane uses. -/
def planeBank (s : State) (c : PlaneCfg) : List Byte := if plMode c = 2 then (scalerAt s (plScaler c)).active else []

/-- A combined row at the destination columns of the active area. -/
def spreadRow (s : State) (m : Nat) (c : PlaneCfg) (row : List Px) : List Px :=
  let arr := row.toArray
  let bank := planeBank s c
  (List.range (min (plDw c) (tgHactive s m - plDx c))).map fun x =>
    scaleCol (plMode c) (plSw c) (plDw c) bank (fun k => arr.getD k (0, 0, 0, 0)) x

/-- The pixels of a plane on output line y; a ring plane's line has no vertical pass. -/
def planePixels (s : State) (m : Nat) (c : PlaneCfg) (y : Nat) (ahead : Bool) : State × List Px :=
  if plIsRing c then
    match ringRow s c (y - plDy c) ahead with
    | (s, some ws) => (s, spreadRow s m c (ws.map (unpackPx c (plFmt c))))
    | (s, none) => (s, [])
  else
    let (s, rows) := dramRows c (scaleRows (plMode c) (plSh c) (plDh c) (y - plDy c)) s
    (s, spreadRow s m c (combineRows c (planeBank s c) (y - plDy c) rows))

/-- Whether an output line lies in a plane's destination rows, and some of its columns are active. -/
def planeCovers (s : State) (m : Nat) (c : PlaneCfg) (y : Nat) : Bool :=
  decide (plDy c ≤ y) && decide (y < plDy c + plDh c) && decide (plDx c < tgHactive s m)

/-- Whether plane p is composed on output m under the latched state (R454). -/
def planeShown (s : State) (m p : Nat) : Bool :=
  decide (planeOut s p = some m) && planeEn s p && decide (rdF s (Reg.planeStatus p) 3 1 = 1)

/-- The fetch of the line two ahead for plane p on output m. -/
def scanFetch (s0 : State) (m p : Nat) : State :=
  let s := latchDue s0 m
  let o := outOf s m
  let y := (o.line + 2) % max 1 (tgVtotal s m)
  let c := planeOf s p
  if !o.running || !planeShown s m p || decide (tgVactive s m ≤ y) || !planeCovers s m c y ||
      o.fetched.any fun l => decide (l.p = p) && decide (l.line = y) then s
  else
    let (s, px) := planePixels s m c y (decide (y < o.line))
    onOut s m fun o => { o with fetched := o.fetched ++ [{ p := p, line := y, px := px }] }

/-! ### Composition of a line (R466 to R470) -/

/-- The active state of output m with its planes in composition order (R467, R473). -/
def outCfg (s : State) (m : Nat) : OutCfg :=
  { bgRg := rd s (Reg.outBgRg m), bgB := rd s (Reg.outBgB m), color := rd s (Reg.outColor m)
    ctm := (List.range 5).map fun i => rd s (Reg.outBgRg m + 0xC + 4 * i)
    planes := (zOrder s ((List.range 16).filter (planeShown s m))).map (planeOf s) }

/-- A plane's line that did not arrive (R459). -/
def noteUnderrun (m : Nat) (s : State) (c : PlaneCfg) : State :=
  setEv (satInc (satInc s (Reg.planeUnderrun c.p) 1) (Reg.outUnderrun m) 1) Reg.dspEvents (4 + m)

/-- The line of plane p that output m has fetched. -/
def fetchedLine (o : OutState) (p y : Nat) : Option PlaneLine :=
  o.fetched.find? fun l => decide (l.p = p) && decide (l.line = y)

/-- The composite of line y: the background, and each plane that has arrived. -/
def composite (s : State) (m y : Nat) : List Rgb :=
  let o := outOf s m
  let bg : Rgb := (fld o.cur.bgRg 0 16, fld o.cur.bgRg 16 16, fld o.cur.bgB 0 16)
  (o.cur.planes.filter fun c => planeCovers s m c y).foldl (fun row c => match fetchedLine o c.p y with
    | some l => blendRow c l.px row
    | none => row) (List.replicate (tgHactive s m) bg)

/-- Panel codes of line y. -/
def panelLine (s : State) (m y : Nat) : List Rgb :=
  let o := outOf s m
  let color := o.cur.color
  (composite s m y).zipIdx.map fun e =>
    panelPx color (srcPos s m).frame e.2 y (if bit color 6 then ctmPx o.cur.ctm e.1 else e.1)

/-- Active line y is composed; planes whose data is missing count as underruns. -/
def composeLine (s : State) (m y : Nat) : State :=
  let o := outOf s m
  let late := o.cur.planes.filter fun c => planeCovers s m c y && (fetchedLine o c.p y).isNone
  let codes := panelLine s m y
  onOut (late.foldl (noteUnderrun m) s) m fun o => { o with codes := codes }

/-! ### DSI-2 (R481 to R484) -/

/-- Channel width of a data type. -/
def dsiWidth (dt : Nat) : Nat :=
  match dt with
  | 0 => 8
  | 3 => 10
  | _ => 6

/-- The DSI-2 data type of a DT code. -/
def dsiType (dt : Nat) : Nat :=
  match dt with
  | 0 => 0x3E
  | 1 => 0x1E
  | 2 => 0x2E
  | _ => 0x0D

/-- LANES, DT, MODE, EOTP and LP_BLANK of DSI_m_CFG. -/
def dsiLanes (s : State) (m : Nat) : Nat := rdF s (Reg.dsiCfg m) 0 3
/-- DT. -/
def dsiDt (s : State) (m : Nat) : Nat := rdF s (Reg.dsiCfg m) 4 2
/-- MODE, 3 acting as 2. -/
def dsiMode (s : State) (m : Nat) : Nat := min 2 (rdF s (Reg.dsiCfg m) 8 2)

/-- P of R483: the payload of a pixel packet with its header and checksum. -/
def dsiPayload (s : State) (m : Nat) : Nat :=
  let q := match dsiDt s m with
    | 1 => 9
    | 3 => 15
    | _ => 12
  ceilDiv (tgHactive s m * q) 4 + 6

/-- CLK_CONT: the clock lane keeps its HS clock while the data lanes are in LP-11 (R481). -/
def dsiClkCont (s : State) (m : Nat) : Bool := decide (rdF s (Reg.dsiCfg m) 10 1 = 1)

/-- The EoTp of EOTP = 1 (R482). -/
def dsiEotp (s : State) (m : Nat) : List DsiPkt := if rdF s (Reg.dsiCfg m) 11 1 = 1 then [dsiEot s m] else []

/-- Byte-clock cycles in a number of pixel cycles: RATE over 8 f_PIXEL (R478, R483). -/
def dsiClocks (s : State) (m : Nat) (t : Rat) : Rat :=
  if tgRatio s m = 0 then 0 else t * ((rdN s (Reg.dsiRate m) % 4096 * 10 * 2 ^ 24 : Nat) : Rat) / ((8 * 384 * tgRatio s m : Nat) : Rat)

/-- Byte-clock cycles of a short packet. -/
def dsiShortClocks (s : State) (m : Nat) : Rat := ceilDiv 4 (max 1 (dsiLanes s m))

/-- How many free bytes one blanking packet may take. -/
def dsiFillMax : Nat := 2 ^ 20

/-- A blanking packet that fills some byte-clock cycles; what it carries the spec leaves open. -/
def dsiBlanking (s : State) (m k : Nat) (clocks : Rat) : DsiPkt :=
  let n := min dsiFillMax ((clocks * (dsiLanes s m : Nat)).floor.toNat - 6)
  dsiLong s m 0x19 ((List.range n).map fun i => Config.freeByte (s.freeCtr + k * dsiFillMax + i))

/-- What fills the k-th gap of a line, of some byte-clock cycles from a time on (R482): a return to LP-11 when LP_BLANK
allows it, with an EoTp before it when EOTP = 1; else a blanking packet. -/
def dsiGap (s : State) (m k : Nat) (t clocks : Rat) : List (Rat × DsiPkt) :=
  if rdF s (Reg.dsiCfg m) 12 1 = 1 ∧ 64 ≤ clocks then
    let eot := dsiEotp s m
    eot.map (t, ·) ++ [(t + eot.length * dsiShortClocks s m, .lp11 (dsiClkCont s m))]
  else if 1 ≤ clocks then [(t, dsiBlanking s m k clocks)]
  else []

/-- The end of a port's HS transmission after the packet in flight: its EoT, and LP-11; lanes in LP-11 stay there
(R480, R482). -/
def dsiEnd (s : State) (m : Nat) (last : Option DsiPkt) : List DsiPkt :=
  match last with
  | none => [.lp11 false]
  | some .deskew => [.lp11 false]
  | some (.lp11 _) => []
  | some p => (if p = dsiEot s m then [] else dsiEotp s m) ++ [.lp11 false]

/-- What a port that is not live sends in a line: the end of what was in flight, and LP-11 (R556). -/
def dsiIdle (s : State) (m : Nat) (last : Option DsiPkt) : List DsiPkt :=
  match dsiEnd s m last with
  | [] => [.lp11 false]
  | e => e

/-- Lines of the vertical sync (R482): the first and the last VSYNC line. -/
def tgVsync (s : State) (m : Nat) : Nat × Nat :=
  let v0 := tgVactive s m + rdF s (Reg.tgVtime1 m) 16 12
  (v0, v0 + rdF s (Reg.tgVtime2 m) 0 12 - 1)

/-- The sync packet at the start of HSYNC of line l. -/
def dsiSyncStart (s : State) (m l : Nat) : DsiPkt := dsiShort s m (if l = (tgVsync s m).1 then 0x01 else 0x21) 0

/-- The sync packet at the end of HSYNC of line l, in mode 0. -/
def dsiSyncEnd (s : State) (m l : Nat) : DsiPkt := dsiShort s m (if l = (tgVsync s m).2 then 0x11 else 0x31) 0

/-- The pixel packet of a line's panel codes (R484). -/
def dsiPixels (s : State) (m : Nat) : DsiPkt :=
  let o := outOf s m
  let f := dsiCode (panelDepth o.cur.color) (dsiWidth (dsiDt s m))
  dsiLong s m (dsiType (dsiDt s m)) (dsiPayloadBytes (dsiDt s m) (o.codes.map fun c => (f c.1, f c.2.1, f c.2.2)))

/-- What a live port sends for line l: its pixel packet, its sync packets and what fills the rest, each with the time of
its first bit in byte-clock cycles after the line's first active pixel (R482). -/
def dsiTimed (s : State) (m l : Nat) : List (Rat × DsiPkt) :=
  let hact : Rat := tgHactive s m
  let hfp : Rat := rdF s (Reg.tgHtime1 m) 16 12
  let hsync : Rat := rdF s (Reg.tgHtime2 m) 0 12
  let hbp : Rat := rdF s (Reg.tgHtime2 m) 16 12
  let delay : Rat := rdF s (Reg.dsiPktDelay m) 0 12
  let lanes := max 1 (dsiLanes s m)
  let short := dsiShortClocks s m
  let active := fun (l : Nat) => decide (l < tgVactive s m)
  let rest := if active l then
      let room := dsiClocks s m (hact + hfp + hbp - delay)
      let used : Rat := if dsiMode s m = 2 then ((ceilDiv (dsiPayload s m) lanes : Nat) : Rat) else dsiClocks s m hact
      let t := dsiClocks s m (delay - hbp)
      (t, dsiPixels s m) :: dsiGap s m 0 (t + used) (room - used)
    else []
  let next := (l + 1) % max 1 (tgVtotal s m)
  let after := if active next then delay else hbp + hact + hfp
  let t := dsiClocks s m (hact + hfp)
  let e := dsiClocks s m (hact + hfp + hsync)
  let sync := if dsiMode s m = 0 then
      (t, dsiSyncStart s m l) :: dsiGap s m 1 (t + short) (dsiClocks s m hsync - short) ++
        (e, dsiSyncEnd s m l) :: dsiGap s m 2 (e + short) (dsiClocks s m after - short)
    else (t, dsiSyncStart s m l) :: dsiGap s m 1 (t + short) (dsiClocks s m (hsync + after) - short)
  rest ++ sync

/-- What a live port sends for line l. -/
def dsiLine (s : State) (m l : Nat) : List DsiPkt := (dsiTimed s m l).map Prod.snd

/-- Byte-clock cycles since the first active pixel of TG_m's line. -/
def dsiNow (s : State) (m : Nat) : Rat :=
  (srcPos s m).elapsed * ((rdN s (Reg.dsiRate m) % 4096 * 10 : Nat) : Rat) / ((256 * 384 * 8 : Nat) : Rat)

/-- The packets of the present line whose first bit has been sent. -/
def dsiBegun (s : State) (m : Nat) : List DsiPkt :=
  let o := outOf s m
  o.sent.take ((dsiTimed s m o.line).filter fun e => decide (e.1 ≤ dsiNow s m)).length

/-- Whether the pixel packet of the next line has begun: PKT_DELAY pixel cycles into HBP of this line (R482). -/
def dsiNextBegun (s : State) (m : Nat) : Bool :=
  let o := outOf s m
  let t := tgHtotal s m - rdF s (Reg.tgHtime2 m) 16 12 + rdF s (Reg.dsiPktDelay m) 0 12
  decide ((o.line + 1) % max 1 (tgVtotal s m) < tgVactive s m) && decide (t < tgHtotal s m) &&
    decide (dsiClocks s m (t : Nat) ≤ dsiNow s m)

/-- The TAKEOVER level is sampled for output m (R556). -/
def takeoverSample (s : State) (m : Nat) : State :=
  let live := if rdF s Reg.hltTwinDisp m 1 = 1 ∧ twinState s ≠ 0 then
      (if twinRole s = 2 then s.twin.takeover else !s.twin.takeover)
    else true
  let changed := decide (live ≠ (outOf s m).live)
  let s := onOut s m fun o => { o with live := live }
  if changed then setEv s Reg.hltTwinEvents 6 else s

/-! ### The start of a line -/

/-- The commit line in effect on output m (R474). -/
def commitLineOf (s : State) (m : Nat) : Nat :=
  let c := (outOf s m).commitLine
  if c < tgVtotal s m then c else tgVactive s m

/-- What the start of line l brings beside the source position's event: the state that governs it, its composition and
packets, a COMMIT that falls due, the TAKEOVER sample and the ends of read windows. -/
def lineBegin (s : State) (m l : Nat) : State :=
  let next := outCfg s m
  let last := (outOf s m).sent.getLast?
  let s := onOut s m fun o => { o with line := l, cur := o.next, next := next }
  let s := if l < tgVactive s m then composeLine s m l else onOut s m fun o => { o with codes := [] }
  let s := if l = tgVactive s m then takeoverSample s m else s
  let sent := if (outOf s m).live then dsiLine s m l else dsiIdle s m last
  let s := { s with freeCtr := s.freeCtr + 3 * dsiFillMax }
  let due := decide (l = commitLineOf s m) && (outArmed s m).isSome
  let s := onOut s m fun o => { o with sent := sent, due := o.due || due
                                       fetched := o.fetched.filter fun f => decide (f.line ≠ l) }
  raceLine ((List.range 16).foldl (fun s n => if sringTg s n = m then stripDeadlines s n else s) s) m

/-- TG_LINE_START: the next line of TG_m that is not line 0 (R477). -/
def tgLineStart (s : State) (m : Nat) : State :=
  if !(outOf s m).running || decide (tgVtotal s m ≤ (outOf s m).line + 1) then s
  else
    let l := (outOf s m).line + 1
    lineBegin (sourceLine (latchDue s m) m) m l

/-- HLT_TWIN_DISP.ALIGN of TG_m. -/
def tgAlign (s : State) (m : Nat) : Bool := bit (rd0 s Reg.hltTwinDisp) (4 + m)

/-- The primary's TGSYNC record at a frame event of an aligned TG (R544, R559). -/
def tgSync (s : State) (m : Nat) : State :=
  if mirroring s && tgAlign s m then sendCtrl s [recW0 6 0 m, BitVec.ofNat 64 ((srcPos s m).frame % 2 ^ 32)] else s

/-- TG_FRAME_EVENT: line 0 of TG_m (R48, R440, R474, R544). -/
def tgFrameEvent (s : State) (m : Nat) : State :=
  if !(outOf s m).running || decide ((outOf s m).line + 1 < tgVtotal s m) then s
  else
    let s := tgSync (sourceFrame (latchDue s m) m none) m
    let tag := ltFrameOf (ltNow s)
    let c := rdF s (Reg.outCommitLine m) 0 13
    let s := onOut s m fun o => { o with prevTag := o.tag, tag := some tag, commitLine := c, line := 0 }
    lineBegin (raceFrame s m) m 0

/-! ### Enable and disable (R478 to R480, R483) -/

/-- The refusal code of an enable, lowest first; 0 for none (R479). -/
def tgRefuse (s : State) (m : Nat) : Nat :=
  let f := fun (r lo w : Nat) => rdF s r lo w
  let blanks := [f (Reg.tgHtime1 m) 16 12, f (Reg.tgHtime2 m) 0 12, f (Reg.tgHtime2 m) 16 12,
    f (Reg.tgVtime1 m) 16 12, f (Reg.tgVtime2 m) 0 12, f (Reg.tgVtime2 m) 16 12]
  let hact := tgHactive s m
  let lanes := dsiLanes s m
  let rate := rdF s (Reg.dsiRate m) 0 12
  let t := if dsiMode s m = 2 then tgHtotal s m else tgHtotal s m - f (Reg.tgHtime2 m) 0 12
  if hact < 1 ∨ 4096 < hact ∨ tgVactive s m < 1 ∨ 2400 < tgVactive s m ∨ blanks.contains 0 ∨ 16383 < tgHtotal s m ∨
      8191 < tgVtotal s m then 1
  else if 384 * tgRatio s m < 100 * 2 ^ 24 ∨ 6000 * 2 ^ 24 < 384 * tgRatio s m then 2
  else if (lanes ≠ 1 ∧ lanes ≠ 2 ∧ lanes ≠ 4) ∨ rate < 80 ∨ 2500 < rate ∨ (dsiDt s m % 2 = 1 ∧ hact % 4 ≠ 0) then 3
  else if t * rate * 10 * 2 ^ 24 / (8 * 384 * tgRatio s m) < ceilDiv (dsiPayload s m) lanes + 64 then 4
  else 0

/-- Whether TG_m holds its start for a TGSYNC, and whether its PLL has locked meanwhile (R544). -/
def tgHold (s : State) (m : Nat) (wait ready : Bool) : State :=
  { s with twin := { s.twin with tgWait := setAt s.twin.tgWait m wait, tgReady := setAt s.twin.tgReady m ready } }

/-- The pixel packet of the next line, when it is in flight: its line is composed under the state that governs it. -/
def dsiNextPixels (s : State) (m : Nat) : State × List DsiPkt :=
  if !dsiNextBegun s m then (s, [])
  else
    let next := ((outOf s m).line + 1) % max 1 (tgVtotal s m)
    let frame := (srcPos s m).frame
    let t := onOut s m fun o => { o with cur := o.next }
    let t := composeLine (if next = 0 then onPos t m fun p => { p with frame := frame + 1 } else t) m next
    (onPos t m fun p => { p with frame := frame }, [dsiPixels t m])

/-- TG_m stops: the packet in flight is completed, with its EoT, and the lanes stay in LP-11 (R480). -/
def tgStop (s : State) (m : Nat) : State :=
  let o := outOf s m
  let (s, sent) := if !o.running || !o.live then (s, o.sent) else
    let r := dsiNextPixels s m
    (r.1, dsiBegun s m ++ r.2)
  let sent := sent ++ dsiEnd s m sent.getLast?
  onOut s m fun o => { o with
    running := false, tag := none, prevTag := none, due := false, fetched := [], codes := [], sent := sent }

/-- A write of TG_m_CTRL (R479, R480). -/
def tgCtrlWrite (s : State) (m : Nat) (v : Word) : State :=
  if bit v 0 then
    if tgEnabled s m then s
    else
      let c := tgRefuse s m
      let s := wrF s (Reg.tgStatus m) 4 3 c
      if c ≠ 0 then s
      else
        let sent := if 1500 < rdF s (Reg.dsiRate m) 0 12 then [DsiPkt.deskew] else []
        let s := tgHold s m (tgAlign s m && decide (twinRole s = 2) && decide (twinState s = 2)) false
        onOut (wr s (Reg.tgCtrl m) 1) m fun o => { o with
          running := false, tag := none, prevTag := none, due := false, fetched := [], codes := [], sent := sent }
  else if !tgEnabled s m then s
  else tgHold (wr (tgStop s m) (Reg.tgCtrl m) 0) m false false

/-- TG_m starts at line VACTIVE (R480). -/
def tgStart (s : State) (m : Nat) : State :=
  if !tgEnabled s m || (outOf s m).running then s
  else
    let s := onOut s m fun o => { o with running := true }
    let s := onPos (sourceLine s m) m fun p => { p with line := tgVactive s m }
    lineBegin s m (tgVactive s m)

/-- TG_PLL_LOCK: TG_m starts, unless it holds for a TGSYNC (R480, R544). -/
def tgPllLock (s : State) (m : Nat) : State :=
  if (s.twin.tgWait[m]?).getD false then tgHold s m true true else tgStart s m

/-- Whether a register of TG_m or DSI_m ignores writes while the TG is enabled (R480). -/
def tgFixed (s : State) (off : Nat) : Bool :=
  (List.range 4).any fun m => tgEnabled s m && decide (Reg.tgCtrl m < off) && decide (off ≤ Reg.dsiPktDelay m)

end Sys2Proof.Machine
end

