-- ==== Sys2Proof/Machine/Cam.lean ====
section
/-!
DEFINITION. The camera ports (spec/17_display_and_camera_ports.md R485 to R495): packets, events and their hold behind
captured bytes, stored lines, damage, enable and disable.
-/

namespace Sys2Proof.Machine

/-! ### Registers (R497) -/

/-- A field of CSI_n_CTRL. -/
def csiFld (s : State) (n lo w : Nat) : Nat := rdF s (Reg.csiCtrl n) lo w

/-- ENABLE. -/
def csiEnabled (s : State) (n : Nat) : Bool := decide (csiFld s n 0 1 = 1)

/-- FMT. -/
def csiFmt (s : State) (n : Nat) : Nat := csiFld s n 5 3

/-- UNPACK. -/
def csiUnpack (s : State) (n : Nat) : Bool := decide (csiFld s n 8 1 = 1)

/-- LS_PRESENT. -/
def csiLs (s : State) (n : Nat) : Bool := decide (csiFld s n 9 1 = 1)

/-- MODE captures into the sheet, and into DRAM. -/
def csiSheet (s : State) (n : Nat) : Bool := decide (csiFld s n 10 1 = 1)

/-- MODE 2 or 3. -/
def csiDram (s : State) (n : Nat) : Bool := decide (csiFld s n 11 1 = 1)

/-- WIDTH. -/
def csiWidth (s : State) (n : Nat) : Nat := rdF s (Reg.csiSize n) 0 13

/-- HEIGHT. -/
def csiHeight (s : State) (n : Nat) : Nat := rdF s (Reg.csiSize n) 16 13

/-- WIN_CLUSTER. -/
def csiCluster (s : State) (n : Nat) : Nat := rdF s (Reg.csiWin n) 12 4

/-- The data type of a FMT (R485). -/
def csiDt (fmt : Nat) : Option Nat :=
  match fmt with
  | 0 => some 0x2A
  | 1 => some 0x2B
  | 2 => some 0x2C
  | 3 => some 0x1E
  | _ => none

/-- An error bit of CSI_n_ERR that is not counted. -/
def csiFlag (s : State) (n b : Nat) : State := setEv s (Reg.csiErr n) b

/-- An error of R486, R493 or R494: its bit and the count. -/
def csiError (s : State) (n b : Nat) : State := satInc (csiFlag s n b) (Reg.csiErrCount n) 1

/-! ### Stored lines (R489) -/

/-- Stored bytes of a line of W pixels. -/
def csiStored (fmt : Nat) (unpack : Bool) (w : Nat) : Nat :=
  match fmt with
  | 0 => w
  | 1 => if unpack then 2 * w else 5 * w / 4
  | 2 => if unpack then 2 * w else 3 * w / 2
  | _ => 2 * w

/-- RAW10 samples as M16: five bytes hold four samples, the low bits last. Where a line ends within a group, the low bits
that did not arrive are left open, from free value k on (log entry 78). -/
def unpack10 (k : Nat) : List Byte → List Byte
  | a :: b :: c :: d :: l :: bs =>
    let f := fun (x : Byte) (i : Nat) => leBytes (x.toNat * 4 + fld l (2 * i) 2) 2
    f a 0 ++ f b 1 ++ f c 2 ++ f d 3 ++ unpack10 k bs
  | bs => bs.zipIdx.flatMap fun e => leBytes (e.1.toNat * 4 + (Config.freeByte (k + e.2)).toNat % 4) 2

/-- RAW12 samples as M16: three bytes hold two samples, the low bits last. -/
def unpack12 (k : Nat) : List Byte → List Byte
  | a :: b :: l :: bs => leBytes (a.toNat * 16 + fld l 0 4) 2 ++ leBytes (b.toNat * 16 + fld l 4 4) 2 ++ unpack12 k bs
  | bs => bs.zipIdx.flatMap fun e => leBytes (e.1.toNat * 16 + (Config.freeByte (k + e.2)).toNat % 16) 2

/-- Received U0 Y0 V0 Y1 as Y0 U0 Y1 V0; the place of a byte that arrived alone stays open. -/
def swapYuv : List Byte → List (Option Byte)
  | u :: y :: bs => some y :: some u :: swapYuv bs
  | [u] => [none, some u]
  | [] => []

/-- The bytes of a line as they are stored. -/
def csiLayout (k fmt : Nat) (unpack : Bool) (bs : List Byte) : List (Option Byte) :=
  match fmt with
  | 1 => (if unpack then unpack10 k bs else bs).map some
  | 2 => (if unpack then unpack12 k bs else bs).map some
  | 3 => swapYuv bs
  | _ => bs.map some

/-- Whether a payload ends within a group of samples that is stored unpacked. -/
def csiPartial (fmt : Nat) (unpack : Bool) (n : Nat) : Bool :=
  unpack && ((decide (fmt = 1) && decide (n % 5 ≠ 0)) || (decide (fmt = 2) && decide (n % 3 ≠ 0)))

/-! ### The capture buffer and held events (R488, R493) -/

/-- The line that the port is receiving: its source position after the events it holds. -/
def camLine (s : State) (n : Nat) : Nat :=
  (camAt s n).queue.foldl (fun l i => match i with
    | .frame => 0
    | .line late _ => if late then l else l + 1
    | .synth => l + 1
    | _ => l) (srcPos s (4 + n)).line

/-- Captured bytes that wait. -/
def camWaiting (s : State) (n : Nat) : Nat :=
  let sum := fun (f : CamItem → Nat) => ((camAt s n).queue.map f).foldl (· + ·) 0
  max (sum fun i => match i with
      | .sheet _ _ bs => bs.length
      | _ => 0)
    (sum fun i => match i with
      | .dram _ bs => bs.length
      | _ => 0)

/-- Whether an item is an event. -/
def camIsEvent (i : CamItem) : Bool :=
  match i with
  | .sheet _ _ _ => false
  | .dram _ _ => false
  | _ => true

/-- The port's frame event takes effect (R487). -/
def camFrame (s : State) (n : Nat) : State :=
  let s := sourceFrame s (4 + n) none
  layerFrameStart (wr64 s (Reg.csiFsLtLo n) (ltNow s)) n

/-- The effect of FRAME_EVENT: that of a camera starts its events, and is its frame event as R487 and R371 have it. -/
def frameEventEffect (s : State) (src : Fin 11) : State :=
  if 4 ≤ src.val ∧ src.val < 8 then camFrame (onCam s (src.val - 4) fun p => { p with started := true }) (src.val - 4)
  else sourceFrame s src.val none

/-- A Frame End's signal (R492). -/
def camSignal (s : State) (obj v : Nat) : State := (signalObj s obj v 0 true).1

/-- An item takes effect. -/
def camItem (n : Nat) (s : State) (i : CamItem) : State :=
  match i with
  | .sheet c o bs => sheetWrite s c o (bs.map some)
  | .dram pa bs => dspWrite (accessAs s .capture) pa bs
  | .frame => camFrame s n
  | .line late lateLt => cameraLine s (4 + n) late lateLt
  | .synth => posLine s (4 + n) false
  | .synthLt => camSynthLt s n
  | .signal obj v => camSignal s obj v

/-- Fabric cycles in a time of 1/256 REF cycles. -/
def fabricCycles (t : Rat) : Nat := (t * 10000 / 98304).floor.toNat

/-- CSI_n_HOLD_MAX takes the longest hold of events that take effect (R488); a signal is no event. -/
def camHoldMax (s : State) (n : Nat) (es : List (CamItem × Rat)) : State :=
  es.foldl (fun s e => match e.1 with
    | .signal _ _ => s
    | _ => wrN s (Reg.csiHoldMax n) (max (rdN s (Reg.csiHoldMax n)) (min (fabricCycles e.2) 0xFFFFFFFF))) s

/-- The first items of a port's queue are accepted or take effect, in order (R488). -/
def camTake (s : State) (n : Nat) (k : Nat) : State :=
  let p := camAt s n
  let now := p.queue.take k
  let evs := now.filter camIsEvent
  let s := camHoldMax s n (evs.zip p.holds)
  now.foldl (camItem n) (onCam s n fun p => { p with queue := p.queue.drop k, holds := p.holds.drop evs.length })

/-- Everything that waits in a port is accepted, and held events take effect in order (R488). -/
def camDrain (s : State) (n : Nat) : State := camTake s n (camAt s n).queue.length

/-- The captured bytes at the front are accepted, and the events held behind them take effect; later bytes and events
wait on (R488). -/
def camRelease (s : State) (n : Nat) : State :=
  let q := (camAt s n).queue
  let bytes := (q.takeWhile fun i => !camIsEvent i).length
  camTake s n (bytes + ((q.drop bytes).takeWhile camIsEvent).length)

/-- An event takes effect at once, or is held behind captured bytes. -/
def camEvent (s : State) (n : Nat) (i : CamItem) : State :=
  if (camAt s n).queue.isEmpty then camItem n s i
  else onCam s n fun p => { p with queue := p.queue ++ [i], holds := p.holds ++ [0] }

/-- Held events wait for a further time. -/
def camTick (d : Rat) (p : CamPort) : CamPort := { p with holds := p.holds.map fun h => h + d }

/-! ### Packets (R486, R487, R494) -/

/-- A packet header at a port: whether the packet is kept (R486). -/
def csiHeader (s : State) (n : Nat) (h : CsiHdr) : State × Bool :=
  if !csiEnabled s n then (s, false)
  else
    match h.ecc with
    | .uncorrectable => (csiError s n 1, false)
    | .corrected =>
      let s := csiError s n 0
      if h.vc.val = csiFld s n 3 2 then (s, true) else (csiError s n 6, false)
    | .ok => if h.vc.val = csiFld s n 3 2 then (s, true) else (csiError s n 6, false)

/-- The open frame is closed (R494). -/
def camClose (s : State) (n : Nat) : State :=
  wrN (onCam s n fun p => { p with isOpen := false }) (Reg.csiLinesLast n) (camAt s n).lines

/-- A Frame Start of the port's virtual channel. -/
def camStart (s : State) (n : Nat) : State :=
  let s := if (camAt s n).isOpen then camClose (csiError s n 5) n else s
  let s := onCam s n fun p => { p with started := true, isOpen := true, frames := p.frames + 1, lines := 0, dropping := false }
  camEvent s n .frame

/-- The effect of FRAME_START. -/
def frameStartEffect (s : State) (port : Fin 4) (h : CsiHdr) : State :=
  match csiHeader s port.val h with
    | (s, true) => camStart s port.val
    | (s, false) => s

/-- Whether a Line Start is that of a line which the source position has synthesised: half a period has not passed since
(R50; DESIGN CHOICE, log entry 69). -/
def lateLine (s : State) (n : Nat) : Bool :=
  match ((camAt s n).queue.filter camGivesPos).getLast? with
  | some i => decide (i = .synth)
  | none => (srcPos s (4 + n)).synth && decide (2 * (srcPos s (4 + n)).elapsed < posP s (4 + n))

/-- Whether it is that of a line which LT has synthesised, by the same reading. -/
def lateLineLt (s : State) (n : Nat) : Bool :=
  match ((camAt s n).queue.filter camGivesLine).getLast? with
  | some i => decide (i = .synthLt)
  | none => s.ltb.synthLine && decide (s.ltb.active = 4 + n) && decide (2 * s.ltb.elapsed < ltP s)

/-- A line of the open frame begins; the first one opens line 0 and is no event of its own. -/
def camLineStart (s : State) (n : Nat) : State :=
  let p := camAt s n
  if !p.isOpen then s
  else
    let s := onCam s n fun p => { p with lines := p.lines + 1, dropping := false }
    if p.lines = 0 then s
    else if lateLine s n && lateLineLt s n then cameraLine s (4 + n) true true
    else camEvent s n (.line (lateLine s n) (lateLineLt s n))

/-- The effect of LINE_START. -/
def lineStartEffect (s : State) (port : Fin 4) (h : CsiHdr) (long : Bool) : State :=
  match csiHeader s port.val h with
    | (s', keep) =>
      let s1 := if long then s else s'
      if keep && decide (csiLs s port.val ≠ long) then camLineStart s1 port.val else s1

/-- A Frame End of the port's virtual channel (R492, R494). -/
def camEnd (s : State) (n : Nat) : State :=
  if !(camAt s n).isOpen then csiError s n 5
  else
    let s := camClose s n
    let fe := rd s (Reg.csiFeSignal n)
    if bit fe 31 then camEvent s n (.signal (fld fe 0 16) (camAt s n).frames) else s

/-- The effect of FRAME_END. -/
def frameEndEffect (s : State) (port : Fin 4) (h : CsiHdr) : State :=
  match csiHeader s port.val h with
    | (s, true) => camEnd s port.val
    | (s, false) => s

/-! ### Captured lines (R489 to R491) -/

/-- A line's bytes at an address, as writes of the bytes that are there. -/
def lineItems (f : Nat → List Byte → CamItem) (a : Nat) (bs : List (Option Byte)) : List CamItem :=
  (presentRuns 0 bs).map fun r => f (a + r.1) r.2

/-- The slot of the line window for line l (R490). -/
def csiSlot (s : State) (n l : Nat) : Nat :=
  rdF s (Reg.csiWin n) 16 6 * 65536 + l % max 1 (rdF s (Reg.csiWin n) 0 12) * rdF s (Reg.csiWinStride n) 0 17

/-- The place of line l of the present frame in its frame buffer (R491). -/
def csiBuffer (s : State) (n l : Nat) : Nat :=
  let k := (camAt s n).frames - 1
  rd64 s (Reg.csiFbBaseLo n) + k % (csiFld s n 12 2 + 1) * rdN s (Reg.csiFbStride n) + l * rdN s (Reg.csiFbPitch n)

/-- What line l stores, for the modes of the port. -/
def csiWrites (s : State) (n l : Nat) (bs : List (Option Byte)) : List CamItem :=
  (if csiSheet s n && !(camAt s n).sheetLost then
    lineItems (.sheet (csiCluster s n)) (csiSlot s n l) (bs.take (rdF s (Reg.csiWinStride n) 0 17)) else []) ++
  (if csiDram s n && decide (l < csiHeight s n) then
    lineItems .dram (csiBuffer s n l) (bs.take (rdN s (Reg.csiFbPitch n))) else [])

/-- The payload of a long packet that the port captures. -/
def camStore (s : State) (n : Nat) (crcOk : Bool) (bytes : List Byte) (accepted : Bool) : State :=
  let s := if accepted then camDrain s n else s
  let l := camLine s n
  let s := if crcOk then s else wrN (csiError s n 2) (Reg.csiErrLine n) (l % 2 ^ 16)
  if csiFld s n 10 2 = 0 ∨ (camAt s n).dropping then s
  else
    let fmt := csiFmt s n
    let want := csiStored fmt (csiUnpack s n) (csiWidth s n)
    let k := s.freeCtr
    let all := csiLayout k fmt (csiUnpack s n) bytes
    let s := { s with freeCtr := k + 4 }
    let s := if (all.filter Option.isSome).length ≠ want ∨ csiPartial fmt (csiUnpack s n) bytes.length ∨ (csiDram s n ∧ csiHeight s n ≤ l) then csiFlag s n 3 else s
    let room := 16384 - camWaiting s n
    let full := !accepted && decide (room < bytes.length)
    let s := if full then onCam (csiError s n 4) n fun p => { p with dropping := true } else s
    let kept := (csiLayout k fmt (csiUnpack s n) (if full then bytes.take room else bytes)).take want
    let items := csiWrites s n l kept
    if accepted then items.foldl (camItem n) s else onCam s n fun p => { p with queue := p.queue ++ items }

/-- The effect of LONG_PACKET. -/
def longPacketEffect (s : State) (port : Fin 4) (h : CsiHdr) (dt : Fin 64) (crcOk : Bool) (bytes : List Byte) (accepted : Bool) : State :=
  match csiHeader s port.val h with
    | (s, false) => s
    | (s, true) =>
      if csiDt (csiFmt s port.val) ≠ some dt.val then csiError s port.val 6
      else if !(camAt s port.val).isOpen then s
      else camStore s port.val crcOk bytes accepted

/-! ### Enable and disable (R495) -/

/-- Whether an enable with the configuration stored is refused. -/
def csiBad (s : State) (n : Nat) : Bool :=
  let w := csiWidth s n
  let wl := rdF s (Reg.csiWin n) 0 12
  let stride := rdF s (Reg.csiWinStride n) 0 17
  let c := csiCluster s n
  let pitch := rdN s (Reg.csiFbPitch n)
  let fbStride := rdN s (Reg.csiFbStride n)
  let nb := csiFld s n 12 2
  decide (3 < csiFmt s n) || decide (csiFld s n 1 2 = 3) ||
    (!csiUnpack s n && ((decide (csiFmt s n = 1) && decide (w % 4 ≠ 0)) || (decide (csiFmt s n = 2) && decide (w % 2 ≠ 0)))) ||
    (csiSheet s n && (decide (wl = 0) || decide (stride % 64 ≠ 0) || !inService s c ||
      decide (streamOf s c * 65536 < rdF s (Reg.csiWin n) 16 6 * 65536 + wl * stride))) ||
    (csiDram s n && (decide (pitch = 0) || decide (fbStride = 0) ||
      decide (usable s < rd64 s (Reg.csiFbBaseLo n) + (nb + 1) * fbStride)))

/-- The lanes of a port that is enabled train: CSI_n_EVENT_DELAY takes the delay of their count and rate, which the spec
leaves to the port (R487, R497; log entry 78). -/
def csiTrain (s : State) (n : Nat) : State :=
  let (k, s) := drawFree s
  wr s (Reg.csiEventDelay n) (Config.freeWord k)

/-- A write of CSI_n_CTRL (R495). -/
def csiCtrlWrite (s : State) (n : Nat) (v : Word) : State :=
  let v := v &&& 0x3FFF
  if csiEnabled s n then
    if bit v 0 then s
    else layerRecheck (onCam (clrReg s (Reg.csiCtrl n) 1) n fun p => { p with started := false, isOpen := false, queue := [], holds := [] })
  else
    let s := wr s (Reg.csiCtrl n) (v &&& ~~~ (1 : Word))
    if !bit v 0 then s
    else if csiBad s n then csiFlag s n 8
    else csiTrain (onCam (wr s (Reg.csiCtrl n) v) n fun _ => {}) n

/-- Whether a register of an enabled port ignores writes (R495). -/
def csiFixed (s : State) (off : Nat) : Bool :=
  (List.range 4).any fun n => csiEnabled s n && decide (Reg.csiCtrl n < off) && decide (off < Reg.csiFeSignal n)

/-- Sheet capture of a port stops: its bytes that wait for the sheet are not written, and the events held behind nothing
else take effect (R488, R490). -/
def camSheetStop (s : State) (n : Nat) : State :=
  let s := onCam s n fun p => { p with
    sheetLost := true
    queue := p.queue.filter fun i => match i with
      | .sheet _ _ _ => false
      | _ => true }
  camTake (csiFlag s n 7) n ((camAt s n).queue.takeWhile camIsEvent).length

/-- A cluster leaves service: sheet capture into it stops (R490). -/
def camClusterLost (s : State) (c : Nat) : State :=
  (List.range 4).foldl (fun s n =>
    if csiEnabled s n && csiSheet s n && decide (csiCluster s n = c) && !(camAt s n).sheetLost then camSheetStop s n
    else s) s

end Sys2Proof.Machine
end

