-- ==== Sys2Proof/Machine/CfeFetch.lean ====
section
/-!
DEFINITION. The CFE's fetch stage and front check (spec/04_uhlulo_protocol.md R112, R113, R128, R129, R135 to R137;
spec/05_contexts_and_objects.md R148, R149; spec/19_contention.md R520): the choice of a ring, the reading of a
descriptor, chains, and what the checks refuse.
-/

namespace Sys2Proof.Machine

/-! ### The front check (R129, R137, R148, R149) -/

/-- Causes of R137 that a descriptor shows. -/
def descCauses (d : Desc) : List (Nat × Bool) :=
  let op := descOp d
  let f := fun (i lo w : Nat) => fld (descWord d i) lo w
  let off := fun (i n : Nat) => decide ((descWord d i).toNat % n ≠ 0)
  let is := fun (l : List Nat) => l.contains op
  let vregs := dispVregs d
  let big := fun (n : Nat) => decide (n = 0 ∨ 2 ^ 31 < n)
  [(1, !is [1, 2, 3, 4, 5, 8, 9, 0x0A, 0x0B, 0x0C, 0x0D, 0x10, 0x12, 0x18, 0x19, 0x1A, 0x1F]),
   (2, (is [4] && off 2 32) || (is [8] && off 2 256) || (is [9] && (off 2 128 || off 3 16)) ||
      (is [0x0A] && (off 2 256 || off 4 8)) || (is [0x0C, 0x0D] && (off 2 4096 || off 3 4096 || off 5 4)) ||
      (is [0x10] && off 3 8) || (is [0x12] && off 3 64) || (is [0x19] && f 2 8 1 = 0 && off 3 65536) ||
      (is [0x1A] && (f 2 8 4 = 1 || f 2 8 4 = 4) && off 3 64) || (is [0x1F] && off 2 64)),
   (3, is [0x1F] && d.chained),
   (4, is [0x1F] && decide (f 3 0 17 = 0 ∨ 65536 < f 3 0 17)),
   (5, is [9] && decide (dispThreads d = 0 ∨ 1024 < dispThreads d)),
   (6, is [9] && decide (vregs < 8 ∨ 256 < vregs ∨ vregs % 8 ≠ 0)),
   (7, is [9] && decide (512 < dispBmem d)),
   (8, is [0x18] && f 4 0 2 = 0),
   (9, is [0x0C, 0x0D] && f 4 0 24 = 0),
   (10, is [0x10] && decide (f 4 0 13 = 0 ∨ 4096 < f 4 0 13)),
   (11, (is [0x19] && f 2 8 1 = 0 && f 4 0 32 = 0) || (is [0x1A] && decide (f 2 8 4 = 0 ∨ 4 < f 2 8 4))),
   (12, is [0x0B] && (f 5 2 2 = 3 || big (f 4 0 32) || big (f 4 32 32)))]

/-- The lowest cause of a list that holds (R137). -/
def lowestCause (cs : List (Nat × Bool)) : Option Nat := leastOf ((cs.filter Prod.snd).map Prod.fst)

/-- Whether a descriptor needs a ring of context 0: a privileged opcode, or a LIFT with a sheet side (R119, R201). -/
def descPrivileged (d : Desc) : Bool :=
  [0x19, 0x1A].contains (descOp d) || (decide (descOp d = 0x0B) && decide (fld (descWord d 5) 0 2 ≠ 0))

/-- The least object of some that a descriptor names outside a range. -/
def strayObject (objs : List (Nat × Bool)) : Option Result :=
  (leastOf ((objs.filter fun o => !o.2).map Prod.fst)).map fun o => notOwner 5 o

/-- What slot c does not own of what a descriptor names: the lowest kind, and its lowest index (R148). -/
def descStray (s : State) (c : Nat) (d : Desc) : Option Result :=
  let im := (ctxSlot s c).image
  let op := descOp d
  if descPrivileged d && decide (c ≠ 0) then some (notOwner 0 0)
  else if c = 0 then none
  else if op = 0x10 ∧ !bit im.outputs (fld (descWord d 2) 0 2) then some (notOwner 2 (fld (descWord d 2) 0 2))
  else if op = 0x0A ∧ bit (descWord d 3) 0 ∧ !bit im.cameras (fld (descWord d 3) 1 2) then some (notOwner 3 (fld (descWord d 3) 1 2))
  else if op = 0x08 ∧ descRace d ∧ !bit im.stripRings (descStripRing d) then some (notOwner 4 (descStripRing d))
  else
    let hdr := fld (descWord d 0) 40 16
    strayObject ((if bit (descWord d 0) 13 then [(hdr, inSignalRange s c hdr)] else []) ++
      (if op = 2 then [(descObj d, inSignalRange s c (descObj d))] else []) ++
      (if op = 3 then [(descObj d, inWaitRange s c (descObj d))] else []))

/-- Checks 1 to 4 of R129, with the unowned ring of R149. -/
def frontRefusal (s : State) (d : Desc) : Option Result :=
  if draining s then some { status := 0xF0, detail := 0 }
  else
    match d.ctx with
    | none => some (notOwner 1 d.id.ring)
    | some c =>
      if slotLost s c then some (lostResult s c)
      else
        match lowestCause (descCauses d) with
        | some k => some (malformed d.addr k)
        | none => descStray s c d

/-- A descriptor enters flight. -/
def appendDesc (s : State) (d : Desc) : State := { s with cfe := { s.cfe with descs := s.cfe.descs ++ [d] } }

/-- A CHAIN that has passed the front check leaves the stream's hold: it runs until its last descriptor is fetched. -/
def chainPass (s : State) (id : DescId) : State := onDesc s id fun d => { d with stage := .dispatched }

/-- A descriptor comes from the fetch, or from a DESC record, and passes the front check (R129). The state without
the descriptor and the answer true mean that check 5 waits for a remote read and the fetch is made again. -/
def acceptDesc (s : State) (d : Desc) : State × Bool :=
  let s1 := appendDesc s d
  match frontRefusal s1 d with
  | some r => (retireNow s1 d.id r, false)
  | none =>
    if descOp d = 0x1F then (chainPass s1 d.id, false)
    else if descOp d = 0x0A then
      match layerFront s1 d with
      | (s', .wait) => (retryWait s s', true)
      | (s', .fault f) => (retireNow (mmuCapture s' (descSlot d) f) d.id (faultResult f), false)
      | (s', .ok (some r)) => (retireNow s' d.id r, false)
      | (s', .ok none) => (s', false)
    else (s1, false)

/-! ### Chains (R135) -/

/-- The chain of a ring's pending CHAIN becomes active. -/
def chainStart (s : State) (n : Nat) : State :=
  match pendingChain s n with
  | none => s
  | some d => onRing s n fun r => { r with
      chain := some { next := (descWord d 2).toNat % 2 ^ 48, remaining := fld (descWord d 3) 0 17, seq := d.id.seq, fref := descFref d } }

/-- The effect of CHAIN. -/
def chainEffect (s : State) : State :=
  match (List.range 64).find? fun n => (pendingChain s n).isSome with
    | some n => chainStart s n
    | none => s

/-- An active chain ends with its CHAIN's status. -/
def chainEnd (s : State) (n : Nat) (r : Result) : State :=
  match (ringSt s n).chain with
  | none => s
  | some c => retireNow (onRing s n fun x => { x with chain := none }) { ring := n, seq := c.seq, stream := (ringSt s n).stream } r

/-- A descriptor of an active chain has been fetched: with the last one the chain ends and the CHAIN retires. -/
def chainAdvance (s : State) (n : Nat) : State :=
  match (ringSt s n).chain with
  | none => s
  | some c =>
    if c.remaining ≤ 1 then chainEnd s n { status := 0 }
    else onRing s n fun x => { x with chain := some { c with next := (c.next + 64) % 2 ^ 48, remaining := c.remaining - 1 } }

/-! ### Fetch (R128, R520) -/

/-- Whether a ring has a descriptor to fetch. -/
def fetchVisible (s : State) (n : Nat) : Bool :=
  decide (0 < cntSub (rd s (Reg.ringSqTail n)) (rd s (Reg.ringSqHead n))) || chainGoing s n

/-- What the twin logic demands of a fetch (R533, R534, R538, R540). -/
def twinAllows (s : State) (n : Nat) : Bool :=
  if !twinRing s n then true
  else if twinState s = 0 then true
  else if twinState s = 1 then false
  else if twinRole s = 2 then false
  else !mirroring s || mirrorFits s 80

/-- The SEQ that a ring's next descriptor takes. -/
def nextSeq (s : State) (n : Nat) : Nat := rdN s (Reg.ringSeq n)

/-- Whether ring n is able to fetch (R128). -/
def fetchAble (s : State) (n : Nat) : Bool :=
  ringEnabled s n && fetchVisible s n && decide (ringInflight s n < max 1 (rdF s (Reg.ringLimit n) 0 10)) &&
    decide (s.cfe.descs.length < 2048) &&
    decide (cntSub (rd s (Reg.ringCqTail n)) (rd s (Reg.ringCqHead n)) + ringInflight s n < 2 ^ ringLog2 s n) &&
    !ringUpdating s n && twinAllows s n

/-- The class of a ring at the fetch scheduler (R520). -/
def ringClass (s : State) (n : Nat) : Nat := match ringOwner s n with
  | some c => (ctxSlot s c).image.cls
  | none => 3

/-- The rank of a ring at the fetch scheduler: round robin within its pool (R520). -/
def fetchRank (s : State) (n : Nat) : Rank :=
  let c := ringClass s n
  { cls := c, since := (n + 63 - (s.con.fetchLast[1 + c % 4]?).getD 63) % 64, ring := n }

/-- Ring pairs able to fetch. -/
def fetchCands (s : State) : List (Rank × Nat) :=
  ((List.range 64).filter (fetchAble s)).map fun n => (fetchRank s n, n)

/-- The requester number of the fetch stage at other devices. -/
def fetchOwner : Nat := 2 ^ 56

/-- The CFE's fault of a failed fetch: access 3 (R125). -/
def fetchFault (f : MFault) : MFault := { f with access := 3 }

/-- Where the next ring entry of ring n lies. -/
def entryAddr (s : State) (n : Nat) : Nat := rd64 s (Reg.ringSqBaseLo n) + 64 * (rdN s (Reg.ringSqHead n) % 2 ^ ringLog2 s n)

/-- The eight words of 64 bytes. -/
def descWords (bs : List Byte) : List DWord := (wordsLE 8 bs).map fun w => BitVec.ofNat 64 w

/-- Reads the next ring entry: device memory through the L2, or host memory (R109). -/
def entryRead (s : State) (n : Nat) : State × AccRes (List Byte) :=
  let a := entryAddr s n
  if bit (rd0 s (Reg.ringCfg n)) 9 then
    match hostRead s a 64 (a % 2 ^ 48) with
    | (s, .fault f) => (s, .fault (fetchFault f))
    | r => r
  else
    match l2ReadN s a 64 with
    | (s, _, some e) => (s, .fault { reason := 8, access := 3, addr := e, detail := e })
    | (s, bs, none) => (s, .ok bs)

/-- Reads the next descriptor of ring n: chained in the owner's address space, or a ring entry. The bytes of a chained
descriptor on a ring that has lost its owner cannot be read. -/
def descRead (s : State) (n : Nat) : State × AccRes (List Byte) :=
  match (ringSt s n).chain, ringOwner s n with
  | some c, some o => match vaRead s (.unit fetchOwner) o c.next 64 accDesc with
    | (s, .fault f) => (s, .fault (fetchFault f))
    | r => r
  | some _, none => (s, .ok [])
  | none, _ => entryRead s n

/-- F_ref of the entry that ring n fetches next: the frame of the doorbell that made it visible, or that of its
CHAIN (R63). -/
def fetchFref (s : State) (n : Nat) : Nat :=
  match (ringSt s n).chain with
  | some c => c.fref
  | none =>
    let h := rd s (Reg.ringSqHead n)
    match (ringSt s n).bells.find? fun b => decide (0 < cntSub (BitVec.ofNat 32 b.1) h) && decide (cntSub (BitVec.ofNat 32 b.1) h < 2 ^ 31) with
    | some b => b.2
    | none => 0

/-- The descriptor that ring n fetches next, with its words. -/
def fetchedDesc (s : State) (n : Nat) (words : List DWord) : Desc :=
  let g := gateResolve (fetchFref s n) (fld ((words[0]?).getD 0) 16 20)
  let a := match (ringSt s n).chain with
    | some c => c.next
    | none => entryAddr s n
  { id := { ring := n, seq := nextSeq s n, stream := (ringSt s n).stream }, ctx := ringOwner s n, words := words, addr := a % 2 ^ 48
    chained := (ringSt s n).chain.isSome, gate := g
    urgency := if bit ((words[0]?).getD 0) 8 then urgencyOf s g else 0 }

/-- The fetch takes its SEQ, and a ring entry moves SQ_HEAD past it (R111, R112). -/
def fetchCount (s : State) (n : Nat) : State :=
  let chained := (ringSt s n).chain.isSome
  let s := wr s (Reg.ringSeq n) (rd s (Reg.ringSeq n) + 1)
  if chained then s
  else
    let h := rd s (Reg.ringSqHead n) + 1
    onRing (wr s (Reg.ringSqHead n) h) n fun r => { r with bells := r.bells.filter fun b => decide (BitVec.ofNat 32 b.1 ≠ h) }

/-- The DESC record of a fetched descriptor (R537, R559). -/
def descRecord (d : Desc) : TwinRec :=
  recW0 2 d.id.ring d.id.seq :: BitVec.ofNat 64 (descFref d) :: (List.range 8).map fun i => descWord d i

/-- A fetch that failed: FAULT_PAGE at its SEQ, the context is lost, and a chain that it belonged to ends. No byte of the
descriptor was read: its words count as 0, so its record shows OPCODE 0 and GATED 0 (DESIGN CHOICE, log entry 12). -/
def fetchFailed (s : State) (n : Nat) (f : MFault) : State :=
  let d := fetchedDesc s n []
  let s := mmuCapture (appendDesc (fetchCount s n) d) (descSlot d) f
  let s := retireNow s d.id (faultResult f)
  if d.chained then
    match d.ctx with
    | some c => chainEnd s n (lostResult s c)
    | none => chainEnd s n { status := 0 }
  else s

/-- Ring n fetches its next descriptor (R128, R129, R135). -/
def fetchRing (s0 : State) (n : Nat) : State :=
  let s := chainStart s0 n
  match descRead s n with
  | (s', .wait) => retryWait s0 s'
  | (s', .fault f) => fetchFailed s' n f
  | (s', .ok bs) =>
    let d := fetchedDesc s' n (descWords bs)
    let s' := fetchCount s' n
    let s' := if twinRing s' n && mirroring s' then sendData s' (descRecord d) else s'
    match acceptDesc (if d.chained then chainAdvance s' n else s') d with
    | (s', true) => retryWait s0 s'
    | (s', false) => s'

/-- DESCRIPTOR_FETCH: the fetch scheduler chooses a ring, which fetches (R520). -/
def fetchStep (s : State) : State :=
  let (sh, c) := schedChoose s s.con.fetch (fetchCands s)
  match c with
  | none => onCon s fun x => { x with fetch := sh }
  | some (r, n) =>
    let s := fetchRing s n
    onCon s fun x => { x with fetch := schedServe s sh r 1, fetchLast := setAt x.fetchLast (1 + r.cls % 4) n }

end Sys2Proof.Machine
end

