-- ==== Sys2Proof/Machine/Raster.lean ====
section
/-!
DEFINITION. Tile jobs (spec/14_tiles_and_bins.md R415 to R423, R428 to R431): the checks of the tile section, placement,
fragment heats, the application of their results in submission order, the store operations and the end.
-/

namespace Sys2Proof.Machine

/-! ### Checks at hand-over (R415, R431) -/

/-- COMPRESS of target c, as far as it is used. -/
def tgtPacked (p : GeoPass) (race : Bool) (c : Nat) : Bool :=
  decide (tgtFld p c 1 41 1 = 1) && !(race && decide (c = 0))

/-- Cause 94 for colour target c. -/
def tgtMisaligned (p : GeoPass) (race : Bool) (c : Nat) : Bool :=
  let va := tgtFld p c 0 0 48
  let pitch := tgtFld p c 1 0 32
  if race && decide (c = 0) then false
  else if tgtPacked p race c then decide (va % 4096 ≠ 0 ∨ tgtFld p c 4 0 64 % 4 ≠ 0)
  else decide (va % 256 ≠ 0 ∨ pitch % 256 ≠ 0 ∨ pitch < passWidth p * fmtBytes (tgtFmt p c))

/-- The causes of R431, for a pass with RACE as given. -/
def tileCauses (p : GeoPass) (race : Bool) : List (Nat × Bool) :=
  let cs := List.range (min 8 (passNcol p))
  let vregs := passVregs p
  let any := fun (f : Nat → Bool) => cs.any f
  [(90, decide (passWidth p = 0 ∨ 16384 < passWidth p ∨ passHeight p = 0 ∨ 16384 < passHeight p)),
   (91, decide (1 < passFld p 32 32 2 ∨ 8 < passNcol p)),
   (92, decide (passHeats p = 0 ∨ 32 < passHeats p ∨ vregs < 8 ∨ 256 < vregs ∨ vregs % 8 ≠ 0 ∨ vregs < 2 + passNvary p ∨
      vregs < passFld p 35 32 8 + 4 * passNcol p) || (decide (passFld p 32 41 1 = 1) && decide (vregs < passFld p 35 40 8 + 1))),
   (93, any fun c => decide (6 < tgtFmt p c) || (tgtSrgb p c && decide (1 < tgtFmt p c))),
   (94, decide (passWord p 33 % 128 ≠ 0 ∨ passWord p 34 % 16 ≠ 0 ∨ passFld p 37 0 48 % 4096 ≠ 0 ∨ passFld p 40 0 48 % 1024 ≠ 0) ||
      any (tgtMisaligned p race)),
   (95, any fun c => tgtPacked p race c && [2, 5, 6].contains (tgtFmt p c)),
   (96, race && decide (passNcol p = 0 ∨ tgtFld p 0 1 39 2 = 0)),
   (97, any fun c => decide (tgtFld p c 2 0 1 = 1) &&
      (([1, 5, 12, 16].any fun lo => decide (12 < tgtFld p c 2 lo 4)) || [9, 20].any fun lo => decide (4 < tgtFld p c 2 lo 3))),
   (98, (any fun c => decide (tgtFld p c 1 37 2 = 3 ∨ tgtFld p c 1 39 2 = 3)) ||
      decide (passFld p 36 4 2 = 3 ∨ 1 < passFld p 36 6 2 ∨ passFld p 40 48 2 = 3 ∨ 1 < passFld p 40 50 2))]

/-- The refusal of R415, if the tile window or the fragment registers cannot be provided. -/
def footprintRefusal (s : State) (p : GeoPass) : Option Result :=
  let need := tileGranules p * 65536
  let area := leastArea s (clustersInService s)
  let regs := passHeats p * passVregs p / 8
  if area < need then some { status := 0x12, detail := need % 2 ^ 32 + area % 2 ^ 32 * 2 ^ 32 }
  else if 192 < regs then some { status := 0x12, detail := regs * 1024 % 2 ^ 32 + 196608 * 2 ^ 32 }
  else none

/-! ### Jobs -/

/-- Tile jobs on a core, oldest first. -/
def jobsOn (s : State) (core : Nat) : List TileJob := s.work.tiles.filter fun t => decide (t.core = core)

/-- Stores a changed tile job. -/
def putJob (s : State) (j : TileJob) : State :=
  onWork s fun w => { w with tiles := w.tiles.map fun t => if t.id = j.id ∧ t.tile = j.tile then j else t }

/-- The block of a tile job. -/
def jobBlk (s : State) (j : TileJob) : Option Blk :=
  (coreOf s j.core).blocks.find? fun b => decide (b.id = j.id) && decide (b.kind = .tile) && decide (b.idx = j.tile)

/-- The block that holds a tile job's resources; its heats have no window (R431). -/
def tileBlk (s : State) (p : GeoPass) (core t : Nat) : Blk :=
  let d := descOf s p.id
  { id := p.id, kind := .tile, idx := t, core := core, slot := descSlot d, cls := descClass s d
    code := passWord p 33, vregs := passVregs p, slots := passHeats p }

/-- A tile of a race pass is placed: its strip takes its slot, and is spoiled when its clusters differ or it has no
place (R442, R443). -/
def racePlace (s : State) (p : GeoPass) (t : Nat) : State :=
  let d := descOf s p.id
  if !descRace d then s
  else
    let n := descStripRing d
    let k := t / max 1 (passTx p)
    let cs := clustersInService s
    let bad := decide (sringTps s n ≤ t % max 1 (passTx p) / max 1 cs.length)
    let f := fun (st : Strip) => { st with
      placed := st.placed + 1, clusters := some (st.clusters.getD cs)
      spoiled := st.spoiled || bad || decide (st.clusters.getD cs ≠ cs) }
    onRace (onStrip s n d.id k f) n fun r => { r with slots := setAt r.slots (k % max 1 (sringDepth s n)) (some (d.id, k)) }

/-- The state with a tile job changed. -/
def onTile (s : State) (j : TileJob) (f : TileJob → TileJob) : State :=
  onWork s fun w => { w with tiles := w.tiles.map fun t => if t.id = j.id ∧ t.tile = j.tile then f t else t }

/-- A piece of a tile's loads that counts as done once it is. -/
def loadCounted (p : GeoPass) (j : TileJob) (s : State) (x : LoadPiece) : TileRes :=
  match loadPiece p j s x with
  | .ok s => .ok (onTile s j fun t => { t with loadedPieces := t.loadedPieces + 1 })
  | r => r

/-- The loads of a placed tile job go on until they are done, fail, or wait for another device or a CMP instance. -/
def tileLoad (s : State) (j : TileJob) : State :=
  match passOf s j.id with
  | none => s
  | some p =>
    match tileAll (loadCounted p j) ((loadPieces s p j.tile).drop j.loadedPieces) (descAccess s j.id) with
    | .ok s => onTile (remoteFlush s (tileOwner j.core)) j fun t => { t with loaded := true }
    | .fault s f => unitFault s (descOf s j.id) f
    | .wait s => s

/-- A core's top candidate is placed, when it is a tile job that fits and that the window allocator would serve: its
window is zeroed, and its loads begin (R416, R417). -/
def tilePlace (s : State) (core : Nat) : State :=
  match placeTop s core with
  | (s, some (r, .tile id t)) =>
    match winTop s (core / 4), passOf s id with
    | (s, some (wr, .tile id' core' t')), some p =>
      if id' = id ∧ core' = core ∧ t' = t ∧ candFits s core (coreOf s core).blocks (.tile id t) then
        match winAlloc s id t (core / 4) (tileGranules p) with
        | none => s
        | some (s, w) =>
          let s := winServed (winZero s w) (core / 4) wr
          let s := racePlace (putBlock s (tileBlk s p core t)) p t
          let s := onPass s id fun g => { g with tilesPlaced := g.tilesPlaced ++ [t] }
          let j : TileJob := { id := id, tile := t, core := core, window := w, clusters := clustersInService s }
          let s := onWork s fun x => { x with tiles := x.tiles ++ [j] }
          tileLoad (placeServed s core r (tileNeed p).heats) j
      else s
    | (s, _), _ => s
  | (s, _) => s

/-- TILE_JOB_PLACE on a core: the loads of a job placed before go on, or the next job is placed. -/
def tileJobPlace (s : State) (core : Nat) : State :=
  match (jobsOn s core).find? fun j => !j.loaded && descRuns s j.id with
  | some j => tileLoad s j
  | none => tilePlace s core

/-! ### Quads and fragment heats (R421, R422) -/

/-- Pixel of lane l of a quad of a tile, in the tile. -/
def quadPixel (quad l : Nat) : Nat × Nat := (2 * (quad % 16) + l % 2, 2 * (quad / 16) + l / 2)

/-- Covered samples of the four pixels of a quad. -/
def quadCover (p : GeoPass) (q : Prim) (t quad : Nat) : List Nat :=
  (List.range 4).map fun l => pixelCover p q (tileX p t + (quadPixel quad l).1) (tileY p t + (quadPixel quad l).2)

/-- Early tests are made (R421). -/
def passEarly (p : GeoPass) : Bool := decide (passFld p 32 40 1 = 1) && decide (passFld p 32 41 1 = 0)

/-- The tests of the samples of a mask at pixel (x, y) of a tile, with the depth given or interpolated: those that passed. -/
def pixelTest (s : State) (p : GeoPass) (w : Window) (q : Prim) (t x y mask : Nat) (z : Option Word) :
    State × Except MFault Nat :=
  (List.range (passSamples p)).foldl (fun (acc : State × Except MFault Nat) k =>
    match acc.2 with
    | .error _ => acc
    | .ok m =>
      if !mask.testBit k then acc
      else
        let (s, z) := match z with
          | some z => (acc.1, z)
          | none => orFree acc.1 (depthAt q (samplePt (passSamples p) (tileX p t + x) (tileY p t + y) k))
        match sampleTest s p w q x y k z with
        | (s, .error f) => (s, .error f)
        | (s, .ok true) => (inc64 s (Reg.rbSamplesPassedLo (w.cluster)) 1, .ok (m + 2 ^ k))
        | (s, .ok false) => (s, .ok m)) (s, .ok 0)

/-- Early tests of a quad's covered samples: the samples that passed, lane by lane. -/
def quadTest (s : State) (p : GeoPass) (w : Window) (q : Prim) (t quad : Nat) (cover : List Nat) :
    State × Except MFault (List Nat) :=
  cover.zipIdx.foldl (fun (acc : State × Except MFault (List Nat)) c =>
    match acc.2 with
    | .error _ => acc
    | .ok l =>
      let (x, y) := quadPixel quad c.2
      match pixelTest acc.1 p w q t x y c.1 none with
      | (s, .ok m) => (s, .ok (l ++ [m]))
      | (s, .error f) => (s, .error f)) (s, .ok [])

/-- Up to 8 qualifying quads of a primitive, each with its samples, and the quad to go on with. -/
def gatherQuads (p : GeoPass) (w : Window) (q : Prim) (t : Nat) :
    List Nat → State → List (Nat × List Nat) → State × Except MFault (List (Nat × List Nat) × Nat)
  | [], s, acc => (s, .ok (acc, 256))
  | k :: ks, s, acc =>
    if acc.length = 8 then (s, .ok (acc, k))
    else
      let cover := quadCover p q t k
      if cover.all fun m => decide (m = 0) then gatherQuads p w q t ks s acc
      else if passEarly p then
        match quadTest s p w q t k cover with
        | (s, .error f) => (s, .error f)
        | (s, .ok ms) => gatherQuads p w q t ks s (if ms.all fun m => decide (m = 0) then acc else acc ++ [(k, ms)])
      else gatherQuads p w q t ks s (acc ++ [(k, cover)])

/-- Start values of the lanes of some quads: v0, v1 and the varyings at each pixel centre (R420, R422). -/
def fragRegs (p : GeoPass) (q : Prim) (t : Nat) (qs : List (Nat × List Nat)) (s : State) : State × List (Nat × Nat × Nat) :=
  qs.zipIdx.foldl (fun acc e =>
    (List.range 4).foldl (fun (acc : State × List (Nat × Nat × Nat)) l =>
      let lane := 4 * e.2 + l
      let (dx, dy) := quadPixel e.1.1 l
      let x := tileX p t + dx
      let y := tileY p t + dy
      let c := samplePt 1 x y 0
      let acc := (acc.1, acc.2 ++ [(0, lane, x + 2 ^ 16 * y), (1, lane, (e.1.2[l]?).getD 0)])
      (List.range (passNvary p)).foldl (fun (acc : State × List (Nat × Nat × Nat)) k =>
        let (s, v) := orFree acc.1 (varyAt p q k c)
        (s, acc.2 ++ [(2 + k, lane, v.toNat)])) acc) acc) (s, [])

/-- Lanes of some quads with a sample left, as a mask. -/
def coverLanes (qs : List (Nat × List Nat)) : Nat :=
  (qs.flatMap Prod.snd).zipIdx.foldl (fun m e => if e.1 = 0 then m else m + 2 ^ e.2) 0

/-- A heat of some quads is launched in a tile job (R422). -/
def fragLaunch (s : State) (p : GeoPass) (j : TileJob) (prim : Nat) (q : Prim) (qs : List (Nat × List Nat)) : State :=
  let (s, vs) := fragRegs p q j.tile qs s
  let n := 4 * qs.length
  let lm := 2 ^ n - 1
  let p1 := coverLanes qs
  let args := passWord p 34
  let age := (coreOf s j.core).ageCtr
  let h := newHeat (j.heatNo % 2 ^ 32) age lm [prim % 2 ^ 32, j.tile, b2n q.back, j.heatNo, args % 2 ^ 32, args / 2 ^ 32, n] vs
  let h := { h with preds := storePut regZero h.preds 1 (BitVec.ofNat 32 p1), helper := lm - p1 }
  let f := fun (b : Blk) => if b.id = j.id ∧ b.kind = .tile ∧ b.idx = j.tile then { b with heats := b.heats ++ [h] } else b
  let s := onCore s j.core fun x => { x with blocks := x.blocks.map f, ageCtr := x.ageCtr + 1 }
  let c := j.core / 4
  let s := satInc (satInc s (Reg.rbQuadsLaunched c) qs.length) (Reg.rbHelperLanes c) (popCount (lm - p1) 32)
  let run : FragRun := { age := age, prim := prim, quads := qs.map fun e => (e.1 % 16, e.1 / 16), cover := qs.flatMap Prod.snd }
  putJob s { j with heatNo := j.heatNo + 1, runs := j.runs ++ [run] }

/-- The list entries of a tile job from the one given on: quads are gathered until a heat is launched. -/
def fragNext (p : GeoPass) : List Nat → State → TileJob → State
  | [], s, j => putJob s j
  | e :: es, s, j =>
    match p.prims[e]? with
    | none => fragNext p es s { j with cur := j.cur + 1, quad := 0 }
    | some q =>
      match gatherQuads p j.window q j.tile ((List.range 256).drop j.quad) s [] with
      | (s, .error f) => unitFault s (descOf s j.id) f
      | (s, .ok (qs, next)) =>
        let j := if next < 256 then { j with quad := next } else { j with cur := j.cur + 1, quad := 0 }
        if qs = [] then fragNext p es s j else fragLaunch s p j e q qs

/-- Whether a tile job has its targets loaded, a free heat slot and list entries left. -/
def jobLaunches (s : State) (j : TileJob) : Bool :=
  match jobBlk s j, passOf s j.id with
  | some b, some p => j.loaded && descRuns s j.id && decide (b.heats.length < passHeats p) && decide (j.cur < (tileList p j.tile).length)
  | _, _ => false

/-- FRAGMENT_HEAT_LAUNCH on a core: the oldest tile job that can launches its next heat. -/
def fragmentLaunch (s : State) (core : Nat) : State :=
  match (jobsOn s core).find? fun j => jobLaunches s j with
  | none => s
  | some j => match passOf s j.id with
    | some p => fragNext p ((tileList p j.tile).drop j.cur) s j
    | none => s

/-! ### Results (R407, R423) -/

/-- The depth that a fragment program returns, clamped; a NaN stays one. -/
def fragDepth (p : GeoPass) (z : Word) : Word :=
  let n := passF p 8 0
  let f := passF p 8 32
  if fvNan (fv z) then z else fMax (fMin z (fMax n f)) (fMin n f)

/-- One pixel of a run whose program returned colours and perhaps a depth: tests not yet made, then every target. -/
def fragPixel (p : GeoPass) (w : Window) (q : Prim) (t : Nat) (h : Heat) (s : State) (lane x y cover : Nat) :
    State × Except MFault Unit :=
  let z := if passFld p 32 41 1 = 1 then some (fragDepth p (hv h (passFld p 35 40 8) lane)) else none
  let (s, m) := if passEarly p then (s, .ok cover) else pixelTest s p w q t x y cover z
  match m with
  | .error f => (s, .error f)
  | .ok m =>
    (List.range (passNcol p)).foldl (fun acc c =>
      let src := (List.range 4).map fun i => hv h (passFld p 35 32 8 + 4 * c + i) lane
      (onesBelow m 4).foldl (fun (acc : State × Except MFault Unit) k =>
        match acc.2 with
        | .error _ => acc
        | .ok _ => sampleBlend acc.1 p w c x y k src) acc) (s, .ok ())

/-- The result of one run is applied: every lane that is no helper and has not left LM. -/
def fragApply (s : State) (p : GeoPass) (j : TileJob) (r : FragRun) (h : Heat) : State × Except MFault Unit :=
  match p.prims[r.prim]? with
  | none => (s, .ok ())
  | some q =>
    r.cover.zipIdx.foldl (fun (acc : State × Except MFault Unit) e =>
      match acc.2 with
      | .error _ => acc
      | .ok _ =>
        if e.1 = 0 ∨ !h.lm.testBit e.2 then acc
        else
          let (qx, qy) := (r.quads[e.2 / 4]?).getD (0, 0)
          let (x, y) := quadPixel (16 * qy + qx) (e.2 % 4)
          fragPixel p j.window q j.tile h acc.1 e.2 x y e.1) (s, .ok ())

/-- Runs at the front of a job whose heats have ended are applied in submission order. -/
def fragDrain (p : GeoPass) (j : TileJob) : List FragRun → State → State
  | [], s => putJob s { j with runs := [] }
  | r :: rs, s =>
    match r.result with
    | none => putJob s { j with runs := r :: rs }
    | some h => match fragApply s p j r h with
      | (s, .ok _) => fragDrain p j rs s
      | (s, .error f) => unitFault s (descOf s j.id) f

/-- The first heat of a job's block that has ended with every operation. -/
def jobEnded (s : State) (j : TileJob) : Option Heat :=
  (jobBlk s j).bind fun b => b.heats.find? fun h => h.ended && h.ops.isEmpty

/-- FRAGMENT_HEAT_END on a core: a heat's outputs are kept, its slot is freed, and results are applied in order. -/
def fragmentEnd (s : State) (core : Nat) : State :=
  match (jobsOn s core).find? fun j => (jobEnded s j).isSome && descRuns s j.id with
  | none => s
  | some j =>
    match jobEnded s j, passOf s j.id with
    | some h, some p =>
      let f := fun (b : Blk) => if b.id = j.id ∧ b.kind = .tile ∧ b.idx = j.tile then
        { b with heats := b.heats.filter fun x => decide (x.age ≠ h.age) } else b
      let s := onCore s core fun x => { x with blocks := x.blocks.map f }
      let g := fun (r : FragRun) => if r.age = h.age then { r with result := some (heatQuiet h) } else r
      fragDrain p { j with runs := j.runs.map g } (j.runs.map g) s
    | _, _ => s

/-! ### Stores (R413, R414, R418, R428, R429, R446) -/

/-- A piece of a tile's store operations. -/
inductive StorePiece where
  /-- A row (VA, window offset, bytes) of a target. -/
  | row (va off n : Nat)
  /-- Row y of colour target c, resolved. -/
  | resolved (c y va : Nat)
  /-- A block of a compressed target: sample and place, resolved or not. -/
  | packed (c k i : Nat) (res : Bool)
  /-- The tile of colour target 0 for the strip ring. -/
  | strip
deriving DecidableEq, Repr

/-- The tap of a core's raster back end. -/
def tileTap (core : Nat) : Tap := { cluster := some (core / 4) }

/-- Bytes of a tile window, uncorrectable words being a fault. -/
def tileBytesAt (s : State) (w : Window) (o n : Nat) : State × Except MFault (List Byte) :=
  match winRead s w o n with
  | (s, bs, none) => (s, .ok bs)
  | (s, _, some bad) => (s, .error (sheetBadFault w.cluster bad accLoad (sheetPa w.cluster o true)))

/-- A digested write of a target's bytes at a VA. -/
def tileWriteVa (s : State) (id : DescId) (core va : Nat) (bs : List Byte) : State × AccRes Unit :=
  let d := descOf s id
  match vaWrite s (.unit (tileOwner core)) (descSlot d) va (bs.map some) with
  | (s, .ok u) => (digestWrite s d (tileTap core) (va % 2 ^ 48) (bs.map some), .ok u)
  | x => x

/-- The same as a piece of a tile's store operations. -/
def tileWriteOut (s : State) (id : DescId) (core va : Nat) (bs : List Byte) : TileRes :=
  match tileWriteVa s id core va bs with
  | (s, .ok _) => .ok s
  | (s, .fault f) => .fault s f
  | (s', .wait) => .wait (retryWait s s')

/-- The resolved pixels of n pixels of row y of colour target c, as numbers. -/
def resolvedRow (s : State) (p : GeoPass) (w : Window) (c y n : Nat) : State × Except MFault (List Nat) :=
  let b := fmtBytes (tgtFmt p c)
  let one := fun (s : State) (x : Nat) =>
    (List.range (passSamples p)).foldl (fun (acc : State × Except MFault (List Nat)) k =>
      match acc.2 with
      | .error _ => acc
      | .ok l => match tileRead acc.1 w (planeOff p c + planeElem x y k b) b with
        | (s, .ok v) => (s, .ok (l ++ [v]))
        | (s, .error f) => (s, .error f)) (s, .ok [])
  (List.range n).foldl (fun (acc : State × Except MFault (List Nat)) x =>
    match acc.2 with
    | .error _ => acc
    | .ok l => match one acc.1 x with
      | (s, .ok vs) => (s, .ok (l ++ [if passSamples p = 1 then vs.headD 0 else resolvePix (tgtFmt p c) (tgtSrgb p c) vs]))
      | (s, .error f) => (s, .error f)) (s, .ok [])

/-- Resolved rows of n pixels, from row y on. -/
def resolvedRows (p : GeoPass) (w : Window) (c n : Nat) : List Nat → State → List (List Nat) → State × Except MFault (List (List Nat))
  | [], s, acc => (s, .ok acc)
  | y :: ys, s, acc => match resolvedRow s p w c y n with
    | (s, .ok r) => resolvedRows p w c n ys s (acc ++ [r])
    | (s, .error f) => (s, .error f)

/-- Pixels as bytes. -/
def pixBytesOf (b : Nat) (vs : List Nat) : List Byte := vs.flatMap fun v => leBytes v b

/-- What a tile's bytes come to as the original of a block. -/
def tileOrig (x : State × Except MFault (List Byte)) : State × AccRes (List Byte) := match x with
  | (s, .ok bs) => (s, .ok bs)
  | (s, .error f) => (s, .fault f)

/-- A block of 4 KiB of a compressed target is packed and stored with its size entry (R429). -/
def storeBlock (s : State) (p : GeoPass) (j : TileJob) (c k i : Nat) (read : State → State × AccRes (List Byte)) : TileRes :=
  let n := packedIdx p j.tile c k i
  match cmpAcquire s (.tile p.id j.tile true) with
  | (s, none) => .wait s
  | (s, some u) =>
    match cmpPack s u (tileOwner j.core) read (fun s st => tileWriteVa s p.id j.core (tgtFld p c 0 0 48 + 4096 * n) st)
        (fun s e => tileWriteVa s p.id j.core (tgtFld p c 4 0 64 + 4 * n) e) with
    | (s, .fault f) => .fault s f
    | (s, .wait) => .wait s
    | (s, .ok _) => .ok s

/-- The term of one pixel of a strip digest (R446). -/
def stripTerm (p : GeoPass) (b x y v : Nat) : DWord :=
  mix (BitVec.ofNat 64 ((y * passWidth p + x) * b)) (BitVec.ofNat 64 v)

/-- The digest of some rows of pixels of tile t. -/
def stripSum (p : GeoPass) (t b : Nat) (rows : List (List Nat)) : DWord :=
  rows.zipIdx.foldl (fun a r => r.1.zipIdx.foldl (fun a v => a + stripTerm p b (tileX p t + v.2) (tileY p t + r.2) v.1) a) 0

/-- A tile of a race pass goes to its place in the ring, unless the strip is not stored (R435, R441, R443). -/
def ringStore (s : State) (p : GeoPass) (j : TileJob) (rows : List (List Nat)) : State :=
  let d := descOf s p.id
  let n := descStripRing d
  let b := fmtBytes (tgtFmt p 0)
  let tx := j.tile % max 1 (passTx p)
  let k := j.tile / max 1 (passTx p)
  let pos := tx / max 1 j.clusters.length
  let s := onStrip s n p.id k fun st => { st with digest := st.digest + stripSum p j.tile b rows }
  let stored := fun (s : State) => ringSettle (onStrip s n p.id k fun st => { st with stored := st.stored + 1 }) n
  match racePass (raceRing s n) p.id with
  | none => s
  | some rp =>
    if rp.superseded || rp.discarded || !sringOn s n || decide (sringTps s n ≤ pos) then stored s
    else
      let o := sringSlot s n (k % max 1 (sringDepth s n)) + pos * 1024 * b
      let c := j.core / 4
      let s := rows.zipIdx.foldl (fun s r => sheetWrite s c (o + r.2 * 32 * b) ((pixBytesOf b r.1).map some)) s
      stored (onStrip s n p.id k fun st => { st with homes := st.homes ++ [(tx, c, pos)] })

/-- One piece of a tile's store operations. -/
def storePiece (p : GeoPass) (j : TileJob) (s : State) (x : StorePiece) : TileRes :=
  let w := j.window
  match x with
  | .row va off n => match tileBytesAt s w off n with
    | (s, .ok bs) => tileWriteOut s p.id j.core va bs
    | (s, .error f) => .fault s f
  | .resolved c y va => match resolvedRow s p w c y (tileW p j.tile) with
    | (s, .ok vs) => tileWriteOut s p.id j.core va (pixBytesOf (fmtBytes (tgtFmt p c)) vs)
    | (s, .error f) => .fault s f
  | .packed c k i res =>
    let b := fmtBytes (tgtFmt p c)
    if res then
      storeBlock s p j c 0 i fun s => tileOrig (match resolvedRows p w c 32 (List.range 32) s [] with
        | (s, .ok rs) => (s, .ok (((pixBytesOf b rs.flatten).drop (4096 * i)).take 4096))
        | (s, .error f) => (s, .error f))
    else storeBlock s p j c k i fun s => tileOrig (tileBytesAt s w (planeOff p c + k * 1024 * b + 4096 * i) 4096)
  | .strip => match resolvedRows p w 0 (tileW p j.tile) (List.range (tileH p j.tile)) s [] with
    | (s, .ok rs) => .ok (ringStore s p j rs)
    | (s, .error f) => .fault s f

/-- A piece that counts as done once it is. -/
def storeCounted (p : GeoPass) (j : TileJob) (s : State) (x : StorePiece) : TileRes :=
  match storePiece p j s x with
  | .ok s => .ok (onTile s j fun t => { t with storedPieces := t.storedPieces + 1 })
  | r => r

/-- The pieces of the store operation of colour target c. -/
def colourPieces (s : State) (p : GeoPass) (t c : Nat) : List StorePiece :=
  let op := tgtFld p c 1 39 2
  let res := decide (op = 2) && decide (passSamples p = 4)
  let all := if res then [0] else List.range (passSamples p)
  let rows := fun (f : (Nat × Nat × Nat) × Nat → StorePiece) => (tileRows p t c all).zipIdx.map f
  if op = 0 then []
  else if raceTarget s p c then [.strip]
  else if tgtFld p c 1 41 1 = 1 then (packedBlocks p c all).map fun b => .packed c b.1 b.2 res
  else if res then rows fun r => .resolved c r.2 r.1.1
  else rows fun r => .row r.1.1 r.1.2.1 r.1.2.2

/-- All pieces of a tile's store operations, in order. -/
def storePieces (s : State) (p : GeoPass) (t : Nat) : List StorePiece :=
  let ds := fun (c : Nat) => (tileRows p t c (List.range (passSamples p))).map fun r => StorePiece.row r.1 r.2.1 r.2.2
  (List.range (passNcol p)).flatMap (colourPieces s p t) ++
    (if passDepth p ∧ passFld p 36 6 2 = 1 then ds 8 else []) ++
    if passStencil p ∧ passFld p 40 50 2 = 1 then ds 9 else []

/-- Whether a tile job's list is shaded and its stores are not done. -/
def jobStores (s : State) (j : TileJob) : Bool :=
  match passOf s j.id with
  | some p => j.loaded && !j.stored && descRuns s j.id && j.runs.isEmpty && decide ((tileList p j.tile).length ≤ j.cur)
  | none => false

/-- TILE_STORE on a core: the store operations of the oldest shaded tile job. -/
def tileStore (s : State) (core : Nat) : State :=
  match (jobsOn s core).find? fun j => jobStores s j with
  | none => s
  | some j => match passOf s j.id with
    | none => s
    | some p =>
      match tileAll (storeCounted p j) ((storePieces s p j.tile).drop j.storedPieces) (descAccess s j.id) with
      | .ok s => onTile s j fun t => { t with stored := true }
      | .fault s f => unitFault s (descOf s j.id) f
      | .wait s => s

/-! ### Ends -/

/-- Strips of a race pass that count as substituted (R447). -/
def passSubst (s : State) (d : Desc) : Nat :=
  if !descRace d then 0
  else
    let n := descStripRing d
    match racePass (raceRing s n) d.id with
    | none => 0
    | some p => (p.strips.filter fun st => decide (st.shown = some false) || (st.shown.isNone && !stripReady s n p st)).length

/-- A pass whose last tile job has ended reports completion (R417, R429, R447). -/
def passDone (s : State) (id : DescId) : State :=
  match passOf s id with
  | none => s
  | some p =>
    if p.tilesEnded < passTiles p then s
    else
      let d := descOf s id
      let n := passSubst s d
      let s := if p.badBlocks = 0 then s
        else noteDesc s id { status := 0x41, detail := p.badTile % 2 ^ 32 + p.badBlocks % 2 ^ 32 * 2 ^ 32 }
      let s := if n = 0 then s else noteDesc s id { status := 1 }
      let s := if descRace d then onRacePass s (descStripRing d) id fun r => { r with finished := true } else s
      unitDone s id (n % 2 ^ 32 + passBytes (slotHeap s (descSlot d)) id % 2 ^ 32 * 2 ^ 32)

/-- TILE_JOB_END on a core: a stored tile job, every store of which has been accepted, frees its resources. -/
def tileJobEnd (s : State) (core : Nat) : State :=
  let waits := s.vzl.reqs.any fun r => decide (r.owner = tileOwner core) && r.data.isNone
  match (jobsOn s core).find? fun j => j.stored && descRuns s j.id with
  | none => s
  | some j =>
    if waits then s
    else
      let s := remoteFlush s (tileOwner core)
      let s := onWork s fun w => { w with tiles := w.tiles.filter fun t => !(decide (t.id = j.id) && decide (t.tile = j.tile)) }
      let s := winFree s fun w => decide (w.owner = j.id) && decide (w.part = j.tile)
      let s := onCore s core fun x => { x with blocks := x.blocks.filter fun b =>
        !(decide (b.id = j.id) && decide (b.kind = .tile) && decide (b.idx = j.tile)) }
      let s := inc64 s (Reg.rbTilesLo (core / 4)) 1
      let d := descOf s j.id
      let cols := passCols s j.id
      let s := onPass s j.id fun p => { p with tilesEnded := p.tilesEnded + 1 }
      let s := if descRace d then
          ringSettle (onStrip s (descStripRing d) j.id (j.tile / max 1 cols) fun st => { st with ended := st.ended + 1 }) (descStripRing d)
        else s
      passDone s j.id

end Sys2Proof.Machine
end

