-- ==== Sys2Proof/Machine/CfeDispatch.lean ====
section
/-!
DEFINITION. The CFE's hold, dispatch and retirement stages (spec/04_uhlulo_protocol.md R130 to R134,
spec/05_contexts_and_objects.md R153, R157, R165, R714, spec/19_contention.md R516 to R523): the choice of the next
descriptor, its hand-over to its unit, the descriptors that the CFE executes itself, retirement, cancellation and the
watchdog.
-/

namespace Sys2Proof.Machine

/-! ### Hold (R130) -/

/-- Whether a WAIT is satisfied and presented for dispatch (R157). -/
def waitPresented (d : Desc) : Bool := d.satisfied.isSome && d.presented

/-- Whether the gate policy of a descriptor drops it now (R66). -/
def gateDrops (s : State) (d : Desc) : Bool := descGated d && bit (descWord d 0) 9 && gateReached s d.gate

/-- Descriptors with unplaced blocks in the placement engine, across DISPATCH, tile shading and layer steps (R242). -/
def engineEntries (s : State) : Nat :=
  (s.cfe.descs.filter fun d => decide (descOp d = 9) && decide (d.stage = .dispatched) && !d.started).length +
    (s.work.grids.filter fun g => decide (g.placed.length < g.total)).length +
    (s.work.passes.filter fun p => passBinned p && decide (p.tilesPlaced.length < passTiles p)).length +
    (s.work.layers.filter fun l => (List.range 16).any fun c => (List.range 4).any fun q => (readySteps s c q).any fun x =>
      decide (x.2.1 = l.id) && decide (stepKind (layerStep l x.2.2) = 5)).length

/-- Whether a unit has room for a descriptor (R198, R242, R368, R380, R471, R508). -/
def unitRoom (s : State) (d : Desc) : Bool :=
  let running := fun (ops : List Nat) => (s.cfe.descs.filter fun e => ops.contains (descOp e) && decide (e.stage = .dispatched))
  match descOp d with
  | 0x08 => decide ((s.work.passes.filter fun p => p.inGeo).length < 4)
  | 0x09 => decide (engineEntries s < 64)
  | 0x0A => decide (layersHeld s < 16)
  | 0x0B => decide ((running [0x0B]).length < 256)
  | 0x0C | 0x0D => decide ((cmpJobs s (cmpFewer s)).length < 4)
  | 0x10 => decide (outQueued s (commitOutput d) < 4)
  | 0x12 => match scalerOut s (loadScaler d) with
    | some m => decide (outQueued s m < 4)
    | none => decide ((dspHeld s s.dsp.loads).length < 4)
  | _ => true

/-- The descriptors of one stream, from the oldest on, that may be dispatched now: an ungated one only as the first of
those held, a gated one also ahead of others, none behind a hold (R68, R130, R131). The flag says that the present one
is the oldest in flight, which a BARRIER demands; the second, that no earlier one is held. -/
def streamCands (s : State) : Bool → Bool → List Desc → List Desc
  | _, _, [] => []
  | oldest, first, d :: ds =>
    if d.stage ≠ .held then
      if descOp d = 5 ∧ d.stage = .dispatched then [] else streamCands s false first ds
    else if descBarrier d && !oldest then []
    else if descIsWait d then
      if (descGated d || first) && (waitPresented d || (d.evaluated && gateDrops s d)) then [d] else []
    else if (descGated d || first) && unitRoom s d then d :: streamCands s false false ds
    else streamCands s false false ds

/-- The candidates of the dispatch scheduler. -/
def dispatchCands (s : State) : List (Rank × Desc) :=
  let ranked := fun (d : Desc) => ({ descRank s d with item := [b2n d.rep] }, d)
  let streams := ((s.cfe.descs.filter fun d => !d.rep).map fun d => (d.id.ring, d.id.stream)).eraseDups
  (streams.flatMap fun t => (streamCands s true true (s.cfe.descs.filter fun d =>
    decide ((d.id.ring, d.id.stream) = t) && !d.rep)).map ranked) ++
    (s.cfe.descs.filter fun d => d.rep && decide (d.stage = .held) && unitRoom s d).map ranked

/-! ### The class budget (R521, R522) -/

/-- Whether an opcode is charged (R521). -/
def descCharged (d : Desc) : Bool := !d.rep && [0x08, 0x09, 0x0A, 0x0B, 0x0C, 0x0D, 0x10, 0x12, 0x18].contains (descOp d)

/-- The refusal of R522, if the slot's budget has no room. -/
def budgetRefusal (s : State) (d : Desc) : Option Result :=
  let im := (ctxSlot s (descSlot d)).image
  if descCharged d && decide (im.budget ≠ 0) && decide (rdN s (Reg.conBudget (descSlot d)) = 0) then
    some { status := 0x10, detail := im.cls % 4 + (s.ltb.frame + 1) % 2 ^ 32 * 2 ^ 32 }
  else none

/-- REMAIN falls by 1 for a charged descriptor of a slot with a budget (R522). -/
def budgetCharge (s : State) (d : Desc) : State :=
  let c := descSlot d
  if descCharged d && decide ((ctxSlot s c).image.budget ≠ 0) then wrN s (Reg.conBudget c) (rdN s (Reg.conBudget c) - 1) else s

/-! ### Hand-over -/

/-- Opcodes and forms that the repeat of a segment runs again (R547). -/
def descRepeatable (d : Desc) : Bool := [8, 9, 0x0A, 0x0B, 0x0C, 0x0D, 0x18].contains (descOp d) && !descUnrepeatable d

/-- A descriptor as its repeat runs it: no gate, no BARRIER and no header signal (R547). -/
def repeatCopy (d : Desc) : Desc :=
  { id := d.id, ctx := d.ctx, words := modAt d.words 0 fun w => w &&& ~~~ 0x2500, addr := d.addr, chained := d.chained, rep := true }

/-- A dispatched descriptor of a twin ring is kept for the repeat of its segment (R547). -/
def noteSegment (s : State) (id : DescId) : State :=
  match findDesc s id with
  | some d =>
    if twinPaired s && twinRing s id.ring && descRepeatable d && !d.rep then
      onHlt s fun h => { h with seg := modAt h.seg id.ring fun g => { g with descs := g.descs ++ [repeatCopy d] } }
    else s
  | none => s

/-- A descriptor is dispatched: its watchdog starts, and its place in the order of dispatch is noted (R153). -/
def markDispatched (s : State) (id : DescId) : State :=
  let s := noteSegment s id
  let k := s.cfe.dispatchCtr
  let s := { s with cfe := { s.cfe with dispatchCtr := k + 1 } }
  onDesc s id fun d => { d with
    stage := .dispatched, dispatchNo := k, lines := 0, urgency := if descGated d then urgencyOf s d.gate else 0 }

/-- The lowest cause that a render-pass state block shows, with the VA of its section (R404, R431, R439). -/
def passCause (s : State) (d : Desc) (p : GeoPass) : Option Result :=
  let race := descRace d
  let va := (descWord d 2).toNat
  (lowestCause (geoCauses p ++ tileCauses p race ++ (if race then raceCauses s d p else []))).map fun k =>
    malformed (if k < 90 then va else va + 256) k

/-- The render pass that a state block describes. -/
def passOfBytes (d : Desc) (bs : List Byte) : GeoPass := { id := d.id, sect := (wordsLE 88 bs).map fun w => BitVec.ofNat 64 w }

/-- What refuses a render pass at hand-over (R404, R415, R431, R439). -/
def passRefusal (s : State) (d : Desc) (p : GeoPass) : Option Result :=
  match passCause s d p with
  | some r => some r
  | none => match footprintRefusal s p with
    | some r => some r
    | none => if descRace d then raceRefusal s d p else none

/-- The state block of a RENDER_PASS is read: the words up to the first colour target, then the NCOL targets in use; the
others are not read, and stand as 0 (R408). -/
def passRead (s : State) (d : Desc) : State × AccRes (List Byte) :=
  let va := (descWord d 2).toNat
  match vaRead s (.unit geoOwner) (descSlot d) va 384 accLoad with
  | (s, .ok bs) =>
    match vaRead s (.unit geoOwner) (descSlot d) (va + 384) (40 * min 8 (passNcol (passOfBytes d bs))) accLoad with
    | (s, .ok ts) => (s, .ok (bs ++ ts ++ List.replicate (704 - 384 - ts.length) 0))
    | r => r
  | r => r

/-- A RENDER_PASS whose state block has been read is handed to the GEO, or retires (R380). -/
def passHandover (s : State) (d : Desc) (bs : List Byte) : State :=
  let p := passOfBytes d bs
  match passRefusal s d p with
  | some r => retireNow s d.id r
  | none =>
    let s := onWork s fun w => { w with passes := w.passes ++ [p] }
    if descRace d then raceHandover s d else s

/-- A descriptor other than a RENDER_PASS is handed over (R131). -/
def unitHandover (s : State) (d : Desc) : State :=
  match descOp d with
  | 0x03 => retireDesc (unitDone s d.id (d.satisfied.getD 0)) d.id
  | 0x09 =>
    let g := (dispNeed d).granules
    if 192 < g then retireNow s d.id { status := 0x12, detail := g * 1024 % 2 ^ 32 + 196608 * 2 ^ 32 } else s
  | 0x0A => layerHandover s d.id
  | 0x0C => cmpBind s d true
  | 0x0D => cmpBind s d false
  | 0x10 => onOut s (commitOutput d) fun o => { o with queue := o.queue ++ [d.id] }
  | 0x12 => match scalerOut s (loadScaler d) with
    | some m => onOut s m fun o => { o with queue := o.queue ++ [d.id] }
    | none => onDsp s fun x => { x with loads := x.loads ++ [d.id] }
  | 0x1A => onCtx s fun x => { x with queue := x.queue ++ [d.id] }
  | _ => s

/-- A dropped or refused descriptor retires; a pending WAIT frees its entry (R158). -/
def dispatchRetire (s : State) (d : Desc) (r : Result) : State :=
  let s := retireNow s d.id r
  if descIsWait d then grantWaitEntries (syncWaiters s (descObj d)) else s

/-- The cycle of hand-over: the gate policy, the class budget, then the unit (R131). The answer true means that the
state block of a RENDER_PASS waits for a remote read, and the hand-over is made again. -/
def dispatchDesc (s : State) (d : Desc) : State × Bool :=
  if gateDrops s d then (dispatchRetire s d { status := 2, detail := 0 }, false)
  else
    match budgetRefusal s d with
    | some r => (dispatchRetire (satInc s Reg.conRefusedBudget 1) d r, false)
    | none =>
      let s1 := markDispatched (budgetCharge s d) d.id
      if descOp d = 0x08 then
        match passRead (descAccess s1 d.id) d with
        | (s', .wait) => (retryWait s s', true)
        | (s', .fault f) => (retireDesc (unitFault s' d f) d.id, false)
        | (s', .ok bs) => (passHandover s' d bs, false)
      else (unitHandover s1 d, false)

/-- CFE_DISPATCH: the dispatch scheduler's choice is handed over (R131, R519). -/
def dispatchStep (s : State) : State :=
  let (sh, c) := schedPick s s.con.dispatch (dispatchCands s)
  let s := onCon s fun x => { x with dispatch := sh }
  match c with
  | none => s
  | some (r, d) =>
    match dispatchDesc s d with
    | (s', true) => s'
    | (s', false) => onCon s' fun x => { x with dispatch := schedServe s' sh r 1 }

/-! ### Descriptors that the CFE executes (R119, R121, R155) -/

/-- The oldest dispatched descriptor of an opcode that the CFE executes. -/
def cfeNext (s : State) (op : Nat) (f : Desc → State → State) : State :=
  match oldestOf s fun d => decide (descOp d = op) with
  | some d => f d s
  | none => s

/-- Whether a twin ring's descriptor makes a sync change that both twins make themselves (R537). -/
def twinMade (s : State) (d : Desc) : Bool := twinRing s d.id.ring && decide (twinState s ≠ 0)

/-- A SIGNAL descriptor (R155): it waits while its change must wait for the mirror queue (R540); an uncorrectable
entry loses the context (R203). -/
def signalDesc (d : Desc) (s : State) : State :=
  if syncMustWait s (twinMade s d) then s
  else
    let (s, c, bad) := signalObj s (descObj d) (descValue d) (descSlot d) (twinMade s d)
    if bad then retireNow s d.id { status := 0x21, detail := syncAddr s (descObj d) % 2 ^ 48 }
    else retireDesc (unitDone s d.id c) d.id

/-- The timestamp record (R121). -/
def timestampBytes (s : State) (seq : Nat) : List Byte :=
  leBytes (ltNow s) 8 ++ leBytes s.ltb.refcount 8 ++ leBytes seq 4 ++ List.replicate 12 0

/-- A TIMESTAMP: the record in memory, and REFCOUNT in the completion record (R121). -/
def timestampDesc (d : Desc) (s : State) : State :=
  let rc := s.ltb.refcount
  let a := (descWord d 2).toNat
  if a = 0 then retireDesc (unitDone s d.id rc) d.id
  else
    match vaWrite (descAccess s d.id) (.unit fetchOwner) (descSlot d) a ((timestampBytes s d.id.seq).map some) with
    | (s', .wait) => retryWait s s'
    | (s', .fault f) => retireDesc (unitFault s' d f) d.id
    | (s', .ok _) => retireDesc (unitDone s' d.id rc) d.id

/-! ### Retirement (R132) -/

/-- Whether a descriptor is in flight. -/
def descLive (s : State) (id : DescId) : Bool := s.cfe.descs.any fun d => decide (d.id = id)

/-- The bin heap bytes of render passes that are no longer in flight return to their contexts (R226). -/
def sweepBins (s : State) : State :=
  let dead := (s.work.passes.filter fun p => !descLive s p.id).map GeoPass.id
  dead.foldl (fun s id => (List.range 128).foldl (fun s c =>
    let h := slotHeap s c
    if h.waiting.contains id || h.chunks.any fun k => k.uses.any fun u => decide (u.1 = id) then binReturn s c id else s) s) s

/-- The cores and clusters hold nothing of descriptors that are no longer in flight. -/
def sweepClu (s : State) : State :=
  let live := descLive s
  let core := fun (x : CoreSt) => { x with
    blocks := x.blocks.filter fun b => live b.id
    saved := x.saved.filter fun b => live b.id
    acquired := x.acquired.filter live
    tns := x.tns.filter fun o => live o.id
    parked := x.parked.filter fun o => live o.id }
  let cl := fun (x : ClusterSt) => { x with lifts := x.lifts.filter fun r => live r.id }
  { s with clu := { s.clu with cores := s.clu.cores.map core, clusters := s.clu.clusters.map cl } }

/-- The units' work of descriptors that are no longer in flight ends; a race pass keeps its strips (R448). -/
def sweepWork (s : State) : State :=
  let live := descLive s
  let ring := fun (r : RaceRing) => { r with passes := r.passes.map fun p => { p with finished := p.finished || !live p.id } }
  onWork s fun w => { w with
    grids := w.grids.filter fun g => live g.id
    cmp := w.cmp.map fun js => js.filter fun j => live j.id
    cmpCur := w.cmpCur.map fun c => c.filter fun x => live x.user.id
    cmpWaits := w.cmpWaits.filter fun u => live u.id
    layers := w.layers.filter fun l => live l.id
    passes := w.passes.filter fun p => live p.id
    current := w.current.filter live
    tiles := w.tiles.filter fun t => live t.id
    race := w.race.map ring }

/-- The DSP's and the CTX's queues hold only descriptors in flight. -/
def sweepQueues (s : State) : State :=
  let live := descLive s
  let out := fun (o : OutState) => { o with
    queue := o.queue.filter live, armed := o.armed.filter fun i => live i || decide (i = orphanId)
    writing := o.writing && (outWritingLive o live) }
  let s := { s with dsp := { s.dsp with
    outs := s.dsp.outs.map out, loads := s.dsp.loads.filter live
    scalers := s.dsp.scalers.map fun k => { k with staged := k.staged.filter fun t => live t.1 } } }
  onCtx s fun x => { x with queue := x.queue.filter live }
where
  /-- Whether the head of an output's queue, whose list is being read, is in flight. -/
  outWritingLive (o : OutState) (live : DescId → Bool) : Bool :=
    match o.queue.find? fun id => decide (some id ≠ o.armed) with
    | some id => live id
    | none => false

/-- The units let go of descriptors that are no longer in flight. -/
def unitSweep (s : State) : State :=
  let s := sweepQueues (sweepWork (sweepClu (sweepBins s)))
  let s := winFree s fun w => !descLive s w.owner
  ctx0Resume (onHlt s fun h => { h with layers := h.layers.filter fun e => descLive s e.1 })

/-! ### The repeat of a segment (R547) -/

/-- The exchange of ring n's CHECKPOINT, if one is under way. -/
def exchangeOf (s : State) (n : Nat) : Option Exchange := s.twin.exchanges.find? fun x => decide (x.id.ring = n)

/-- The state with ring n's exchange changed. -/
def onExchange (s : State) (n : Nat) (f : Exchange → Exchange) : State :=
  { s with twin := { s.twin with exchanges := s.twin.exchanges.map fun x => if x.id.ring = n then f x else x } }

/-- A repeat descriptor of ring n is in flight. -/
def repeatLive (s : State) (n : Nat) : Bool := s.cfe.descs.any fun d => d.rep && decide (d.id.ring = n)

/-- A descriptor of the repeat enters flight; a LAYER passes its front check again. The answer true: it waits. -/
def repeatEnter (s : State) (d : Desc) : State × Bool :=
  let s1 := appendDesc s d
  if descOp d = 0x0A then
    match layerFront s1 d with
    | (s', .wait) => (retryWait s s', true)
    | (s', .fault f) => (retireNow (mmuCapture s' (descSlot d) f) d.id (faultResult f), false)
    | (s', .ok (some r)) => (retireNow s' d.id r, false)
    | (s', .ok none) => (s', false)
  else (s1, false)

/-- The next descriptor of ring n's repeat runs once the one before has retired. -/
def repeatFeed (s : State) (n : Nat) : State :=
  match exchangeOf s n with
  | none => s
  | some x =>
    match x.left with
    | [] => s
    | d :: ds =>
      if !x.repeating || repeatLive s n then s
      else
        match repeatEnter s d with
        | (s', true) => s'
        | (s', false) => onExchange s' n fun x => { x with left := ds }

/-- Every ring's repeat goes on. -/
def repeatFeeds (s : State) : State := (s.twin.exchanges.map fun x => x.id.ring).foldl repeatFeed s

/-- Exchanges of CHECKPOINTs that are no longer in flight, or already decided, end, and with them their repeats. -/
def exchangeSweep (s : State) : State :=
  let live := fun (id : DescId) => s.cfe.descs.any fun d => decide (d.id = id) && !d.rep && decide (d.stage = .dispatched)
  let s := { s with twin := { s.twin with exchanges := s.twin.exchanges.filter fun x => live x.id } }
  let orphan := s.cfe.descs.filter fun d => d.rep && (exchangeOf s d.id.ring).isNone
  orphan.foldl (fun s d => dropDesc s d.id) s

/-- The next descriptor to retire: decided, its work stopped, lower ring index first, then lower SEQ in the stream
(R165, R710). -/
def nextDecided (s : State) : Option Desc :=
  let ds := s.cfe.descs.filter fun d => decide (d.stage = .decided) && descStopped s d.id
  (List.range 64).findSome? fun n => ds.find? fun d => decide (d.id.ring = n)

/-- RETIREMENT: the next decided descriptor retires (R132, R710). -/
def retireStep (s : State) : State :=
  match nextDecided s with
  | some d => repeatFeeds (unitSweep (exchangeSweep (retireDesc s d.id)))
  | none => s

/-! ### Cancellation (R165, R607, R714) -/

/-- Whether a cancelled descriptor is past the point where it stops: an armed COMMIT (R165). A CONTEXT_CTRL in the CTX
is no longer cancelled once it executes. -/
def cancelPast (s : State) (d : Desc) : Bool :=
  (decide (descOp d = 0x10) && decide (outArmed s (commitOutput d) = some d.id)) ||
    (decide (descOp d = 0x1A) && (match s.ctx.job with
      | some (.update _ _ (.desc i)) => decide (i = d.id)
      | some (.release _ (.desc i)) => decide (i = d.id)
      | _ => false))

/-- What a cancelled descriptor has still done before it stops: pages of a CACHE_RANGE; entries of a COMMIT, whose list it
reads whole before it writes the first (R714, R472). -/
def cancelWork (s : State) (d : Desc) (units : Nat) : State × Option MFault :=
  if descOp d = 0x18 then rangeRun s d ((rangeOf d).take units)
  else if descOp d = 0x10 ∧ outHead s (commitOutput d) = some d.id ∧ (outArmed s (commitOutput d)).isNone ∧ units ≠ 0 then
    let m := commitOutput d
    let n := fld (descWord d 4) 0 13
    match vaRead (descAccess s d.id) (.unit (dspOwner m)) (descSlot d) (descWord d 3).toNat (8 * n) accLoad with
    | (s, .ok bs) => ((((listWords n bs).take units).foldl (commitEntry m) (s, 0)).1, none)
    | (s, .fault f) => (s, some f)
    | (_, .wait) => (s, none)
  else (s, none)

/-- The chain of a stopped CHAIN ends. -/
def cancelChain (s : State) (d : Desc) : State :=
  if descOp d = 0x1F then onRing s d.id.ring fun r =>
    { r with chain := r.chain.filter fun c => decide (c.seq ≠ d.id.seq) }
  else s

/-- A cancelled descriptor has stopped at its unit's progress point, and its status is decided; its blocks that have stopped
have left their cores. One whose work still runs on to a quiet point or a progress point is not decided yet. -/
def cancelStop (s : State) (id : DescId) (units : Nat) : State :=
  let s := (List.range 64).foldl freeStopped s
  match findDesc s id with
  | none => s
  | some d =>
    if d.stage ≠ .dispatched ∨ d.cancel.isNone ∨ cancelPast s d ∨ !descStopped s id then s
    else
      match cancelWork s d units with
      | (s, some f) => unitFault s d f
      | (s, none) =>
        let now := ltNow s
        onDesc (cancelChain s d) id fun d => { d with stage := .decided, stamp := now }

/-! ### The watchdog (R153) -/

/-- An armed COMMIT stays armed when its descriptor is retired by the watchdog (R165). -/
def orphanCommit (s : State) (d : Desc) : State :=
  if descOp d = 0x10 ∧ outArmed s (commitOutput d) = some d.id then
    onOut s (commitOutput d) fun o => { o with armed := some orphanId }
  else s

/-- A dispatched descriptor whose lines have reached its slot's WATCHDOG faults. A CHAIN, which the fetch stage executes
and no unit is handed, is not timed (DESIGN CHOICE, log entry 12). -/
def watchdogCheck (s : State) (id : DescId) : State :=
  match findDesc s id with
  | none => s
  | some d =>
    let w := (ctxSlot s (descSlot d)).image.watchdog
    if d.stage = .dispatched ∧ descOp d ≠ 0x1F ∧ d.ctx.isSome ∧ w ≠ 0 ∧ w ≤ d.lines then
      decideDesc (orphanCommit s d) id { status := 0x24, detail := d.lines % 2 ^ 32 }
    else s

end Sys2Proof.Machine
end

