-- ==== Sys2Proof/Machine/TwinBase.lean ====
section
/-!
DEFINITION. The states of the twin pair (spec/20_twin_pair.md R530, R531, R551 to R555): entering CHECKED and
UNCHECKED, the HELLO record, and what a checker fault, a link-timing fault and a lost link do.
-/

namespace Sys2Proof.Machine

/-- The state with its twin logic changed. -/
def onTwin (s : State) (f : Twin → Twin) : State := { s with twin := f s.twin }

/-- The device enters a pair state with a cause; a change of state is an event (R530, R560). -/
def setTwinState (s : State) (st cause : Nat) : State :=
  let s' := wrF (wrF s Reg.hltTwinStatus 0 3 st) Reg.hltTwinStatus 3 2 cause
  if twinState s = st then s' else setEv s' Reg.hltTwinEvents 10

/-- IN_SERVICE of HLT_MAP. -/
def mapMask (s : State) : BitVec 16 := BitVec.ofNat 16 (rdF s Reg.hltMap 0 16)

/-- The HELLO record (R531, R559). -/
def helloRecord (s : State) : TwinRec :=
  [recW0 1 0 (twinRole s), BitVec.ofNat 64 (rd64 s Reg.hltTwinRingsLo), BitVec.ofNat 64 (rd64 s Reg.hltSaltSeedLo),
    BitVec.ofNat 64 (rdF s Reg.hltTwinCfg 0 8 + (mapMask s).toNat * 2 ^ 8 + rdN s Reg.grmFwVersion * 2 ^ 32)]

/-- CHECKED begins once a HELLO has been sent and a matching one received (R531). -/
def pairCheck (s : State) : State :=
  if twinState s = 1 ∧ s.twin.helloSent ∧ s.twin.helloOk then setTwinState s 2 0 else s

/-- A HELLO is sent in PAIRING (R531). -/
def sendHello (s : State) : State :=
  if twinState s = 1 then pairCheck (onTwin (sendCtrl s (helloRecord s)) fun t => { t with helloSent := true }) else s

/-- The VERDICT record (R549, R559). -/
def verdictRecord (ring : Nat) (v : VerdictRec) : TwinRec :=
  [recW0 8 ring (v.status % 256 + v.side % 4 * 2 ^ 8 + b2n v.kat * 2 ^ 10 + b2n v.cause.isSome * 2 ^ 11 + v.cause.getD 0 % 4 * 2 ^ 12),
    BitVec.ofNat 64 (v.n % 2 ^ 32)]

/-- The status with which a CHECKPOINT retires while the pair is UNCHECKED for a cause (R551, R554). -/
def uncheckedStatus (cause : Nat) : Nat := if cause = 1 then 0x32 else 0x33

/-- Every CHECKPOINT that waits for an exchange is decided with a status; DETAIL is its local D_S (R126, R554). -/
def endExchanges (s : State) (status : Nat) : State :=
  let xs := s.twin.exchanges
  let s := xs.foldl (fun s x =>
    decideDesc s x.id { status := status, detail := ((x.own1.getD x.own).ds).toNat }) s
  unitSweep (exchangeSweep s)

/-- Both kinds of records that wait for port T go (R553). -/
def mirrorStop (s : State) : State :=
  wrF (onTwin s fun t => { t with ctrlQ := [], dataQ := [] }) Reg.hltMirrorQueue 0 16 0

/-- The device enters UNCHECKED with a cause (R551 to R553); no repeat goes on. With LINK_TIMING the TWIN source is
lost on the secondary (R79). With LINK_DOWN mirroring stops. -/
def enterUnchecked (s : State) (cause : Nat) : State :=
  if !twinPaired s then s
  else
    let s := if cause < 3 then wearAdd s (deviceCounter (15 + cause)) 1 else s
    let s := setTwinState s 3 cause
    let s := endExchanges (onTwin s fun t => { t with retrained := false, resume := 0 }) (uncheckedStatus cause)
    let s := if cause = 2 ∧ twinRole s = 2 ∧ s.ltb.active = 10 ∧ s.ltb.flywheel = .none then ltbLose s else s
    if cause = 3 then syncDrain (s.ctx.syncQ.length + 1) (mirrorStop s) else s

/-- A VERDICT record that carries only a cause tells the peer (R551, R552). -/
def sendCause (s : State) (ring n cause : Nat) : State :=
  if twinLinked s then
    sendCtrl s (verdictRecord ring { status := uncheckedStatus cause, cause := some cause, n := n })
  else s

/-- CHECKER_FAULT of ring n's exchange: both twins enter UNCHECKED with cause CHECKER (R551). -/
def checkerFault (s : State) (ring n : Nat) (tell : Bool) : State :=
  let s := if tell then sendCause s ring n 1 else s
  enterUnchecked (setEv s Reg.hltTwinEvents 2) 1

/-- LINK_TIMING_FAULT: both twins enter UNCHECKED with cause LINK_TIMING (R552). -/
def linkTimingFault (s : State) : State :=
  if !twinPaired s then s else enterUnchecked (setEv (sendCause s 0 0 2) Reg.hltTwinEvents 3) 2

/-- Port T is DOWN (R553). -/
def linkDownTwin (s : State) : State := enterUnchecked s 3

/-- The number of ones of a register. -/
def onesOf (w : Word) : Nat := popCount w.toNat 32

/-- A register value with the PARITY bit that makes its number of ones even (R560). -/
def withParity (v : Nat) : Word :=
  let w := BitVec.ofNat 32 (v % 2 ^ 31)
  if onesOf w % 2 = 1 then w ||| 0x80000000 else w

/-- The parity of HLT_LINK_LATENCY and HLT_LINK_SKEW holds (R552). -/
def linkParityOk (s : State) : Bool :=
  decide (onesOf (rd0 s Reg.hltLinkLatency) % 2 = 0) && decide (onesOf (rd0 s Reg.hltLinkSkew) % 2 = 0)

/-- LATENCY in 1/256 REF cycle (R543). -/
def linkLatency (s : State) : Nat := fld (rd0 s Reg.hltLinkLatency) 0 24

/-- Lane offsets in the layout of HLT_LINK_SKEW, without PARITY (R560). -/
def skewWord (offsets : List Nat) : Nat := (offsets.take 4).zipIdx.foldl (fun a p => a + p.1 % 128 * 2 ^ (7 * p.2)) 0

/-- Port T has trained: the delay and the alignment are measured anew, and a pairing device sends a HELLO (R531, R571). -/
def portTTrained (s : State) (latency : Nat) (offsets : List Nat) : State :=
  let s := wr (wr s Reg.hltLinkLatency (withParity (latency % 2 ^ 24))) Reg.hltLinkSkew (withParity (skewWord offsets))
  sendHello (onTwin s fun t => { t with retrained := true })

end Sys2Proof.Machine
end

