-- ==== Sys2Proof/Machine/VzlLink.lean ====
section
/-!
DEFINITION. The Virzel link layer (spec/21_virzel_fabric.md R565 to R578): flits and their CRC, sending under credits
and replay, reception, retraining and training.
Transmission is taken at once: after a command every flit that credits and the replay buffer allow has been sent. The
number of a received DATA flit, and how many slots of NULL flits have passed before a flit, come with the commands.
-/

namespace Sys2Proof.Machine

/-! ### Flits (R565 to R567) -/

/-- One bit of the CRC of R567, most significant bit first. -/
def flitCrcBit (c : Nat) (b : Bool) : Nat :=
  let f := xor (c.testBit 15) b
  let c := 2 * c % 65536
  if f then c ^^^ 0x8BB7 else c

/-- CRC of bits [239:0] of a flit (R567). -/
def flitCrc (x : BitVec 256) : Nat := (List.range 240).foldl (fun c i => flitCrcBit c (bit x (239 - i))) 0xFFFF

/-- A flit with its CRC field. -/
def withCrc (x : BitVec 256) : BitVec 256 := x ||| BitVec.ofNat 256 (flitCrc x * 2 ^ 240)

/-- Whether a received flit's CRC is right (R567). -/
def crcOk (x : BitVec 256) : Bool := decide (fld x 240 16 = flitCrc x)

/-- TYPE, VC, SOP and ACK of a flit (R565). -/
def flitType (x : BitVec 256) : Nat := fld x 0 3
def flitVc (x : BitVec 256) : Nat := fld x 3 2
def flitSop (x : BitVec 256) : Bool := bit x 5
def flitAck (x : BitVec 256) : Nat := fld x 6 10

/-- A DATA flit (R565). -/
def dataFlitOf (f : VzlFlit) (ack : Nat) : BitVec 256 :=
  withCrc (BitVec.ofNat 256 (1 + f.vc % 4 * 2 ^ 3 + b2n f.sop * 2 ^ 5 + ack % 1024 * 2 ^ 6 + leValue (f.payload.take 28) * 2 ^ 16))

/-- Where credit field j lies in a LINK flit (R566). -/
def creditPos (j : Nat) : Nat :=
  if j < 3 then 18 + 10 * j else if j < 8 then 64 + 10 * (j - 3) else if j < 13 then 128 + 10 * (j - 8) else 192 + 10 * (j - 13)

/-- Where MARK_k lies in a LINK flit (R566). -/
def markPos (k : Nat) : Nat := if k = 3 then 228 else 64 * k + 52

/-- A LINK flit of a port (R566). -/
def linkFlitOf (p : VzlPort) (slot : Nat) (nak retrain : Bool) : BitVec 256 :=
  let cr := p.freed.zipIdx.foldl (fun a f => a + f.1 % 1024 * 2 ^ creditPos f.2) 0
  let mk := (List.range 4).foldl (fun a k => a + (k + slot % 1024 * 4) * 2 ^ markPos k) 0
  withCrc (BitVec.ofNat 256 (2 + p.expect % 1024 * 2 ^ 6 + b2n nak * 2 ^ 16 + b2n retrain * 2 ^ 17 + cr + mk))

/-! ### Slots and scrambling (R570) -/

/-- The next 32 bits of a lane's sequence, s_n = s_(n − 39) XOR s_(n − 58). -/
def scrHalf (r : BitVec 58) : BitVec 32 := ((r >>> 19) ^^^ r).setWidth 32

/-- A lane's register 32 bits on. -/
def scrNext (r : BitVec 58) : BitVec 58 := (r >>> 32) ||| ((scrHalf r).setWidth 58 <<< 26)

/-- The 64 bits of a lane's sequence in one slot, the first in bit 0. -/
def scrKey (r : BitVec 58) : BitVec 64 := scrHalf (scrNext r) ++ scrHalf r

/-- The sequence of all lanes in one slot: lane k's in bits 64k on (R565). -/
def dirKey (d : VzlDir) : BitVec 256 :=
  BitVec.ofNat 256 (d.lanes.foldr (fun r a => (scrKey r).toNat + 2 ^ 64 * a) 0)

/-- A direction n slots on. -/
def dirSkip : Nat → VzlDir → VzlDir
  | 0, d => d
  | n + 1, d => dirSkip n { slots := d.slots + 1, lanes := d.lanes.map fun r => scrNext (scrNext r) }

/-- A direction of a port that enters ACTIVE: slot 0, and lane k's register at 0x3FF_FFFF_FFFF_FFFF XOR k. -/
def dirStart : VzlDir :=
  { slots := 0, lanes := (List.range 4).map fun k => 0x3FFFFFFFFFFFFFF#58 ^^^ BitVec.ofNat 58 k }

/-- The bits that the lanes carry for a flit, and the flit that they carry: the flit XOR the sequence. -/
def scramble (d : VzlDir) (x : BitVec 256) : BitVec 256 := x ^^^ dirKey d

/-- A flit goes out in the transmitter's next slot. -/
def emitFlit (x : VzlPort) (mk : BitVec 256 → VzlSent) (flit : BitVec 256) : VzlPort :=
  { x with sent := x.sent ++ [mk (scramble x.tx flit)], tx := dirSkip 1 x.tx }

/-- A DATA flit goes out in the transmitter's next slot. -/
def emitData (num : Nat) (flit : BitVec 256) (x : VzlPort) : VzlPort := emitFlit x (.data num flit) flit

/-- NULL flits take the transmitter's next n slots. -/
def emitNulls (n : Nat) (x : VzlPort) : VzlPort :=
  if n = 0 then x else { x with sent := x.sent ++ [.null n], tx := dirSkip n x.tx }

/-- What the receiver of port p reads in the slot after `gap` more: the flit, descrambled. -/
def rxTake (s : State) (p gap : Nat) (wire : BitVec 256) : State × BitVec 256 :=
  let d := dirSkip gap (vzlPort s p).rxd
  (onPort s p fun x => { x with rxd := dirSkip 1 d }, scramble d wire)

/-- The payloads of a packet or record of some bytes: 28 bytes each, the last padded with zeros (R565). -/
def flitPayloads : Nat → List Byte → List (List Byte)
  | 0, _ => []
  | n + 1, bs => (bs.take 28 ++ List.replicate (28 - bs.length) 0) :: flitPayloads n (bs.drop 28)

/-- The DATA flits of a packet or record (R565). -/
def itemFlits (vc : Nat) (bs : List Byte) : List VzlFlit :=
  (flitPayloads (ceilDiv bs.length 28) bs).zipIdx.map fun p => { vc := vc, sop := decide (p.2 = 0), payload := p.1 }

/-! ### Credits (R576, R577) -/

/-- Slots of receive class j of port p (R577). -/
def classCap (p j : Nat) : Nat :=
  if p = 0 then (if j = 7 then 512 else if j = 15 then 32 else 16)
  else if j % 8 < 6 ∧ j % 8 / 2 = p - 1 then 192 else 0

/-- Credits that port p holds of the peer's class j (R577). -/
def credits (s : State) (p j : Nat) : Nat :=
  let x := vzlPort s p
  classCap p j + (x.granted[j]?).getD 0 - (x.spent[j]?).getD 0

/-- Slots of a receive class that are freed and not yet reported (R578). -/
def unreported (x : VzlPort) (j : Nat) : Nat := (x.freed[j]?).getD 0 - (x.reported[j]?).getD 0

/-- Slots of a receive buffer are freed (R576). -/
def freeSlots (s : State) (p cls n : Nat) : State :=
  if p < 4 then onPort s p fun x => { x with
    freed := modAt x.freed cls (· + n)
    freedAt := if unreported x cls = 0 then setAt x.freedAt cls x.tx.slots else x.freedAt }
  else s

/-! ### Sending (R574, R577, R578) -/

/-- The number of a port's next DATA flit. -/
def nextNum (x : VzlPort) : Nat := (x.ackNum + x.replay.length) % 1024

/-- A DATA flit goes out: it is kept for replay and counted (R574, R584). -/
def sendFlit (s : State) (p : Nat) (f : VzlFlit) : State :=
  let s := onPort s p fun x => { (emitData (nextNum x) (dataFlitOf f x.expect) x) with replay := x.replay ++ [f] }
  let s := inc64 s (Reg.vzlportTxFlitsLo p) 1
  if 2 ≤ f.vc then inc64 s Reg.hltMirrorFlitsLo 1 else s

/-- Whether the port may begin an item: credits for all of its flits (R577). -/
def itemFits (s : State) (p : Nat) (it : VzlItem) : Bool := decide (ceilDiv it.bytes.length 28 ≤ credits s p it.cls)

/-- The bytes of a mirror record. -/
def recBytes (r : TwinRec) : List Byte := r.flatMap fun w => leBytes w.toNat 8

/-- The first record of a mirror queue as an item; on port T only (R562). -/
def recItem (p vc cls : Nat) (q : List TwinRec) : Option VzlItem :=
  if p = 0 then q.head?.map fun r => { vc := vc, cls := cls, bytes := recBytes r } else none

/-- The first item of a VC in arrival order that may begin, of those that are the first of their class (R578, R582). -/
def firstFit (s : State) (p vc : Nat) : List Nat → List VzlItem → Option VzlItem
  | _, [] => none
  | held, it :: its =>
    if it.vc = vc ∧ !held.contains it.cls ∧ itemFits s p it then some it else firstFit s p vc (it.cls :: held) its

/-- The item that port p begins next: MCTRL, then RSP, then REQ and MDATA in alternation (R578). -/
def pickItem (s : State) (p : Nat) : Option VzlItem :=
  let x := vzlPort s p
  let ok := fun (o : Option VzlItem) => o.filter (itemFits s p)
  let req := firstFit s p 0 [] x.txq
  let md := ok (recItem p 2 7 s.twin.dataQ)
  match ok (recItem p 3 15 s.twin.ctrlQ) with
  | some it => some it
  | none => match firstFit s p 1 [] x.txq with
    | some it => some it
    | none => if x.mdataNext then (match md with | some it => some it | none => req) else (match req with | some it => some it | none => md)

/-- An item leaves its queue. -/
def takeItem (s : State) (p : Nat) (it : VzlItem) : State :=
  if it.vc = 3 then onTwin s fun t => { t with ctrlQ := t.ctrlQ.drop 1 }
  else if it.vc = 2 then
    let s := onTwin s fun t => { t with dataQ := t.dataQ.drop 1 }
    wrF (onPort s p fun x => { x with mdataNext := false }) Reg.hltMirrorQueue 0 16 (mirrorBytes s / 16)
  else
    freeSlots (onPort s p fun x => { x with txq := x.txq.erase it, mdataNext := if it.vc = 0 then true else x.mdataNext })
      it.port it.fromCls it.fromFlits

/-- One step of port p's transmitter, if it can take one. -/
def txStep (s : State) (p : Nat) : Option State :=
  let x := vzlPort s p
  if x.st ≠ .active then none
  else
    match x.ready with
    | f :: fs =>
      if x.replay.length < 768 then some (sendFlit (onPort s p fun x => { x with ready := fs }) p f) else none
    | [] =>
      match pickItem s p with
      | none => none
      | some it =>
        let fs := itemFlits it.vc it.bytes
        some (onPort (takeItem s p it) p fun x => { x with ready := fs, spent := modAt x.spent it.cls (· + fs.length) })

/-- Steps of a transmitter, at most n. -/
def txSteps : Nat → State → Nat → State
  | 0, s, _ => s
  | n + 1, s, p => match txStep s p with
    | some s' => txSteps n s' p
    | none => s

/-- A bound on the steps that port p's transmitter can take. -/
def txWork (s : State) (p : Nat) : Nat :=
  let x := vzlPort s p
  let n := fun (b : Nat) => ceilDiv b 28 + 1
  x.ready.length + (x.txq.map fun it => n it.bytes.length).foldl (· + ·) 0 +
    (if p = 0 then ((s.twin.ctrlQ ++ s.twin.dataQ).map fun r => n (8 * r.length)).foldl (· + ·) 0 else 0)

/-- Every port sends what it can. -/
def vzlPump (s : State) : State := (List.range 4).foldl (fun s p => txSteps (txWork s p) s p) s

/-- A LINK flit goes out after `gap` slots of NULL flits (R578); it carries the NAK that is due, and reports the freed
slots. -/
def sendLink (s : State) (p gap : Nat) (retrain : Bool) : State :=
  onPort s p fun x =>
    let x := emitNulls gap x
    let f := linkFlitOf x x.tx.slots x.sayNak retrain
    { (emitFlit x (.link f) f) with sayNak := false, reported := x.freed, linkAt := x.tx.slots + 1 }

/-- Whether a LINK flit is due in the slot after `gap` more (R578): a NAK, 64 unreported slots of a class, unreported
slots for 64 slots, or 4,096 slots since the last one. -/
def linkDue (x : VzlPort) (gap : Nat) : Bool :=
  let now := x.tx.slots + gap
  x.sayNak || decide (4096 ≤ now - x.linkAt) || (List.range 16).any fun j =>
    decide (64 ≤ unreported x j) || (decide (0 < unreported x j) && decide (64 ≤ now - (x.freedAt[j]?).getD 0))

/-- A LINK flit goes out when one is due (R578). -/
def linkSend (s : State) (p gap : Nat) : State :=
  if portActive s p && linkDue (vzlPort s p) gap then sendLink s p gap false else s

/-! ### Going down and retraining (R571, R575) -/

/-- VZL_CTRL lets port p train (R584). -/
def portEnabled (s : State) (p : Nat) : Bool := bit (rd s Reg.vzlCtrl) (if p = 0 then 0 else 1) && !draining s

/-- A training word of a lane: KIND 1 TS1, 2 TS2, 3 TS3 (R568). -/
def trainWord (s : State) (p kind lane slot : Nat) : BitVec 64 :=
  BitVec.ofNat 64 (0x5A3C + lane * 2 ^ 16 + kind * 2 ^ 18 + vzlId s * 2 ^ 20 + p * 2 ^ 27 +
    (if kind = 2 then (vzlPort s p).expect % 1024 * 2 ^ 32 else 0) + slot % 2 ^ 16 * 2 ^ 48)

/-- The training words that a port's lanes send first in a state: SLOT counts the slots of the training, and is REFCOUNT
in a TS3 (R568, R571). -/
def trainWords (s : State) (p : Nat) (st : PortState) : List (BitVec 64) :=
  let words := fun (kind slot : Nat) => (List.range 4).map fun k => trainWord s p kind k slot
  match st with
  | .down | .active => []
  | .detect | .lock | .deskew => words 1 0
  | .config => words 2 0
  | .latency => words 3 s.ltb.refcount

/-- A port enters a training state, which VZL_p_STATUS shows (R571). -/
def portState (s : State) (p : Nat) (st : PortState) : State :=
  let code := match st with
    | .down => 0 | .detect => 1 | .lock => 2 | .deskew => 3 | .config => 4 | .latency => 5 | .active => 6
  let words := trainWords s p st
  wrF (onPort s p fun x => { x with st := st, training := words }) (Reg.vzlportStatus p) 0 3 code

/-- A port enters DOWN: its replay buffer and its receive buffers are discarded (R575). On port T this is the LINK_DOWN
of R553. -/
def portDown (s : State) (p : Nat) : State :=
  let s := portState s p .down
  let mine := fun (k : VzlPkt) => decide (k.port = p)
  let gone := (s.vzl.routeQ ++ s.vzl.inQ ++ s.vzl.rspQ).filter mine
  let s := gone.foldl (fun s k => freeSlots s p k.cls k.flits) s
  let recs := if p = 0 then s.vzl.records else []
  let s := recs.foldl (fun s r => freeSlots s 0 r.2.2 r.2.1) s
  let s := onVzl s fun v => { v with
    routeQ := v.routeQ.filter fun k => !mine k, inQ := v.inQ.filter fun k => !mine k, rspQ := v.rspQ.filter fun k => !mine k
    records := if p = 0 then [] else v.records }
  let s := onPort s p fun x => { x with
    replay := [], ready := [], failed := 0, resends := 0, nak := false, sayNak := false, badMark := false, rx := List.replicate 4 {} }
  if p = 0 then linkDownTwin s else s

/-- RETRAIN_LIMIT; 0 acts as 1 (R584). -/
def retrainLimit (s : State) : Nat := max 1 (rdF s Reg.vzlCtrl 8 4)

/-- REPLAY_LIMIT; 0 acts as 1 (R584). -/
def replayLimit (s : State) : Nat := max 1 (rdF s Reg.vzlCtrl 12 4)

/-- A training attempt fails: it restarts at DETECT, or the port goes DOWN (R571, R575). -/
def attemptFail (s : State) (p : Nat) : State :=
  let a := rdF s (Reg.vzlportStatus p) 16 8
  let s := wrF s (Reg.vzlportStatus p) 16 8 (min 255 (a + 1))
  let s := onPort s p fun x => { x with failed := x.failed + 1 }
  if retrainLimit s ≤ (vzlPort s p).failed then setEv (portDown s p) Reg.vzlEvents p else portState s p .detect

/-- A port leaves ACTIVE and retrains from LOCK, with RETRAIN in a LINK flit before (R575); how many slots of NULL flits
pass before that flit is a free value. -/
def portRetrain (s : State) (p : Nat) : State :=
  if !portActive s p then s
  else
    let (k, s) := drawFree s
    let s := sendLink s p (Config.freeWord k).toNat true
    let s := setEv (satInc s (Reg.vzlportRetrains p) 1) Reg.vzlEvents (4 + p)
    portState (onPort s p fun x => { x with badMark := false }) p .lock

/-- The flits of the replay buffer go out again, numbered from `num` on. -/
def emitAgain (num : Nat) (x : VzlPort) : VzlPort :=
  x.replay.zipIdx.foldl (fun y f => emitData ((num + f.2) % 1024) (dataFlitOf f.1 x.expect) y) x

/-- All unacknowledged DATA flits are sent again (R574); REPLAY_LIMIT resends without an advance retrain the port
(R575). -/
def resend (s : State) (p : Nat) : State :=
  let x := vzlPort s p
  if x.replay.isEmpty then s
  else
    let s := onPort s p fun x => { (emitAgain x.ackNum x) with resends := x.resends + 1 }
    let s := inc64 (satInc s (Reg.vzlportReplays p) 1) (Reg.vzlportTxFlitsLo p) x.replay.length
    if replayLimit s ≤ (vzlPort s p).resends then portRetrain s p else s

/-! ### Reception (R573, R574, R576) -/

/-- An ACK frees the flits before it (R574). -/
def takeAck (s : State) (p ack : Nat) : State :=
  onPort s p fun x =>
    let n := (ack + 1024 - x.ackNum % 1024) % 1024
    if 0 < n ∧ n ≤ x.replay.length then { x with replay := x.replay.drop n, ackNum := ack % 1024, resends := 0 } else x

/-- A flit is discarded and a NAK is due, unless one is outstanding (R574). -/
def rxNak (s : State) (p : Nat) : State := onPort s p fun x => if x.nak then x else { x with nak := true, sayNak := true }

/-- The hop of a packet from device here toward dest: the port, and DL of a hop in a dimension (R576, R579). -/
def hopOf (s : State) (here src dest : Nat) : Option (Nat × Nat) :=
  let step := fun (d : Nat) =>
    let k := vzlDim s d
    let delta := (devCoord dest d + 4 * k - devCoord here d) % k
    if delta = 0 then none
    else
      let plus := decide (2 * delta ≤ k)
      let next := if plus then (devCoord here d + 1) % k else (devCoord here d + k - 1) % k
      let dl := if plus then decide (next < devCoord src d) else decide (devCoord src d < next)
      if (here % 2 = 0) = plus then some (d + 1, b2n dl) else some (0, b2n dl)
  match [0, 1, 2].findSome? step with
  | some h => some h
  | none => if here % 2 = dest % 2 then none else some (0, 0)

/-- The receive class at device here of a packet that arrives over port p (R576). -/
def pktClass (s : State) (here p : Nat) (rsp : Bool) (h0 : DWord) : Nat :=
  let base := if rsp then 8 else 0
  let dest := fld h0 4 7
  if p = 0 then
    if dest = here then base + 6
    else match hopOf s here (fld h0 11 7) dest with
      | some (q + 1, dl) => base + 2 * q + dl
      | _ => base + 6
  else base + 2 * (p - 1) + fld h0 40 1

/-- How many bytes a packet or record has: known, at least 16 and at most so many, or not defined. -/
inductive RxLen where
  | exact (n : Nat)
  | upTo (n : Nat)
  | bad
deriving DecidableEq, Repr

/-- Bytes of a request, from Q0 (R569). -/
def reqBytes (h0 : DWord) : Nat :=
  match fld h0 0 4 with
  | 2 => 17 + fld h0 28 7
  | 3 => if fld h0 35 4 = 9 then 32 else 24
  | 4 => 24
  | _ => 16

/-- Bytes of a response: those that its request gives where that is known (R569). -/
def rspBytes (s : State) (h0 : DWord) : RxLen :=
  let long := 17 + fld h0 32 7
  match s.vzl.reqs.find? fun r => decide (fld h0 4 7 = vzlId s) && decide (r.tag = fld h0 18 10) && r.data.isNone with
  | some r => if r.op = 1 then .exact long else if r.op = 3 then .exact 24 else .exact 16
  | none => .upTo (max 24 long)

/-- Bytes of a mirror record, from W0 (R559). -/
def recLen (w0 : DWord) : RxLen :=
  match fld w0 0 8 with
  | 1 => .exact 32
  | 2 => .exact 80
  | 3 => .exact (16 + 8 * ceilDiv (fld w0 32 7 + 1) 2)
  | 5 | 11 => .exact 24
  | 7 => .exact 40
  | 4 | 6 | 8 | 9 | 10 => .exact 16
  | _ => .bad

/-- The length of what is being received on a VC. -/
def rxLen (s : State) (vc : Nat) (h0 : DWord) : RxLen :=
  match vc with
  | 0 => .exact (reqBytes h0)
  | 1 => rspBytes s h0
  | _ => recLen h0

/-- The first word of some bytes. -/
def firstWord (bs : List Byte) : DWord := BitVec.ofNat 64 (leValue (bs.take 8))

/-- The 64-bit words of a record's bytes. -/
def recWords (bs : List Byte) : List DWord := (wordsLE (bs.length / 8) bs).map fun w => BitVec.ofNat 64 w

/-- A whole packet or record has arrived (R562, R583): a record goes to the HLT, a packet to this device or to routing. -/
def rxDeliver (s : State) (p vc : Nat) (bs : List Byte) (cls flits : Nat) : State :=
  if 2 ≤ vc then
    if p = 0 then onVzl s fun v => { v with records := v.records ++ [(recWords bs, flits, cls)] } else freeSlots s p cls flits
  else
    let k : VzlPkt := { h0 := firstWord bs, h1 := firstWord (bs.drop 8), body := bs.drop 16, port := p, cls := cls, flits := flits }
    let dest := fld k.h0 4 7
    if dest = vzlId s then
      onVzl s fun v => if vc = 0 then { v with inQ := v.inQ ++ [k] } else { v with rspQ := v.rspQ ++ [k] }
    else if !devExists s dest then freeSlots (satInc s Reg.vzlDiscards 1) p cls flits
    else onVzl s fun v => { v with routeQ := v.routeQ ++ [k] }

/-- What port p receives on a VC is replaced. -/
def rxSet (s : State) (p vc : Nat) (r : VzlRx) : State := onPort s p fun x => { x with rx := setAt x.rx vc r }

/-- What port p is receiving on a VC. -/
def rxOf (s : State) (p vc : Nat) : VzlRx := ((vzlPort s p).rx[vc]?).getD {}

/-- A response of one flit whose length was open ends where another packet or record begins. -/
def rxClose (s : State) (p : Nat) : State :=
  let r := rxOf s p 1
  if r.bytes.isEmpty || r.drop then s
  else match rspBytes s (firstWord r.bytes) with
    | .upTo _ => if r.flits = 1 then rxDeliver (rxSet s p 1 {}) p 1 (r.bytes.take 16) r.cls 1 else s
    | _ => s

/-- The payload of an accepted DATA flit joins its packet or record (R565). -/
def rxPayload (s : State) (p vc : Nat) (sop : Bool) (bs : List Byte) : State :=
  let s := if sop || decide (vc ≠ 1) then rxClose s p else s
  let r := rxOf s p vc
  if !sop && r.bytes.isEmpty && !r.drop then s
  else if !sop && r.drop then freeSlots s p r.cls 1
  else
    let s := if sop then freeSlots s p r.cls (if r.drop then 0 else r.flits) else s
    let h0 := firstWord (if sop then bs else r.bytes)
    let cls := if vc = 2 then 7 else if vc = 3 then 15 else pktClass s (vzlId s) p (decide (vc = 1)) h0
    let r : VzlRx := if sop then { bytes := bs, flits := 1, cls := cls } else { r with bytes := r.bytes ++ bs, flits := r.flits + 1 }
    match rxLen s vc h0 with
    | .bad => freeSlots (rxSet (satInc s Reg.hltMirrorBad 1) p vc { cls := cls, drop := true }) p cls 1
    | .exact n | .upTo n =>
      if n ≤ r.bytes.length then rxDeliver (rxSet s p vc {}) p vc (r.bytes.take n) r.cls r.flits else rxSet s p vc r

/-- The 28 payload bytes of a flit. -/
def flitBytes (x : BitVec 256) : List Byte := leBytes (fld x 16 224) 28

/-- A received flit whose CRC is wrong, or whose TYPE is invalid (R574, R575); none when it is neither. -/
def rxBad (s : State) (p : Nat) (x : BitVec 256) : Option State :=
  if !crcOk x then some (rxNak (satInc s (Reg.vzlportCrcErrs p) 1) p)
  else if 3 ≤ flitType x then some (portRetrain s p)
  else none

/-- A received DATA flit, `gap` slots after the last one (R570, R574). -/
def rxData (s : State) (p num gap : Nat) (wire : BitVec 256) : State :=
  if !portActive s p then s
  else
    let (s, x) := rxTake s p gap wire
    match rxBad s p x with
    | some s => s
    | none =>
      if flitType x ≠ 1 then s
      else if num ≠ (vzlPort s p).expect then rxNak s p
      else
        let s := takeAck s p (flitAck x)
        let s := onPort s p fun y => { y with expect := (y.expect + 1) % 1024, nak := false, sayNak := false }
        rxPayload s p (flitVc x) (flitSop x) (flitBytes x)

/-- Credit fields grant the slots freed since the last ones (R566, R577). -/
def takeCredits (s : State) (p : Nat) (x : BitVec 256) : State :=
  onPort s p fun y => { y with
    granted := y.granted.zipIdx.map fun g => g.1 + (fld x (creditPos g.2) 10 + 1024 - g.1 % 1024) % 1024 }

/-- Whether every MARK agrees with its lane and with the receiver's slot count (R566, R575). -/
def marksOk (x : BitVec 256) (slot : Nat) : Bool :=
  (List.range 4).all fun k => decide (fld x (markPos k) 12 = k + slot % 1024 * 4)

/-- A marker mismatch: on port T a link-timing fault (R552, R575); a second one in a row retrains the port. -/
def badMarks (s : State) (p : Nat) : State :=
  let again := (vzlPort s p).badMark
  let s := onPort s p fun x => { x with badMark := true }
  if again then portRetrain (if p = 0 then linkTimingFault s else s) p else s

/-- A received LINK flit, `gap` slots after the last one; its marks are held against the slot it came in (R566, R570,
R574, R575). -/
def rxLink (s : State) (p gap : Nat) (wire : BitVec 256) : State :=
  if !portActive s p then s
  else
    let slot := (vzlPort s p).rxd.slots + gap
    let (s, x) := rxTake s p gap wire
    match rxBad s p x with
    | some s => s
    | none =>
      if flitType x ≠ 2 then s
      else
        let s := takeCredits (takeAck s p (flitAck x)) p x
        let s := if bit x 16 then resend s p else s
        let s := if marksOk x slot then onPort s p fun y => { y with badMark := false } else badMarks s p
        if bit x 17 then portRetrain s p else s

/-- A received NULL flit, `gap` slots after the last one (R570, R574). -/
def rxNull (s : State) (p gap : Nat) (wire : BitVec 256) : State :=
  if !portActive s p then s
  else
    let (s, x) := rxTake s p gap wire
    match rxBad s p x with
    | some s => s
    | none => if flitType x = 0 then takeAck s p (flitAck x) else s

/-! ### Training (R571 to R573) -/

/-- The device at the other end of port p (R572). -/
def peerOf (s : State) (p : Nat) : Nat :=
  let here := vzlId s
  if p = 0 then here ^^^ 1
  else
    let d := p - 1
    let k := vzlDim s d
    let c := devCoord here d
    let c' := if here % 2 = 0 then (c + 1) % k else (c + k - 1) % k
    here - here % 2 + (1 - here % 2) - c * 2 ^ (1 + 2 * d) + c' * 2 ^ (1 + 2 * d)

/-- A port whose dimension has size 1 never trains (R564). -/
def portWired (s : State) (p : Nat) : Bool := decide (p = 0) || decide (1 < vzlDim s (p - 1))

/-- A port enters ACTIVE: both directions start their slot counts and scramblers (R570). The first training since reset
starts every count from 0; a later one resends from the peer's NEXT_SEQ (R573). -/
def portActivate (s : State) (p : Nat) : State :=
  let x := vzlPort s p
  let s := onPort (portState s p .active) p fun x => { x with
    tx := dirStart, rxd := dirStart, sent := [], linkAt := 0, freedAt := List.replicate 16 0 }
  if !x.trained then
    onPort s p fun x => { x with
      trained := true, failed := 0, resends := 0, ackNum := 0, expect := 0, replay := [], nak := false, sayNak := false
      freed := List.replicate 16 0, reported := List.replicate 16 0, spent := List.replicate 16 0, granted := List.replicate 16 0 }
  else
    let n := (x.peerNext + 1024 - x.ackNum) % 1024
    let kept := if n ≤ x.replay.length then x.replay.drop n else []
    let s := onPort s p fun x => { x with
      failed := 0, resends := 0, ackNum := x.peerNext % 1024, replay := kept, nak := false, sayNak := false }
    inc64 (onPort s p (emitAgain x.peerNext)) (Reg.vzlportTxFlitsLo p) kept.length

/-- Two TS2 have arrived (R572). -/
def trainConfig (s : State) (p id port next : Nat) : State :=
  let s := wrF (wrF s (Reg.vzlportStatus p) 8 7 id) (Reg.vzlportStatus p) 15 1 1
  if id = peerOf s p ∧ port = p then portState (onPort s p fun x => { x with peerNext := next }) p .latency
  else attemptFail (setEv s Reg.vzlEvents (8 + p)) p

/-- Eight echoes give the latency, and the port is ACTIVE (R571). -/
def trainEchoes (s : State) (p : Nat) (trips : List Nat) : State :=
  let lat := trips.foldl (· + ·) 0 / 16
  let skew := (vzlPort s p).skew
  let s := portActivate s p
  if p = 0 then portTTrained s lat skew
  else wrN (wrN s (Reg.vzlportLatency p) (lat % 2 ^ 24)) (Reg.vzlportSkew p) (skewWord skew)

/-- A training condition of the present state is met (R571). -/
def trainAdvance (s : State) (p : Nat) (e : TrainEvent) : State :=
  match (vzlPort s p).st, e with
  | .down, .signal => if portEnabled s p && portWired s p then portState s p .detect else s
  | .detect, .signal => portState s p .lock
  | .lock, .locked inv order =>
    let o := order.map Fin.val
    if o = [0, 1, 2, 3] ∨ o = [3, 2, 1, 0] then
      let s := wrF (wrF s (Reg.vzlportStatus p) 3 1 (b2n (decide (o = [3, 2, 1, 0])))) (Reg.vzlportStatus p) 4 4 inv.toNat
      portState s p .deskew
    else attemptFail s p
  | .deskew, .aligned offsets =>
    if offsets.length = 4 ∧ offsets.all (fun o => decide (o ≤ 127)) = true then
      portState (onPort s p fun x => { x with skew := offsets }) p .config
    else s
  | .config, .config id port next => trainConfig s p id.toNat port.val next.toNat
  | .latency, .echoes trips => if trips.length = 8 then trainEchoes s p trips else s
  | _, _ => s

/-- The effect of TRAINING_TIMEOUT. -/
def trainingTimeoutEffect (s : State) (p : Fin 4) : State :=
  match (vzlPort s p.val).st with
    | .down | .active => s
    | _ => attemptFail s p.val

/-- A write of VZL_p_CTRL (R575, R584). -/
def portCtrlWrite (s : State) (p : Nat) (v : Word) : State :=
  let s := wr s (Reg.vzlportCtrl p) (v &&& 0xE)
  if !bit v 0 then s
  else match (vzlPort s p).st with
    | .active => portRetrain s p
    | .down => if portEnabled s p && portWired s p then portState s p .detect else s
    | _ => s

end Sys2Proof.Machine
end

