-- ==== Sys2Proof/Machine/Health.lean ====
section
/-!
DEFINITION. The groomer's health decisions (spec/22_silent_errors_and_reproducibility.md R596 to R607): the derating
ladder, suspects, groups of known-answer tests, removal of a cluster, and the drain.
-/

namespace Sys2Proof.Machine

/-- A field of HLT_CLUSTER_c is set (R610). -/
def hltCluSet (s : State) (c lo w v : Nat) : State := wrF s (Reg.hltCluster c) lo w v

/-! ### The ladder (R603, R604) -/

/-- The DVFS point in effect (R648, R659). -/
def pointInEffect (s : State) : Nat := rdF s Reg.pmuCeiling 8 3

/-- The fused VDD_CORE set point of a DVFS point, in mV (R647). -/
def setPoint (s : State) (k : Nat) : Nat := (s.fuse.points[k]?).getD 0

/-- Whether k steps of 12.5 mV above the set point in effect keep a cluster at or below 0.90 V (R604). -/
def offsetFits (s : State) (k : Nat) : Bool := decide (10 * setPoint s (pointInEffect s) + 125 * k ≤ 9000)

/-- The offset of a ladder position in steps of 12.5 mV. -/
def ladderOffset (p : Nat) : Nat := min p 6

/-- The divider code of a ladder position. -/
def ladderDiv (p : Nat) : Nat := p - 6

/-- The applied offset: the largest that fits, at most the position's (R604). -/
def appliedOffset (s : State) (p : Nat) : Nat :=
  ((List.range (ladderOffset p + 1)).filter (offsetFits s)).foldl max 0

/-- The settings of a cluster's ladder position are applied; a CLIPPED bit that becomes 1 is an event (R604, R610). -/
def ladderApply (s : State) (c : Nat) : State :=
  let p := hltClu s c 0 4
  let v := appliedOffset s p
  let clip := decide (v < ladderOffset p)
  let was := decide (hltClu s c 9 1 = 1)
  let s := hltCluSet (hltCluSet (hltCluSet s c 4 3 v) c 7 2 (ladderDiv p)) c 9 1 (b2n clip)
  if clip && !was then setEv s Reg.hltEvents 6 else s

/-- VDD_CORE and VDD_SRAM that the groomer commands for a point, in 0.1 mV (R638). -/
def railsFor (s : State) (point : Nat) : Nat × Nat :=
  let off := ((clustersInService s).map fun c => hltClu s c 4 3).foldl max 0
  let core := 10 * setPoint s point + 125 * off
  (core, max 7500 (core + 500))

/-- The rails are commanded for the point in effect, unless the regulator has failed (R638). -/
def commandRails (s : State) : State :=
  if bit (rd0 s Reg.pmuStatus) 6 then s
  else
    let r := railsFor s (pointInEffect s)
    { s with pmu := { s.pmu with vCore := r.1, vSram := r.2 } }

/-- The position that a step leads to (R603, R604). -/
def ladderNext (s : State) (p : Nat) : Nat := if p < 6 && !offsetFits s (p + 1) then 7 else min 8 (p + 1)

/-- A cluster's ladder is stepped: the position, the event, the count and the DERATE record (R603, R618, R626). -/
def ladderStep (s : State) (c reason : Nat) : State :=
  let p := hltClu s c 0 4
  let q := ladderNext s p
  let s := wearAdd (setEv (hltCluSet s c 0 4 q) Reg.hltEvents 1) (clusterCounter c 11) 1
  wearRecord s 3 [c + p * 2 ^ 4 + q * 2 ^ 8 + reason * 2 ^ 12 + rdF s (Reg.clhAging c) 0 24 * 2 ^ 16]

/-! ### The drain (R607) -/

/-- Descriptors fetched and not dispatched retire, chains end. -/
def drainHeld (s : State) : State :=
  let r : Result := { status := 0xF0, detail := 0 }
  let s := (s.cfe.descs.filter fun d => decide (d.stage = .held)).foldl (fun s d => dispatchRetire s d r) s
  let chains := s.cfe.descs.filter fun d => decide (descOp d = 0x1F) && decide (d.stage ≠ .decided)
  chains.foldl (fun s d => retireNow (onRing s d.id.ring fun x => { x with chain := none }) d.id r) s

/-- Tests under way are abandoned, with no ladder change; their clusters are no longer fenced. -/
def katAbandon (s : State) : State :=
  let s := s.hlt.runs.foldl (fun s r => if clusterState s r.1 = 1 then ladderApply (hltCluSet s r.1 10 2 0) r.1 else s) s
  clrReg (onHlt s fun h => { h with groups := [], runs := [] }) Reg.hltStatus 0xC0

/-- The masks that a REQUEST_KAT has reached (R627, R628). -/
def katMasks (g : KatGroup) : Nat :=
  let m := fun (l : List Nat) => (l.map fun c => 2 ^ c).foldl (· + ·) 0
  m g.passed + m g.failed + m g.passed * 2 ^ 16

/-- A waiting REQUEST_KAT is answered (R632). -/
def katAnswer (s : State) (result : Nat) (g : KatGroup) : State :=
  if s.grm.katWait then onGrm s fun x => { x with katWait := false, rsp := some { result := result, value := katMasks g } } else s

/-- A drain begins with a cause (R607, steps 1 and 2). -/
def drainBegin (s : State) (cause : Nat) : State :=
  if draining s then s
  else
    let s := wrF (setEv (orReg s Reg.hltStatus 1) Reg.hltEvents 3) Reg.hltStatus 2 3 cause
    let s := wearRecord (wearAdd s (deviceCounter 18) 1) 5 [cause]
    let s := match s.hlt.groups.find? fun g => decide (g.why = .mailbox) with
      | some g => katAnswer s 3 g
      | none => s
    let s := katAbandon s
    let s := onTwin s fun t => { t with alive := false }
    let s := (List.range 4).foldl portDown s
    let s := onHlt s fun h => { h with drainFrom := s.ltb.lineEvents, drainCut := false }
    drainCheck (unitSweep (exchangeSweep (drainHeld s)))

/-- DRAIN_GRACE is over: every descriptor that still runs is cancelled (R607, step 4). -/
def drainGrace (s : State) : State :=
  if draining s && !s.hlt.drainCut && decide (rdF s Reg.hltPolicy 16 12 ≤ s.ltb.lineEvents - s.hlt.drainFrom) then
    let f := fun (d : Desc) =>
      if d.stage = .dispatched ∧ d.cancel.isNone then { d with cancel := some .draining } else d
    onHlt (mapDescs s f) fun h => { h with drainCut := true }
  else s

/-! ### Suspects (R602) -/

/-- Uncore suspect events; at UNCORE_LIMIT the device drains. -/
def uncoreSuspect (s : State) (n : Nat) : State :=
  if n = 0 then s
  else
    let k := min 255 (rdF s Reg.hltUncoreSuspects 0 8 + n)
    let s := setEv (wrN s Reg.hltUncoreSuspects k) Reg.hltEvents 5
    if max 1 (rdF s Reg.hltPolicy 12 4) ≤ k then drainBegin s 2 else s

/-- Whether events of a cluster count: it is in service, or under test. -/
def clusterCounts (s : State) (c : Nat) : Bool := decide (clusterState s c < 2)

/-! ### Groups of tests (R600 to R602) -/

/-- HLT_STATUS shows fenced clusters and sweeps. -/
def katFlags (s : State) : State :=
  let sweep := match s.hlt.groups.head? with
    | some g => decide (g.why = .periodic) || decide (g.why = .strip)
    | none => false
  wrF s Reg.hltStatus 6 2 (b2n (!s.hlt.runs.isEmpty) + 2 * b2n sweep)

/-- The first group changed. -/
def onGroup (s : State) (f : KatGroup → KatGroup) : State := onHlt s fun h => { h with groups := modAt h.groups 0 f }

/-- The phase of a cluster's test is set. -/
def katPhase (s : State) (c : Nat) (p : KatPhase) : State :=
  onHlt s fun h => { h with runs := h.runs.map fun r => if r.1 = c then (c, p) else r }

/-- A cluster is fenced for its test (R600); where a step comes first, it settles first (R602, R603). -/
def katFence (s : State) (g : KatGroup) (c : Nat) : State :=
  let s := hltCluSet s c 10 2 1
  let step := g.step && decide (hltClu s c 0 4 < 8)
  let s := if step then ladderStep s c g.reason else s
  onHlt s fun h => { h with runs := h.runs ++ [(c, if step then .settling else .fenced)] }

/-- The next clusters of the first group are fenced: one, or for a verdict all at once; those out of service are not
tested, and count as failing in a verdict, as HLT_KAT_LAST shows (R601). -/
def katFenceNext (s : State) : State :=
  match s.hlt.groups.head? with
  | none => s
  | some g =>
    let out := g.left.filter fun c => !clusterCounts s c
    let rest := g.left.filter (clusterCounts s)
    let verdict := match g.why with
      | .verdict _ => true
      | _ => false
    let s := onGroup s fun g => { g with left := rest, failed := g.failed ++ (if verdict then out else []) }
    let s := if verdict then out.foldl (fun s c => wrN s Reg.hltKatLast (c + 32)) s else s
    let now := if verdict then rest else rest.take 1
    let s := now.foldl (fun s c => katFence s g c) s
    onGroup s fun g => { g with left := rest.drop now.length }

/-- Tests are asked for (R601, R602); a drained device takes none. -/
def katRequest (s : State) (g : KatGroup) : State :=
  if draining s then s
  else
    let s := onHlt s fun h => { h with groups := h.groups ++ [g] }
    katFlags (if s.hlt.groups.length = 1 ∧ s.hlt.runs.isEmpty then katFenceNext s else s)

/-- A group that tests some clusters in ascending order. -/
def katGroup (s : State) (why : KatWhy) (cs : List Nat) (step : Bool) (reason : Nat) : KatGroup :=
  let cs := match why with
    | .verdict _ => cs
    | _ => cs.filter (clusterCounts s)
  { why := why, mask := BitVec.ofNat 16 ((cs.map fun c => 2 ^ c).foldl (· + ·) 0), left := cs, step := step, reason := reason }

/-- A test of clusters is asked for, unless the list is empty. -/
def katTest (s : State) (why : KatWhy) (cs : List Nat) (step : Bool) (reason : Nat) : State :=
  let g := katGroup s why cs step reason
  if g.left.isEmpty then s else katRequest s g

/-- A sweep: every cluster in service (R602). -/
def katSweep (s : State) (why : KatWhy) : State := katTest s why (clustersInService s) false 0

/-- A suspect event of a cluster; at SUSPECT_LIMIT its ladder is stepped once and it is tested (R602). -/
def clusterSuspect (s : State) (c : Nat) : State :=
  if !clusterCounts s c then s
  else
    let k := min 15 (hltClu s c 12 4 + 1)
    let s := wearAdd (hltCluSet s c 12 4 k) (clusterCounter c 14) 1
    if max 1 (rdF s Reg.hltPolicy 8 4) ≤ k then katTest (hltCluSet s c 12 4 0) .test [c] true 1 else s

/-- Suspect events of every cluster of a mask. -/
def maskSuspects (s : State) (m : BitVec 16) : State := (onesBelow m.toNat 16).foldl clusterSuspect s

/-- What follows when the last test of a group has ended (R549, R602, R632). -/
def katGroupEnd (s : State) (g : KatGroup) : State :=
  match g.why with
  | .test | .periodic => s
  | .mailbox => katAnswer s 0 g
  | .strip => if g.failed.isEmpty then uncoreSuspect s 1 else s
  | .permanent => if g.failed.isEmpty then uncoreSuspect (maskSuspects s g.mask) 1 else s
  | .verdict ring => onExchange s ring fun x => { x with testing := false, tested := some g.failed.isEmpty }

/-- Groups that have ended go, and the next tests begin; at most n steps. -/
def katAdvance : Nat → State → State
  | 0, s => s
  | n + 1, s =>
    if !s.hlt.runs.isEmpty then s
    else
      match s.hlt.groups with
      | [] => s
      | g :: gs =>
        if g.left.isEmpty then katAdvance n (katGroupEnd (onHlt s fun h => { h with groups := gs }) g)
        else katAdvance n (katFenceNext s)

/-- The tests go on (R601). -/
def katSettle (s : State) : State := katFlags (katAdvance (2 * s.hlt.groups.length + 34) s)

/-! ### Removal (R606) -/

/-- Clusters in service. -/
def serviceCount (s : State) : Nat := (clustersInService s).length

/-- FLOOR of HLT_POLICY; 0 acts as 1, above 16 as 16 (R610). -/
def floorOf (s : State) : Nat := min 16 (max 1 (rdF s Reg.hltPolicy 0 5))

/-- A cluster leaves service; below FLOOR the device drains (R606). -/
def removeCluster (s : State) (c : Nat) : State :=
  let gen := rdF s Reg.hltMap 16 16
  let s := wrF (clrReg s Reg.hltMap (2 ^ c)) Reg.hltMap 16 16 (gen + 1)
  let s := hltCluSet (onHlt s fun h => { h with runs := h.runs.filter fun r => decide (r.1 ≠ c) }) c 10 2 2
  let s := layerRecheck (camClusterLost (raceClusterLost s c) c)
  let s := commandRails s
  if serviceCount s < floorOf s then drainBegin s 1 else s

/-- A RETIRING cluster that holds nothing more is powered off (R606, R626). -/
def clusterOff (s : State) (c : Nat) : State :=
  if clusterState s c = 2 ∧ clusterHolds s c = false then
    wearRecord (setEv (hltCluSet s c 10 2 3) Reg.hltEvents 2) 4 [c + rdF s Reg.hltMap 0 16 * 2 ^ 16]
  else s

/-! ### One test (R599 to R603) -/

/-- The phase of a cluster's test. -/
def katPhaseOf (s : State) (c : Nat) : Option KatPhase := (s.hlt.runs.find? fun r => decide (r.1 = c)).map Prod.snd

/-- The test of a fenced cluster starts once the cluster holds nothing (R600). -/
def katStart (s : State) (c : Nat) : State :=
  if katPhaseOf s c = some .fenced ∧ clusterHolds s c = false then katPhase s c .running else s

/-- Whether the first group is a verdict's. -/
def katVerdict (s : State) : Bool :=
  match s.hlt.groups.head? with
  | some g => match g.why with
    | .verdict _ => true
    | _ => false
  | none => false

/-- The counts of a test that has ended (R610, R618). -/
def katCount (s : State) (c : Nat) (pass : Bool) : State :=
  let runs := min 0xFFFF (rdF s Reg.hltKatCount 0 16 + 1)
  let fails := min 0xFFFF (rdF s Reg.hltKatCount 16 16 + b2n (!pass))
  let s := wrN s Reg.hltKatCount (runs + fails * 2 ^ 16)
  let s := wrN s Reg.hltKatLast (c + 16 * b2n pass + 32 * b2n (katVerdict s))
  let s := wearAdd s (clusterCounter c 9) 1
  if pass then s
  else
    let s := wearAdd (setEv s Reg.hltEvents 0) (clusterCounter c 10) 1
    hltCluSet s c 16 8 (min 255 (hltClu s c 16 8 + 1))

/-- A cluster's test ends with a pass: the fence is lifted and SUSPECTS clears (R600, R601). -/
def katPass (s : State) (c : Nat) : State :=
  let s := hltCluSet (hltCluSet s c 12 4 0) c 10 2 0
  let s := onGroup s fun g => if g.failed.contains c then g else { g with passed := g.passed ++ [c] }
  onHlt s fun h => { h with runs := h.runs.filter fun r => decide (r.1 ≠ c) }

/-- A cluster's test fails: a step and a retest, or at position 8 its removal (R603). -/
def katFail (s : State) (c : Nat) : State :=
  let s := onGroup s fun g => if g.failed.contains c then g else { g with failed := g.failed ++ [c] }
  if hltClu s c 0 4 < 8 then katPhase (ladderStep s c 0) c .settling else removeCluster s c

/-- A cluster KAT ends (R599, R602). -/
def katEnd (s : State) (c : Nat) (pass : Bool) : State :=
  if katPhaseOf s c = some .running then
    let s := katCount s c pass
    katSettle (if pass then katPass s c else katFail s c)
  else s

/-- A step has settled: the new setting is in effect, and the test follows (R603). -/
def ladderSettle (s : State) (c : Nat) : State :=
  if katPhaseOf s c = some .settling then katPhase (commandRails (ladderApply s c)) c .fenced else s

/-! ### Aging (R602, R619) -/

/-- The slowdown of one measurement in ppm (R619). -/
def agingPpm (base f : Nat) : Nat := if base ≤ f then 0 else 1000000 * (base - f) / base

/-- An aging measurement of a cluster in service or under test (R602, R618, R619). -/
def agingMeasure (s : State) (c base f : Nat) : State :=
  if !clusterCounts s c then s
  else
    let l := (agingPpm base f :: ((s.hlt.aging[c]?).getD [])).take 8
    let a := min (2 ^ 24 - 1) (l.foldl (· + ·) 0 / l.length)
    let s := wrN (onHlt s fun h => { h with aging := setAt h.aging c l }) (Reg.clhAging c) a
    let s := wearSet s (clusterCounter c 15) (BitVec.ofNat 32 (max (wearCounter s (clusterCounter c 15)).toNat a))
    let ppm := 10 * rdF s Reg.hltPolicy2 16 16
    let n := (s.hlt.agingSteps[c]?).getD 0
    if ppm ≠ 0 ∧ ppm * (1 + n) ≤ a then
      katTest (onHlt s fun h => { h with agingSteps := setAt h.agingSteps c (n + 1) }) .test [c] true 2
    else s

end Sys2Proof.Machine
end

