-- ==== Sys2Proof/Machine/VzlFab.lean ====
section
/-!
DEFINITION. The Virzel fabric layer (spec/21_virzel_fabric.md R579 to R583): routing of packets, requests at their
target, and responses and time-outs at their requester.
-/

namespace Sys2Proof.Machine

/-! ### Routing (R579) -/

/-- A packet goes to the port of its next hop, in the class that the receiver will place it in (R576, R579). -/
def forwardPkt (s : State) (k : VzlPkt) : State :=
  let dest := fld k.h0 4 7
  let rsp := decide (fld k.h0 0 4 = 8)
  if !devExists s dest then freeSlots (satInc s Reg.vzlDiscards 1) k.port k.cls k.flits
  else match hopOf s (vzlId s) (fld k.h0 11 7) dest with
    | none => onVzl s fun v => if rsp then { v with rspQ := v.rspQ ++ [k] } else { v with inQ := v.inQ ++ [k] }
    | some (p, dl) =>
      let h0 := if p = 0 then k.h0 else setFld k.h0 40 1 dl
      let it : VzlItem := { vc := b2n rsp, cls := pktClass s (peerOf s p) p rsp h0,
                            bytes := leBytes h0.toNat 8 ++ leBytes k.h1.toNat 8 ++ k.body,
                            port := k.port, fromCls := k.cls, fromFlits := k.flits }
      onPort s p fun x => { x with txq := x.txq ++ [it] }

/-- The packet that waits longest for routing goes on. With none waiting, a response of one flit whose length was open
counts as complete. -/
def packetForward (s : State) : State :=
  let s := if s.vzl.routeQ.isEmpty then (List.range 4).foldl rxClose s else s
  match s.vzl.routeQ with
  | [] => s
  | k :: ks => vzlPump (forwardPkt (onVzl s fun v => { v with routeQ := ks }) k)

/-! ### At the target (R583) -/

/-- A malformed request (R569). -/
def reqMalformed (k : VzlPkt) : Bool :=
  let op := fld k.h0 0 4
  let aop := fld k.h0 35 4
  let cross := decide (128 < fld k.h1 0 7 + fld k.h0 28 7 + 1)
  if op = 1 ∨ op = 2 then cross
  else if op = 3 then decide (10 < aop) || (decide (aop = 10) && bit k.h0 39)
  else decide (op ≠ 4)

/-- The response to a request: 0 OK, 1 REJECTED, 2 MALFORMED (R569). -/
def respond (s : State) (k : VzlPkt) (status : Nat) (data : List Byte) : State :=
  let h0 := BitVec.ofNat 64 (8 + fld k.h0 11 7 * 2 ^ 4 + vzlId s * 2 ^ 11 + fld k.h0 18 10 * 2 ^ 18 + status * 2 ^ 28 +
    fld k.h0 28 7 * 2 ^ 32)
  onVzl s fun v => { v with routeQ := v.routeQ ++ [{ h0 := h0, body := data }] }

/-- Bytes of data that the response to a request carries. -/
def rspData (k : VzlPkt) : Nat :=
  match fld k.h0 0 4 with
  | 1 => fld k.h0 28 7 + 1
  | 3 => 8
  | _ => 0

/-- A request is turned away: its response carries zeros where it carries data. -/
def respondZero (s : State) (k : VzlPkt) (status : Nat) : State := respond s k status (List.replicate (rspData k) 0)

/-- A REJECTED request (R583). -/
def reject (s : State) (k : VzlPkt) : State := respondZero (setEv (satInc s Reg.vzlInRejects 1) Reg.vzlEvents 12) k 1

/-- Whether n bytes at a LOCAL address lie in the inbound window and below U (R583). -/
def inWindow (s : State) (a n : Nat) : Bool :=
  decide (rd64 s Reg.vzlInBaseLo ≤ a) && decide (a < rd64 s Reg.vzlInLimitLo) && decide (a + n ≤ usable s)

/-- The request at the front of the inbound queue is served, if it is of the given OP or of none; it leaves its slots. -/
def serve (s : State) (op : Nat) (f : State → VzlPkt → State) : State :=
  match s.vzl.inQ with
  | [] => s
  | k :: ks =>
    let o := fld k.h0 0 4
    if o = op ∨ o = 0 ∨ 4 < o then
      let s := freeSlots (onVzl s fun v => { v with inQ := ks }) k.port k.cls k.flits
      if reqMalformed k then respondZero s k 2 else f s k
    else s

/-- A READ of the inbound window; uncorrectable data is delivered as read (R583). -/
def serveRead (s : State) (k : VzlPkt) : State :=
  let a := fld k.h1 0 39
  let n := fld k.h0 28 7 + 1
  if inWindow s a n then
    let (s, bs, _) := l2ReadN s a n
    respond s k 0 bs
  else reject s k

/-- A WRITE of the inbound window (R583). -/
def serveWrite (s : State) (k : VzlPkt) : State :=
  let a := fld k.h1 0 39
  let n := fld k.h0 28 7 + 1
  if inWindow s a n then respond (l2WriteN s a ((k.body ++ List.replicate n 0).take n |>.map some)) k 0 [] else reject s k

/-- An ATOMIC, at the L2 (R302, R583). -/
def serveAtomic (s : State) (k : VzlPkt) : State :=
  let a := fld k.h1 0 39
  let n := if bit k.h0 39 then 8 else 4
  if inWindow s a n then
    let (s, bs, _) := l2ReadN s a n
    let m := leValue bs
    let v := atomicNew (0xA8 + fld k.h0 35 4) n m (leValue (k.body.take 8) % 2 ^ (8 * n)) (leValue ((k.body.drop 8).take 8) % 2 ^ (8 * n))
    respond (l2WriteN s a ((leBytes v n).map some)) k 0 (leBytes m 8)
  else reject s k

/-- A SIGNAL for the slot of VZL_IN_SIG (R155, R156, R583); an uncorrectable entry loses that slot (R203). -/
def serveSignal (s : State) (k : VzlPkt) : State :=
  let c := rdF s Reg.vzlInSig 0 7
  let obj := fld k.h1 0 16
  if !bit (rd s Reg.vzlInSig) 8 || decide ((ctxSlot s c).state ≠ .loaded) then reject s k
  else if !inSignalRange s c obj then reject (sigReject s c obj) k
  else
    let (s, _, bad) := signalObj s obj (leValue (k.body.take 8)) c false
    respond (if bad then contextLoss s c 0x21 0 0 true else s) k 0 []

/-- Whether the SIGNAL at the front of the inbound queue waits there until its SYNC record fits, so that its response comes
after the signal has taken effect (R540, R583). -/
def signalHeld (s : State) : Bool :=
  match s.vzl.inQ with
  | [] => false
  | k :: _ =>
    let c := rdF s Reg.vzlInSig 0 7
    decide (fld k.h0 0 4 = 4) && syncMustWait s false && bit (rd s Reg.vzlInSig) 8 &&
      decide ((ctxSlot s c).state = .loaded) && inSignalRange s c (fld k.h1 0 16)

/-- The SIGNAL at the front is served, once it need not wait. -/
def serveSignals (s : State) : State := if signalHeld s then s else serve s 4 serveSignal

/-! ### At the requester (R581) -/

/-- The request of a tag that has had no response. -/
def openReq (s : State) (tag : Nat) : Option VzlReq := s.vzl.reqs.find? fun r => decide (r.tag = tag) && r.data.isNone

/-- A request completes with data: a READ or ATOMIC keeps it for its requester, a WRITE or SIGNAL is over (R581). -/
def reqDone (s : State) (r : VzlReq) (data : List Byte) : State :=
  if r.op = 1 ∨ r.op = 3 then
    onVzl s fun v => { v with reqs := v.reqs.map fun x => if x = r then { x with data := some data } else x }
  else onVzl s fun v => { v with reqs := v.reqs.erase r }

/-- The zeros with which a failed request completes. -/
def reqZeros (r : VzlReq) : List Byte := List.replicate (if r.op = 3 then 8 else r.len) 0

/-- The response at the front of the queue completes its request; one that matches none is discarded (R581). -/
def takeResponse (s : State) : State :=
  match s.vzl.rspQ with
  | [] => s
  | k :: ks =>
    let s := freeSlots (onVzl s fun v => { v with rspQ := ks }) k.port k.cls k.flits
    match openReq s (fld k.h0 18 10) with
    | none => s
    | some r =>
      if r.dev ≠ fld k.h0 11 7 then s
      else if fld k.h0 28 4 = 0 then reqDone s r k.body
      else reqDone (setEv (satInc s Reg.vzlRspErrors 1) Reg.vzlEvents 13) r (reqZeros r)

/-- A request without a response within VZL_TIMEOUT completes with zeros (R581). -/
def requestTimeout (s : State) (tag : Nat) : State :=
  match openReq s tag with
  | none => s
  | some r => reqDone (setEv (satInc s Reg.vzlTimeouts 1) Reg.vzlEvents 14) r (reqZeros r)

/-- VZL_TAGS: tags in use (R584). -/
def vzlRead (s : State) (off : Nat) : Option Word :=
  if off = Reg.vzlTags then some (BitVec.ofNat 32 (s.vzl.reqs.filter fun r => r.data.isNone).length)
  else if off = Reg.vzlportSkew 0 then some (rd0 s Reg.hltLinkSkew &&& 0x7FFFFFFF)
  else if off = Reg.vzlportLatency 0 then some (rd0 s Reg.hltLinkLatency &&& 0x7FFFFFFF)
  else none

end Sys2Proof.Machine
end

