-- ==== Sys2Proof/Machine/Twin.lean ====
section
/-!
DEFINITION. The twin pair (spec/20_twin_pair.md): pairing, mirror records at the receiver, twin line time, checkpoints
with their exchanges, repeats and verdicts, salted compares, echoes and strip digests.
-/

namespace Sys2Proof.Machine

/-! ### Records at the receiver (R537, R539, R559) -/

/-- A data record: DESC, WRITE or SYNC (R537). -/
def dataKind (k : Nat) : Bool := [2, 3, 4].contains k

/-- KIND of a record. -/
def recKind (r : List DWord) : Nat := fld ((r[0]?).getD 0) 0 8

/-- Word i of a record. -/
def recWord (r : List DWord) (i : Nat) : DWord := (r[i]?).getD 0

/-- The record that waits first among the data records, or among the control records, if it is of a kind. -/
def nextRec (s : State) (kind : Nat) : Option (List DWord × Nat × Nat) :=
  (s.vzl.records.find? fun r => decide (dataKind (recKind r.1) = dataKind kind)).filter fun r => decide (recKind r.1 = kind)

/-- The record leaves port T's receive buffer. -/
def dropRec (s : State) (r : List DWord × Nat × Nat) : State :=
  freeSlots (onVzl s fun v => { v with records := v.records.erase r }) 0 r.2.2 r.2.1

/-- The next record of a kind is applied; port T then sends what has become due. -/
def recApply (s : State) (kind : Nat) (f : State → List DWord → State) : State :=
  match nextRec s kind with
  | some r => vzlPump (f (dropRec s r) r.1)
  | none => s

/-- The secondary of a running pair, to which mirror records apply. -/
def mirrored (s : State) : Bool := twinLinked s && decide (twinRole s = 2)

/-! ### Pairing (R530, R531) -/

/-- A received HELLO (R531). -/
def helloArrive (s : State) (r : List DWord) : State :=
  if twinState s ≠ 1 then s
  else
    let s := orReg s Reg.hltTwinStatus 32
    let same := decide (fld (recWord r 0) 32 2 = 3 - twinRole s) && decide ((recWord r 1).toNat = rd64 s Reg.hltTwinRingsLo) &&
      decide ((recWord r 2).toNat = rd64 s Reg.hltSaltSeedLo) && decide (fld (recWord r 3) 0 8 = rdF s Reg.hltTwinCfg 0 8)
    if same then pairCheck (onTwin s fun t => { t with helloOk := true }) else orReg s Reg.hltTwinStatus 256

/-- The device enters OFF (R531). -/
def twinOff (s : State) : State :=
  if twinState s = 0 then s
  else
    let s := mirrorStop (endExchanges (setTwinState s 0 0) 0x33)
    let s := onTwin s fun t => { t with alive := false, ltQ := [], early := [], resume := 0, ownStrips := [], peerStrips := [] }
    syncDrain (s.ctx.syncQ.length + 1) s

/-- A write of HLT_TWIN_CTRL (R15, R530, R531). -/
def twinCtrlWrite (s : State) (v : Word) : State :=
  if bit (rd0 s Reg.hltTwinLock) 0 then s
  else
    let s := wr s Reg.hltTwinCtrl (v &&& 7)
    if twinRole s = 0 ∨ bit v 2 = false then twinOff s
    else if twinState s = 0 then
      let s := clrReg (setTwinState s 1 0) Reg.hltTwinStatus 0x120
      onTwin s fun t => { t with helloSent := false, helloOk := false, echoAt := s.ltb.lineEvents }
    else s

/-- A write of HLT_TWIN_CMD.RESUME (R555). -/
def twinResume (s : State) (v : Word) : State :=
  let able := decide (twinState s = 2) || (decide (twinState s = 3) &&
    (decide (twinCause s = 1) || (s.twin.retrained && portActive s 0)))
  if bit v 0 && able then onTwin s fun t => { t with resume := 0xFFFFFFFFFFFFFFFF } else s

/-! ### Data records (R537, R538) -/

/-- The bytes of a WRITE record: LEN dwords with their byte enables (R559). -/
def writeRecBytes (r : List DWord) : List (Option Byte) :=
  let n := fld (recWord r 0) 32 7 + 1
  let b := fun (i : Nat) => fld (recWord r 1) i 4
  (List.range n).flatMap fun i =>
    let w := fld (recWord r (2 + i / 2)) (32 * (i % 2)) 32
    let be := if i = 0 then b 48 else if i + 1 = n then b 52 else 15
    (leBytes w 4).zipIdx.map fun p => if be.testBit p.2 then some p.1 else none

/-- A WRITE record (R537). -/
def writeArrive (s : State) (r : List DWord) : State :=
  if mirrored s then
    let pa := fld (recWord r 1) 2 46 * 4
    l2WriteN s pa ((writeRecBytes r).take (usable s - pa))
  else s

/-- A SYNC record (R537). Which context signals or poisons is not carried: a free value. -/
def syncArrive (s : State) (r : List DWord) : State :=
  if !mirrored s then s
  else
    let obj := fld (recWord r 0) 32 16
    let v := (recWord r 1).toNat
    if bit (recWord r 0) 49 then initObj s obj v false
    else
      let (k, s) := drawFree s
      let ctx := (Config.freeByte k).toNat % 128
      if bit (recWord r 0) 48 then poisonObj s obj ctx false else (signalObj s obj v ctx false).1

/-- The descriptor of a DESC record (R538, R559). -/
def descOfRecord (s : State) (r : List DWord) : Desc :=
  let n := fld (recWord r 0) 8 6
  let words := (List.range 8).map fun i => recWord r (2 + i)
  let g := gateResolve (fld (recWord r 1) 0 32) (fld ((words[0]?).getD 0) 16 20)
  { fetchedDesc s n words with
    id := { ring := n, seq := fld (recWord r 0) 32 32, stream := (ringSt s n).stream }, gate := g
    urgency := if bit ((words[0]?).getD 0) 8 then urgencyOf s g else 0 }

/-- A DESC record takes the place of the fetch (R538). The answer true: it waits in the receive buffer. -/
def descArrive (s0 : State) (r : List DWord) : State × Bool :=
  let n := fld (recWord r 0) 8 6
  if !mirrored s0 then (s0, false)
  else if !ringEnabled s0 n then (setEv s0 Reg.hltTwinEvents 8, false)
  else if 2048 ≤ s0.cfe.descs.length then (s0, true)
  else
    let s := chainStart s0 n
    let d := descOfRecord s r
    let s := wrN s (Reg.ringSeq n) (d.id.seq + 1)
    match acceptDesc (if d.chained then chainAdvance s n else s) d with
    | (s', true) => (retryWait s0 s', true)
    | (s', false) => (s', false)

/-- The effect of DESC. -/
def descEffect (s : State) : State :=
  match nextRec s 2 with
    | none => s
    | some r => match descArrive s r.1 with
      | (s', true) => s'
      | (s', false) => vzlPump (dropRec s' r)

/-- A LOSS record (R542). -/
def lossArrive (s : State) (r : List DWord) : State :=
  let c := fld (recWord r 0) 32 7
  let f := fun (lo w : Nat) => fld (recWord r 1) lo w
  if twinLinked s && decide ((ctxSlot s c).state = .loaded) then
    setEv (contextLoss s c (f 0 16) (f 16 6) (f 32 32) false) Reg.hltTwinEvents 7
  else s

/-! ### Twin line time and timing generators (R543, R544) -/

/-- A received event takes effect in the TWIN source position. -/
def ltDeliver (s : State) (e : Nat × Bool) : State :=
  if e.2 then sourceFrame s 10 (some (ltFrameOf e.1)) else sourceLine s 10

/-- An LT record: its event is due at arrival - LATENCY + HOLD (R543). -/
def ltArrive (s : State) (r : List DWord) : State :=
  if !mirrored s then s
  else
    let e := ((recWord r 1).toNat, bit (recWord r 0) 32)
    if !linkParityOk s then linkTimingFault s
    else if rdF s Reg.hltTwinHold 0 24 < linkLatency s then linkTimingFault (ltDeliver s e)
    else onTwin s fun t => { t with ltQ := t.ltQ ++ [e] }

/-- The event that is due takes effect (R543). -/
def twinLtEvent (s : State) : State :=
  match s.twin.ltQ with
  | [] => s
  | e :: es => ltDeliver (onTwin s fun t => { t with ltQ := es }) e

/-- A TGSYNC record: it starts a TG that holds for it, or gives the skew of its frame event (R544). -/
def tgsyncArrive (skew : BitVec 16) (s : State) (r : List DWord) : State :=
  let m := fld (recWord r 0) 32 2
  if !mirrored s then s
  else if !linkParityOk s then linkTimingFault s
  else if (s.twin.tgWait[m]?).getD false then
    let t := tgHold s m false false
    if (s.twin.tgReady[m]?).getD false then tgStart t m else t
  else if (outOf s m).running then wrN s (Reg.hltTgSkew m) skew.toNat
  else s

/-! ### Echoes (R552) -/

/-- An ECHO request goes out once INTERVAL lines have passed. -/
def echoRequest (s : State) : State :=
  if twinLinked s && portActive s 0 && decide (max 1 (rdF s Reg.hltEcho 0 12) ≤ s.ltb.lineEvents - s.twin.echoAt) then
    if linkParityOk s then
      sendCtrl (onTwin s fun t => { t with echoAt := s.ltb.lineEvents }) [recW0 10 0 0, BitVec.ofNat 64 s.ltb.refcount]
    else linkTimingFault s
  else s

/-- An ECHO is returned; a reply gives a latency from its round trip, in 1/256 REF cycle less the peer's 64 fabric
cycles, and is checked (R552). -/
def echoArrive (trip : Nat) (s : State) (r : List DWord) : State :=
  if !twinLinked s then s
  else if !bit (recWord r 0) 32 then sendCtrl s [recW0 10 0 1, recWord r 1]
  else
    let l := trip / 2 % 2 ^ 24
    let s := wrN s Reg.hltLinkEchoLast l
    let lat := linkLatency s
    if linkParityOk s && decide (max l lat - min l lat ≤ rdF s Reg.hltEcho 16 8) then s else linkTimingFault s

/-! ### Strip digests (R558) -/

/-- A STRIP record. -/
def stripArrive (s : State) (r : List DWord) : State :=
  if !twinLinked s then s
  else
    let n := fld (recWord r 0) 32 4
    let f := fld (recWord r 1) 0 32
    let k := fld (recWord r 1) 32 16
    stripCompare (onTwin s fun t => { t with peerStrips := t.peerStrips ++ [(n, f, k, recWord r 2, bit (recWord r 0) 36)] }) n f k

/-! ### Exchanges (R545, R546, R550) -/

/-- salt(n, side) (R550). -/
def salt (s : State) (n side : Nat) : DWord :=
  (BitVec.ofNat 64 (rd64 s Reg.hltSaltSeedLo) ^^^ (BitVec.ofNat 64 (2 * n + side) * 0x0100000000000001)) ||| 1

/-- Side of this twin: 0 primary, 1 secondary. -/
def ownSide (s : State) : Nat := if twinRole s = 2 then 1 else 0

/-- The CKPT record, with D_S salted in a salted exchange (R545, R550, R559). -/
def ckptRecord (s : State) (ring : Nat) (c : CkptRec) : TwinRec :=
  let ds := if c.salted then c.ds + salt s c.n (ownSide s) else c.ds
  [recW0 7 ring (b2n c.repeated + 2 * b2n c.salted), BitVec.ofNat 64 (c.n % 2 ^ 32 + c.ckptId % 2 ^ 32 * 2 ^ 32), ds, c.dm,
    BitVec.ofNat 64 (c.used.toNat + c.map.toNat * 2 ^ 16 + c.fw.toNat * 2 ^ 32)]

/-- A CKPT record as received; D_S as it stands there. -/
def ckptOfRecord (r : List DWord) : CkptRec :=
  { repeated := bit (recWord r 0) 32, salted := bit (recWord r 0) 33, n := fld (recWord r 1) 0 32, ckptId := fld (recWord r 1) 32 32
    ds := recWord r 2, dm := recWord r 3, used := BitVec.ofNat 16 (fld (recWord r 4) 0 16)
    map := BitVec.ofNat 16 (fld (recWord r 4) 16 16), fw := BitVec.ofNat 32 (fld (recWord r 4) 32 32) }

/-- What this twin's CKPT record holds of a segment. -/
def ckptOf (s : State) (g : Segment) (n ckptId : Nat) (repeated salted : Bool) : CkptRec :=
  { repeated := repeated, salted := salted, n := n, ckptId := ckptId, ds := g.strict, dm := g.mapSens, used := g.clusters
    map := mapMask s, fw := rd s Reg.grmFwVersion }

/-- Equal maps (R546). -/
def mapsEqual (a b : CkptRec) : Bool := decide (a.map = b.map) && decide (a.fw = b.fw)

/-- Two sets of digests agree as far as they are compared (R546). -/
def digestsEqual (maps : Bool) (a b : DWord × DWord) : Bool := decide (a.1 = b.1) && (!maps || decide (a.2 = b.2))

/-- This twin's digests of a record, and the peer's, without their salt. -/
def ownDigests (c : CkptRec) : DWord × DWord := (c.ds, c.dm)
def peerDigests (s : State) (salted : Bool) (c : CkptRec) : DWord × DWord :=
  (if salted then c.ds - salt s c.n (1 - ownSide s) else c.ds, c.dm)

/-- The CHECKPOINT of an exchange ends with a status; DETAIL holds the local D_S of the last run (R545). -/
def exchangeEnd (s : State) (x : Exchange) (status : Nat) : State :=
  let ds := ((x.own1.getD x.own).ds).toNat
  let s := if status = 0 then unitDone s x.id ds else decideDesc s x.id { status := status, detail := ds }
  exchangeSweep s

/-- The groomer's part in a TRANSIENT or PERMANENT verdict (R549, R602, R618, R626). -/
def verdictHealth (s : State) (x : Exchange) (status side : Nat) (kat : Bool) : State :=
  let named := side.testBit (ownSide s)
  let used := (x.own1.getD x.own).used
  let s := wearRecord s 6 [x.id.ring + status * 2 ^ 6 + side * 2 ^ 22 + b2n kat * 2 ^ 24]
  if status = 0x30 then
    if named then maskSuspects (wearAdd s (deviceCounter 14) 1) used else s
  else
    let s := if named then wearAdd s (deviceCounter 15) 1 else s
    if kat then (if side = 0 then uncoreSuspect s 1 else s)
    else if named then katTest s .permanent (onesBelow used.toNat 16) false 0 else s

/-- What HLT_TWIN_VERDICT, HLT_TWIN_USED, the counts and the events show of such a verdict (R549, R560). -/
def verdictShow (s : State) (x : Exchange) (status side : Nat) (kat : Bool) : State :=
  let own := x.own1.getD x.own
  let peer := (x.peer1.getD (x.peer.getD {})).used
  let s := wrN s Reg.hltTwinVerdict (x.id.ring + side * 2 ^ 6 + 2 ^ 8 + b2n kat * 2 ^ 9 + x.n % 2 ^ 16 * 2 ^ 16)
  let s := wrN s Reg.hltTwinUsed (own.used.toNat + peer.toNat * 2 ^ 16)
  if status = 0x30 then setEv (satInc s Reg.hltTransients 1) Reg.hltTwinEvents 0
  else setEv (satInc s Reg.hltPermanents 1) Reg.hltTwinEvents 1

/-- A forced exchange whose salt test has passed on both twins ends UNCHECKED (R555). -/
def exchangeResumes (s : State) (x : Exchange) : State :=
  if x.forced && x.saltOk && decide (twinState s = 3) then setTwinState s 2 0 else s

/-- Whether the two VERDICTs of an exchange agree; after known-answer tests each names its own side (R549, R551). -/
def verdictsAgree (a b : VerdictRec) : Bool :=
  decide (a.status = b.status) && decide (a.kat = b.kat) && (a.kat || decide (a.side = b.side))

/-- Both VERDICTs are there: the CHECKPOINT retires with the verdict, or the checker has failed (R545, R551). -/
def exchangeFinish (s : State) (ring : Nat) : State :=
  match exchangeOf s ring with
  | none => s
  | some x => match x.verdict, x.peerVerdict with
    | some v, some w =>
      if !verdictsAgree v w then checkerFault s ring x.n true
      else
        let s := exchangeResumes s x
        let side := if v.kat then v.side ||| w.side else v.side
        let s := if v.status = 0x34 then setEv s Reg.hltTwinEvents 4 else s
        let s := exchangeEnd s x v.status
        if v.status = 0x30 ∨ v.status = 0x31 then verdictHealth (verdictShow s x v.status side v.kat) x v.status side v.kat else s
    | _, _ => s

/-- A verdict is formed: it is sent, and compared with the peer's (R545). -/
def exchangeVerdict (s : State) (ring : Nat) (v : VerdictRec) : State :=
  let at' := s.ltb.lineEvents
  exchangeFinish (sendCtrl (onExchange s ring fun x => { x with verdict := some v, sentAt := at' }) (verdictRecord ring v)) ring

/-- The first run's records are both there (R546, R547, R550). -/
def firstJudge (s : State) (x : Exchange) (p : CkptRec) : State :=
  let ring := x.id.ring
  let maps := mapsEqual x.own p
  let s := wrF s Reg.hltTwinStatus 7 1 (b2n (!maps))
  let delta := p.ds - x.own.ds
  let pass := x.salted && decide (delta = salt s x.n (1 - ownSide s))
  let s := if pass then onExchange (satInc s Reg.hltSaltPasses 1) ring fun x => { x with saltOk := true } else s
  if x.salted && !pass && (decide (delta = 0) || x.forced) then checkerFault s ring x.n true
  else if (if x.salted then pass else decide (delta = 0)) && (!maps || decide (p.dm = x.own.dm)) then
    let excluded := !maps && (decide (p.dm ≠ 0) || decide (x.own.dm ≠ 0))
    exchangeVerdict s ring { status := if excluded then 0x34 else 0, n := x.n }
  else repeatFeed (onExchange s ring fun x => { x with repeating := true }) ring

/-- The repeat's records are both there: the verdict of R549, or the tests of its last row. -/
def secondJudge (s : State) (x : Exchange) (p0 own1 p1 : CkptRec) : State :=
  let ring := x.id.ring
  let maps := mapsEqual own1 p1
  let s := wrF s Reg.hltTwinStatus 7 1 (b2n (!maps))
  let eq := digestsEqual maps
  let ownSame := eq (ownDigests own1) (ownDigests x.own)
  let peerSame := eq (peerDigests s false p1) (peerDigests s x.salted p0)
  let bits := fun (own peer : Bool) => if ownSide s = 0 then b2n own + 2 * b2n peer else b2n peer + 2 * b2n own
  if eq (ownDigests own1) (peerDigests s false p1) then
    exchangeVerdict s ring { status := 0x30, side := bits (!ownSame) (!peerSame), n := x.n }
  else if ownSame && peerSame then
    let s := wrN s Reg.hltTwinUsed (own1.used.toNat + p1.used.toNat * 2 ^ 16)
    let s := onExchange s ring fun x => { x with testing := true }
    katSettle (katRequest s (katGroup s (.verdict ring) (onesBelow own1.used.toNat 16) false 0))
  else exchangeVerdict s ring { status := 0x31, side := bits (!ownSame) (!peerSame), n := x.n }

/-- An exchange goes on as far as its records allow. -/
def exchangeJudge (s : State) (ring : Nat) : State :=
  match exchangeOf s ring with
  | none => s
  | some x =>
    if x.verdict.isSome || x.testing then s
    else match x.tested, x.peer, x.own1, x.peer1 with
      | some ok, _, _, _ => exchangeVerdict s ring { status := 0x31, side := if ok then 0 else 2 ^ ownSide s, kat := true, n := x.n }
      | none, some p, none, _ => if x.repeating then s else firstJudge s x p
      | none, some p, some o, some q => secondJudge s x p o q
      | _, _, _, _ => s

/-- Verdicts whose known-answer tests have ended are formed (R549, R601). -/
def exchangeTested (s : State) : State :=
  (s.twin.exchanges.filter fun x => x.tested.isSome && x.verdict.isNone).foldl (fun s x => exchangeJudge s x.id.ring) s

/-! ### CHECKPOINT (R535, R545, R554) -/

/-- A ring's segment accumulators. -/
def segOf (s : State) (n : Nat) : Segment := (s.hlt.seg[n]?).getD {}

/-- A segment is closed: the accumulators clear, and the next CHECKPOINT has the next number (R535, R545). -/
def segClose (s : State) (n : Nat) : State :=
  onHlt s fun h => { h with seg := modAt h.seg n fun g => { n := (g.n + 1) % 2 ^ 32 } }

/-- A CHECKPOINT retires without an exchange. -/
def checkpointAlone (s : State) (d : Desc) (status : Nat) : State :=
  let ds := (segOf s d.id.ring).strict.toNat
  let s := segClose s d.id.ring
  if status = 0 then retireDesc (unitDone s d.id ds) d.id else retireNow s d.id { status := status, detail := ds }

/-- The ring's bit of RESUME. -/
def resumeBit (s : State) (ring : Nat) : Bool := bit s.twin.resume ring

/-- A CHECKPOINT begins its exchange (R545, R550, R555): the segment is closed, and the accumulators of a repeat start
from what unrepeatable descriptors contributed (R547). -/
def checkpointBegin (s : State) (d : Desc) : State :=
  let ring := d.id.ring
  let g := segOf s ring
  let every := rdF s Reg.hltTwinCfg 0 8
  let salted := resumeBit s ring || (decide (every ≠ 0) && decide (g.n % every = 0))
  let own := ckptOf s g g.n (fld (descWord d 2) 0 32) false salted
  let early := s.twin.early.find? fun e => decide (e.1 = ring) && decide (e.2.n = g.n) && !e.2.repeated
  let x : Exchange := { id := d.id, n := g.n, ckptId := own.ckptId, salted := salted, forced := decide (twinState s = 3), own := own,
                        peer := early.map Prod.snd, left := g.descs, sentAt := s.ltb.lineEvents }
  let s := onHlt (segClose s ring) fun h => { h with
    rep := setAt h.rep ring { strict := g.strictU, mapSens := g.mapSensU, clusters := g.clusters, n := g.n } }
  let s := onDesc s d.id fun d => { d with started := true }
  let s := onTwin s fun t => { t with
    exchanges := t.exchanges ++ [x], resume := t.resume &&& ~~~ (BitVec.ofNat 64 (2 ^ ring))
    early := t.early.filter fun e => !(decide (e.1 = ring) && decide (e.2.n = g.n)) }
  exchangeJudge (sendCtrl s (ckptRecord s ring own)) ring

/-- CHECKPOINT: of a ring that exchanges nothing, of an UNCHECKED pair, or of a CHECKED one (R534, R545, R554, R555). -/
def checkpointDesc (d : Desc) (s : State) : State :=
  let ring := d.id.ring
  if !twinRing s ring || decide (twinState s < 2) then checkpointAlone s d 0
  else if twinState s = 3 ∧ resumeBit s ring = false then checkpointAlone s d (uncheckedStatus (twinCause s))
  else checkpointBegin s d

/-- The effect of CHECKPOINT. -/
def checkpointEffect (s : State) : State :=
  match oldestOf s fun d => decide (descOp d = 5) && !d.started with
    | some d => vzlPump (checkpointDesc d s)
    | none => s

/-- A CKPT record: it joins its exchange, or waits for the local CHECKPOINT (R545). -/
def ckptArrive (s : State) (r : List DWord) : State :=
  let ring := fld (recWord r 0) 8 6
  let c := ckptOfRecord r
  if !twinLinked s then s
  else match exchangeOf s ring with
    | some x =>
      if x.n ≠ c.n then onTwin s fun t => { t with early := t.early ++ [(ring, c)] }
      else if c.repeated then
        exchangeJudge (onExchange (exchangeResumes s x) ring fun x => { x with peer1 := some c }) ring
      else exchangeJudge (onExchange s ring fun x => { x with peer := some c }) ring
    | none => onTwin s fun t => { t with early := t.early ++ [(ring, c)] }

/-- A VERDICT record: a cause takes this twin to UNCHECKED, a verdict is compared with its own (R551, R552). -/
def verdictArrive (s : State) (r : List DWord) : State :=
  let w := recWord r 0
  let ring := fld w 8 6
  let n := fld (recWord r 1) 0 32
  if !twinLinked s then s
  else if bit w 43 then
    if fld w 44 2 = 2 then enterUnchecked (setEv s Reg.hltTwinEvents 3) 2 else checkerFault s ring n false
  else match exchangeOf s ring with
    | some x =>
      if x.n ≠ n then s
      else
        let v : VerdictRec := { status := fld w 32 8, side := fld w 40 2, kat := bit w 42, n := n }
        exchangeFinish (onExchange s ring fun x => { x with peerVerdict := some v }) ring
    | none => s

/-- The repeat of a ring's segment has ended: an unsalted CKPT record with phase REPEAT is sent (R547). -/
def repeatEnd (s : State) (ring : Nat) : State :=
  match exchangeOf s ring with
  | none => s
  | some x =>
    if !x.repeating || x.own1.isSome then s
    else if !x.left.isEmpty || repeatLive s ring then repeatFeed s ring
    else
      let own := ckptOf s ((s.hlt.rep[ring]?).getD {}) x.n x.ckptId true false
      let at' := s.ltb.lineEvents
      let s := onExchange s ring fun x => { x with own1 := some own, sentAt := at' }
      exchangeJudge (sendCtrl s (ckptRecord s ring own)) ring

/-- The peer's record of an exchange has not arrived in TIMEOUT lines, while port T is up (R551). -/
def checkerTimeout (s : State) (ring : Nat) : State :=
  match exchangeOf s ring with
  | none => s
  | some x =>
    let waits := x.peer.isNone || (x.own1.isSome && x.peer1.isNone) || (x.verdict.isSome && x.peerVerdict.isNone)
    if waits && portActive s 0 && decide (max 1 (rdF s Reg.hltTwinCfg 16 12) ≤ s.ltb.lineEvents - x.sentAt) then
      checkerFault s ring x.n true
    else s

end Sys2Proof.Machine
end

