-- ==== Sys2Proof/Machine/Groomer.lean ====
section
/-!
DEFINITION. The groomer and the always-on domain (spec/23_lifetime_and_groomer.md): the calendar, the wear area
of the flash, the mailbox, firmware images, and what the groomer observes at each calendar tick.
-/

namespace Sys2Proof.Machine

/-- GRM_STATUS.FW_RUNNING. -/
def fwRunning (s : State) : Bool := bit (rd0 s Reg.grmStatus) 1

/-! ### The calendar (R615, R616) -/

/-- A 64-bit calendar value from its fields. -/
def calMake (valid year month day second sub : Nat) : Nat :=
  sub + second * 2 ^ 10 + day * 2 ^ 27 + month * 2 ^ 32 + year * 2 ^ 36 + valid * 2 ^ 63

/-- Days of a month (R615). -/
def monthDays (year month : Nat) : Nat :=
  if month = 2 then (if year % 4 = 0 ∧ (year % 100 ≠ 0 ∨ year % 400 = 0) then 29 else 28)
  else if [4, 6, 9, 11].contains month then 30 else 31

/-- Whether a calendar value is VALID with every field in range (R616). -/
def calOk (v : DWord) : Bool :=
  let year := fld v 36 12
  let month := fld v 32 4
  let day := fld v 27 5
  bit v 63 && decide (fld v 10 17 ≤ 86399) && decide (2000 ≤ year) && decide (1 ≤ month) && decide (month ≤ 12) &&
    decide (1 ≤ day) && decide (day ≤ monthDays year month)

/-- The calendar one tick later; it holds at the last tick of 4095-12-31. -/
def calNext (v : DWord) : DWord :=
  let sub := fld v 0 10
  let sec := fld v 10 17
  let day := fld v 27 5
  let month := fld v 32 4
  let year := fld v 36 12
  let mk := fun (y m d c u : Nat) => BitVec.ofNat 64 (calMake (b2n (bit v 63)) y m d c u)
  if sub < 1023 then mk year month day sec (sub + 1)
  else if sec < 86399 then mk year month day (sec + 1) 0
  else if day < monthDays year month then mk year month (day + 1) 0 0
  else if month < 12 then mk year (month + 1) 1 0 0
  else if year < 4095 then mk (year + 1) 1 1 0 0
  else v

/-! ### Waking (R614, R655) -/

/-- In STANDBY a wake begins the return to ACTIVE, with PME in D3hot (R85, R655). -/
def wakeStandby (s : State) : State :=
  if rdF s Reg.pmuStatus 0 2 ≠ 1 then s
  else
    let s := { s with pmu := { s.pmu with target := 0 } }
    let s := wrF s Reg.pmuStatus 7 1 1
    if s.hiu.d3hot then
      { s with hiu := { s.hiu with pmeStatus := true, pmeSent := if s.hiu.pmeEn then s.hiu.pmeSent + 1 else s.hiu.pmeSent } }
    else s

/-- A wake source fires: 1 the alarm, 2 WAKE_IN (R614). -/
def wake (s : State) (cause : Nat) : State :=
  let s := onAon s fun a => { a with wakeCause := cause }
  if s.pmu.rails then (if s.pmu.sysRstN then wakeStandby (setEv s Reg.grmEvents 5) else s) else onAon s fun a => { a with wakeOut := true }

/-! ### What the groomer observes (R602, R618) -/

/-- The temperature bin of a reading in 1/16 °C (R618). -/
def tempBin (t : Int) : Nat :=
  if t < -320 then 0 else if t < 400 then 1 else if t < 1120 then 2 else if t < 1440 then 3
  else if t < 1680 then 4 else if t < 1840 then 5 else if t < 2000 then 6 else 7

/-- A sensor register's reading in 1/16 °C. -/
def tempOf (s : State) (off : Nat) : Int := sext (rdF s off 0 16) 16

/-- The temperature bin of a cluster counts a second, in service or not (R618). -/
def clusterSeconds (s : State) (c : Nat) : State := wearAdd s (clusterCounter c (1 + tempBin (tempOf s (Reg.clhTemp c)))) 1

/-- Seconds counters advance; in STANDBY the clusters are power-gated, so none counts as powered (R618, R653). -/
def wearSeconds (s : State) : State :=
  let s := (List.range 16).foldl clusterSeconds (wearAdd s (deviceCounter 0) 1)
  let s := if rdF s Reg.pmuStatus 0 2 = 1 then s
    else (clustersInService s).foldl (fun s c => wearAdd s (clusterCounter c 0) 1) s
  let hot := [1, 2, 3].foldl (fun a i => max a (tempOf s (Reg.pmuTemp i))) (tempOf s (Reg.pmuTemp 0))
  let s := wearAdd s (deviceCounter (3 + tempBin hot)) 1
  if bit (rd0 s Reg.pmuStatus) 3 then wearAdd s (deviceCounter 20) 1 else s

/-- What a counter register has gained since it was last seen. -/
def gained (s : State) (off seen : Nat) : Nat := rdN s off - seen

/-- Sheet errors of a cluster: they are counted, an uncorrectable one has the cluster tested, and so has a corrected
count that reaches ECC_RATE in one calendar hour (R602, R618). -/
def pollSheet (s : State) (c : Nat) : State :=
  let h := s.hlt
  let k := gained s (Reg.sheetEccCorrCount c) ((h.seenCorr[c]?).getD 0)
  let u := gained s (Reg.sheetEccUncorrCount c) ((h.seenUncorr[c]?).getD 0)
  let before := (h.hourCorr[c]?).getD 0
  let rate := rdF s Reg.hltPolicy2 8 8
  let s := onHlt s fun h => { h with
    seenCorr := setAt h.seenCorr c (rdN s (Reg.sheetEccCorrCount c)), seenUncorr := setAt h.seenUncorr c (rdN s (Reg.sheetEccUncorrCount c))
    hourCorr := setAt h.hourCorr c (before + k) }
  let s := wearAdd (wearAdd s (clusterCounter c 12) k) (clusterCounter c 13) u
  let due := decide (0 < u) || (decide (rate ≠ 0) && decide (before < rate) && decide (rate ≤ before + k))
  if due && clusterCounts s c then katTest s .test [c] false 0 else s

/-- Errors of the L2, the LP5 channels and the Virzel ports (R602, R618, R626). -/
def pollUncore (s : State) : State :=
  let h := s.hlt
  let l2 := gained s Reg.l2cEccUncorrCount h.seenL2
  let dc := gained s Reg.memEccCorrCount h.seenDram.1
  let du := gained s Reg.memEccUncorrCount h.seenDram.2
  let total := ((List.range 4).map fun p => rdN s (Reg.vzlportRetrains p)).foldl (· + ·) 0
  let strips := gained s Reg.hltStripMismatches h.seenStrips
  let s := onHlt s fun h => { h with
    seenL2 := rdN s Reg.l2cEccUncorrCount, seenDram := (rdN s Reg.memEccCorrCount, rdN s Reg.memEccUncorrCount)
    seenRetrains := total, seenStrips := rdN s Reg.hltStripMismatches }
  let s := wearAdd (wearAdd (wearAdd s (deviceCounter 11) dc) (deviceCounter 12) du) (deviceCounter 13) l2
  let s := wearAdd s (deviceCounter 19) (total - h.seenRetrains)
  let s := if du = 0 then s else wearRecord s 7 [rd64 s Reg.memEccAddrLo % 2 ^ 48]
  uncoreSuspect (if strips = 0 then s else katSweep s .strip) l2

/-- The groomer observes the device. -/
def groomerPoll (s : State) : State := pollUncore ((List.range 16).foldl pollSheet s)

/-- The second that a calendar value names, and its hour. -/
def calSecond (v : DWord) : Nat := fld v 10 38
def calHour (v : DWord) : Nat × Nat := (fld v 27 21, fld v 10 17 / 3600)

/-- A tick of the calendar: SET_CALENDAR's value takes effect, the alarm fires when the calendar reaches it, seconds and
hours are counted, after a trip too, and the groomer observes the device (R614 to R618, R652). -/
def calendarTick (s : State) : State :=
  let old := s.aon.cal
  let new := s.aon.calNext.getD (calNext old)
  let s := onAon s fun a => { a with cal := new, calNext := none }
  let s := if bit s.aon.alarm 63 && decide (fld new 0 48 = fld s.aon.alarm 0 48) && decide (new ≠ old) then wake s 1 else s
  if !fwRunning s || !s.pmu.sysRstN then s
  else
    let s := if calSecond old = calSecond new then s else wearSeconds s
    let s := if calHour old = calHour new then s else onHlt s fun h => { h with hourCorr := List.replicate 16 0 }
    if ready s && hiuRunning s then vzlPump (groomerPoll s) else s

/-! ### The flash (R622, R625, R630) -/

/-- An erased byte of the flash. -/
def flashDefault (_ : Nat) : Byte := 0xFF

/-- n bytes of the flash. -/
def flashRead (m : Mem) (a n : Nat) : List Byte := (List.range n).map fun i => storeGet flashDefault m (a + i)

/-- Bytes are programmed or erased. -/
def flashWrite (m : Mem) (a : Nat) (bs : List Byte) : Mem :=
  bs.zipIdx.foldl (fun m p => storePut flashDefault m (a + p.2) p.1) m

/-- A little-endian value of the flash. -/
def flashLE (m : Mem) (a n : Nat) : Nat := leValue (flashRead m a n)

/-- Where block k of the wear area begins. -/
def wearBase (k : Nat) : Nat := 0x300000 + 0x10000 * k

/-- ERASES and BLOCK_SEQ of a block with a header (R625). -/
def wearHeader (m : Mem) (k : Nat) : Option (Nat × Nat) :=
  if flashLE m (wearBase k) 4 = 0x57454152 then some (flashLE m (wearBase k + 4) 4, flashLE m (wearBase k + 8) 4) else none

/-- A record found in the wear area: where it begins, its E0, and whether it is committed. -/
structure WearFound where
  at' : Nat
  e0 : DWord
  committed : Bool
deriving DecidableEq, Repr

/-- Bytes of a record with LEN payload bytes. -/
def wearBytes (len : Nat) : Nat := 24 + len

/-- Whether the record at an address is committed: its CRC matches and COMMIT is exact (R625). -/
def wearCommitted (m : Mem) (a len : Nat) : Bool :=
  decide (flashLE m (a + 16 + len) 4 = crc32c (flashRead m a (16 + len))) && decide (flashLE m (a + 20 + len) 4 = 0x5A5AA5A5)

/-- The records of a block from an offset on, at most n; an erased place ends them. -/
def wearScan (m : Mem) (k : Nat) : Nat → Nat → List WearFound
  | 0, _ => []
  | n + 1, o =>
    let a := wearBase k + o
    let e0 : DWord := BitVec.ofNat 64 (flashLE m a 8)
    let len := fld e0 16 16
    if fld e0 8 8 ≠ 1 ∨ len % 8 ≠ 0 ∨ 0x10000 < o + wearBytes len then []
    else { at' := a, e0 := e0, committed := wearCommitted m a len } :: wearScan m k n (o + wearBytes len)

/-- All committed records of the wear area. -/
def wearAll (m : Mem) : List WearFound :=
  (List.range 8).flatMap fun k => if (wearHeader m k).isSome then (wearScan m k 2730 16).filter WearFound.committed else []

/-- SEQ of a found record. -/
def foundSeq (f : WearFound) : Nat := fld f.e0 32 32

/-- The newest of some records. -/
def newest (fs : List WearFound) : Option WearFound :=
  fs.foldl (fun (a : Option WearFound) f => match a with
    | some b => if foundSeq b ≤ foundSeq f then some f else some b
    | none => some f) none

/-- The bytes of a formed record (R625). -/
def wearRecBytes (r : WearRec) : List Byte :=
  let e0 := r.kind + 2 ^ 8 + 8 * r.payload.length * 2 ^ 16 + r.seq * 2 ^ 32
  let body := leBytes e0 8 ++ leBytes r.stamp.toNat 8 ++ r.payload.flatMap fun w => leBytes w.toNat 8
  body ++ leBytes (crc32c body) 4 ++ leBytes 0x5A5AA5A5 4

/-- Word i of a mailbox request, 64 bits, and its OP (R627). -/
def reqWord (s : State) (i : Nat) : Nat := rd64 s (Reg.grmReq (2 * i))
def reqOp (s : State) : Nat := nfld (reqWord s 0) 0 8

/-- The block with the lowest BLOCK_SEQ; one without a header comes first (R630). -/
def wearLowest (m : Mem) : Nat :=
  let key := fun (k : Nat) => match wearHeader m k with
    | some h => h.2 + 1
    | none => 0
  (List.range 8).foldl (fun b k => if key k < key b then k else b) 0

/-- The highest BLOCK_SEQ, and 0 before the first. -/
def wearHighest (m : Mem) : Nat := ((List.range 8).map fun k => ((wearHeader m k).getD (0, 0)).2).foldl max 0

/-- The next block is begun: erased, with its header; a STATE record and a full SNAPSHOT set come first in it (R630). -/
def blockChange (s : State) : State :=
  let m := s.grm.flash
  let k := wearLowest m
  let erases := ((wearHeader m k).getD (0, 0)).1 + 1
  let head := leBytes 0x57454152 4 ++ leBytes erases 4 ++ leBytes (wearHighest m + 1) 4 ++ leBytes 0 4
  let m := m.filter fun c => decide (c.1 < wearBase k) || decide (wearBase (k + 1) ≤ c.1)
  let old := s.grm.recs
  let s := onGrm s fun g => { g with flash := flashWrite m (wearBase k) head, blk := k, off := 16, recs := [] }
  onGrm (snapshotSet s) fun g => { g with recs := g.recs ++ old.drop (g.recs.length + old.length - 256) }

/-- A flash operation has failed twice: it is counted and flagged, and the response of a WRITE_SNAPSHOT whose records
are being written says so (R628, R631). -/
def flashFailed (s : State) : State :=
  onGrm (setEv (wearAdd s (deviceCounter 21) 1) Reg.grmEvents 3) fun g => { g with
    rsp := if reqOp s = 9 then g.rsp.map fun r => { r with result := 4 } else g.rsp }

/-- The oldest record is programmed and committed, or its block is abandoned after a second failure (R630, R631). -/
def recordCommit (s : State) (fails : Nat) : State :=
  match s.grm.recs.head? with
  | none => s
  | some r0 =>
    if !fwRunning s then s
    else
      let size := fun (r : WearRec) => wearBytes (8 * r.payload.length)
      let s := if 0x10000 < s.grm.off + size r0 then blockChange s else s
      if 2 ≤ fails then
        onGrm (flashFailed s) fun g => { g with off := 0x10001 }
      else
        match s.grm.recs with
        | [] => s
        | r :: rs =>
          let s := onGrm s fun g => { g with
            flash := flashWrite g.flash (wearBase g.blk + g.off) (wearRecBytes r), off := g.off + size r, recs := rs }
          setEv (wrN s Reg.grmSeq r.seq) Reg.grmEvents 2

/-! ### Firmware images (R624) -/

/-- Where a firmware slot begins. -/
def slotBase (k : Nat) : Nat := 0x100000 * (k + 1)

/-- VERSION of an image whose header F0 is well formed: MAGIC and LENGTH. -/
def imageVersion (f0 f1 : Nat) : Option Nat :=
  let len := f0 / 2 ^ 32 % 2 ^ 32
  if f0 % 2 ^ 32 = 0x47524D31 ∧ len % 16 = 0 ∧ len ≤ 1047936 then some (f1 % 2 ^ 32) else none

/-- VERSION of the image in a slot, if its header is well formed and its signature verifies. -/
def slotSigned (s : State) (k : Nat) : Option Nat :=
  if (s.grm.sig[k]?).getD false then imageVersion (flashLE s.grm.flash (slotBase k) 8) (flashLE s.grm.flash (slotBase k + 8) 8) else none

/-- VERSION of the valid image in a slot: its SVN is at least the fused minimum too. -/
def slotValid (s : State) (k : Nat) : Option Nat := (slotSigned s k).filter fun v => decide (s.fuse.minSvn ≤ v % 256)

/-! ### The mailbox (R627, R628, R632) -/

/-- ARG0 and ARG1 of the request. -/
def reqArg0 (s : State) : Nat := nfld (reqWord s 0) 32 32
def reqArg1 (s : State) : Nat := reqWord s 1

/-- GRM_STATUS.BUSY. -/
def grmBusy (s : State) : Bool := bit (rd0 s Reg.grmStatus) 0

/-- A write of GRM_DOORBELL (R632). -/
def grmDoorbell (s : State) (v : Word) : State :=
  if !bit v 0 then s
  else if grmBusy s || !fwRunning s then setEv s Reg.grmEvents 1
  else onGrm (orReg s Reg.grmStatus 1) fun g => { g with rsp := none, katWait := false }

/-- The groomer takes up the request, if it has this OP and is not taken up yet. -/
def takeUp (s : State) (op : Nat) (f : State → State) : State :=
  if grmBusy s && fwRunning s && decide (reqOp s = op) && s.grm.rsp.isNone && !s.grm.katWait then f s else s

/-- The response is ready. -/
def reply (s : State) (result value : Nat) (payload : List Nat) : State :=
  onGrm s fun g => { g with rsp := some { result := result, value := value, payload := payload.map fun w => BitVec.ofNat 64 w } }

/-- The effect of GET_VERSION. -/
def getVersionEffect (s : State) : State :=
  reply s 0 (rdN s Reg.grmFwVersion + (slotValid s (1 - s.grm.slot)).getD 0 * 2 ^ 32)
  [s.fuse.minSvn % 256 + s.grm.slot % 2 * 2 ^ 8]

/-- A calendar value without its reserved bits. -/
def calMask (v : Nat) : DWord := BitVec.ofNat 64 (v % 2 ^ 48 + v / 2 ^ 63 % 2 * 2 ^ 63)

/-- The effect of SET_CALENDAR. -/
def setCalendarEffect (s : State) : State :=
  let v := calMask (reqArg1 s)
  if calOk v then reply (onAon (wearRecord s 9 [s.aon.cal.toNat, v.toNat]) fun a => { a with calNext := some v }) 0 0 []
  else reply s 2 0 []

/-- The effect of SET_ALARM. -/
def setAlarmEffect (s : State) : State :=
  let v := calMask (reqArg1 s)
  if !bit v 63 then reply (onAon s fun a => { a with alarm := 0 }) 0 0 []
  else if calOk v then reply (onAon s fun a => { a with alarm := v }) 0 0 []
  else reply s 2 0 []

/-- The effect of READ_COUNTERS. -/
def readCountersEffect (s : State) : State :=
  let first := reqArg0 s % 2 ^ 11
  let n := reqArg1 s % 2 ^ 6
  let c := fun (i : Nat) => if i < n then (wearCounter s (first + i)).toNat else 0
  if n = 0 ∨ 60 < n then reply s 2 0 [] else reply s 0 0 ((List.range ((n + 1) / 2)).map fun i => c (2 * i) + c (2 * i + 1) * 2 ^ 32)

/-- The effect of READ_LOG. -/
def readLogEffect (s : State) : State :=
  match (wearAll s.grm.flash).find? fun f => decide (foundSeq f = reqArg0 s) with
  | none => reply s 7 0 []
  | some f =>
    let n := wearBytes (fld f.e0 16 16)
    let o := reqArg1 s
    if n ≤ o then reply s 2 0 []
    else
      let k := min 240 (n - o)
      reply s 0 n (wordsLE (ceilDiv k 8) (flashRead s.grm.flash (f.at' + o) k))

/-- The effect of REQUEST_KAT. -/
def requestKatEffect (s : State) : State :=
  let g := katGroup s .mailbox (onesBelow (reqArg0 s) 16 |>.filter (inService s)) false 0
  if draining s then reply s 3 0 []
  else if g.left.isEmpty then reply s 0 0 []
  else katRequest (onGrm s fun x => { x with katWait := true }) g

/-- The effect of WRITE_SNAPSHOT. -/
def writeSnapshotEffect (s : State) : State :=
  let s := snapshotSet s
  reply s 0 ((s.grm.seq + 2 ^ 32 - 1) % 2 ^ 32) []

/-- FW_INSTALL: the image is checked, programmed into the slot not booted, and checked again (R627, R633). Whether its
signature verifies, and whether the flash takes it, come with the command. -/
def fwInstall (s : State) (sigOk flashOk : Bool) : State :=
  let n := reqArg0 s
  let pa := reqArg1 s
  if n < 160 ∨ 1048096 < n ∨ usable s < pa + n then reply s 2 0 []
  else
    let (s, bs, _) := l2ReadN s pa n
    let f0 := leValue (bs.take 8)
    let k := 1 - s.grm.slot
    match imageVersion f0 (leValue ((bs.drop 8).take 8)) with
    | none => reply s 5 0 []
    | some v =>
      if !sigOk || decide (f0 / 2 ^ 32 + 160 ≠ n) then reply s 5 0 []
      else if v % 256 < s.fuse.minSvn then reply s 6 0 []
      else
        let blank := s.grm.flash.filter fun c => decide (c.1 < slotBase k) || decide (slotBase k + 0x100000 ≤ c.1)
        let s := onGrm s fun g => { g with flash := flashWrite blank (slotBase k) bs, sig := setAt g.sig k flashOk }
        if flashOk then reply s 0 v [] else flashFailed (reply s 4 0 [])

/-- The registers of GRM_RSP take 64-bit words from word 0 on. -/
def rspWrite (s : State) (ws : List Nat) : State := ws.zipIdx.foldl (fun s p => wr64 s (Reg.grmRsp (2 * p.2)) p.1) s

/-- The response that is due: that of the request taken up, or BAD_OP for an undefined OP (R628). A WRITE_SNAPSHOT
answers once its records are written (R632). -/
def rspDue (s : State) : Option GrmRsp :=
  let op := reqOp s
  if op = 0 ∨ 10 < op then some { result := 1 }
  else s.grm.rsp.filter fun r => !(decide (op = 9) && s.grm.recs.any fun x => decide (x.seq = r.value))

/-- MAILBOX_RESPONSE: the response stands in GRM_RSP, BUSY clears and RESPONSE is set (R627, R632). -/
def mailboxResponse (s : State) : State :=
  if !grmBusy s then s
  else match rspDue s with
    | none => s
    | some r =>
      let a0 := reqOp s + r.payload.length * 2 ^ 8 + nfld (reqWord s 0) 16 16 * 2 ^ 16 + r.result * 2 ^ 32
      let s := rspWrite s (a0 :: r.value :: r.payload.map BitVec.toNat)
      onGrm (setEv (clrReg s Reg.grmStatus 1) Reg.grmEvents 0) fun g => { g with rsp := none }

/-- AON registers (R634). -/
def aonRead (s : State) (off : Nat) : Option Word :=
  let a := s.aon
  if off = Reg.aonCalLo then some (BitVec.ofNat 32 a.cal.toNat)
  else if off = Reg.aonCalHi then some (BitVec.ofNat 32 (a.cal.toNat / 2 ^ 32))
  else if off = Reg.aonStatus then some (BitVec.ofNat 32 (b2n (bit a.cal 63) + 2 * b2n a.lost + 4 * a.wakeCause))
  else if off = Reg.aonAlarmLo then some (BitVec.ofNat 32 a.alarm.toNat)
  else if off = Reg.aonAlarmHi then some (BitVec.ofNat 32 (a.alarm.toNat / 2 ^ 32))
  else none

end Sys2Proof.Machine
end

