-- ==== Sys2Proof/Machine/Pins.lean ====
section
/-!
DEFINITION. Pins, multiplexing, GPIO, I2C and JTAG (spec/25_pins.md), and the sync inputs of the LTB
(spec/02_line_time.md R51, R54, R76).
-/

namespace Sys2Proof.Machine

/-- The state with its pins changed. -/
def onPins (s : State) (f : Pins → Pins) : State := { s with pins := f s.pins }

/-! ### Slots and owners (R660 to R665) -/

/-- The code in slot 0 or 1 of a pin. -/
def pinSlotCode (s : State) (k slot : Nat) : Nat := rdF s (Reg.pinCfg k) (3 * slot) 3

/-- The owner of a pin: 0 HOST, 1 LINE, 2 GROOMER; 3 acts as 2 (R662). -/
def pinOwner (s : State) (k : Nat) : Nat := min 2 (rdF s (Reg.pinCfg k) 6 2)

/-- Owners that a function allows, as a mask; 0 where the code names no function (R661). -/
def fnOwners (f j : Nat) : Nat :=
  match f with
  | 0 => 7
  | 1 => if j < 6 then 4 else 5
  | 2 => if j = 4 ∨ j = 5 then 5 else 4
  | 3 => if j < 6 then 2 else 0
  | 4 => 1
  | _ => 0

/-- Whether a slot is inert (R665). -/
def slotInert (s : State) (k slot : Nat) : Bool := !(fnOwners (pinSlotCode s k slot) (k % 8)).testBit (pinOwner s k)

/-- Whether a pin carries function f of position j in a slot that is not inert. -/
def pinCarries (s : State) (f j k : Nat) : Bool :=
  decide (k % 8 = j) && (List.range 2).any fun i => decide (pinSlotCode s k i = f) && !slotInert s k i

/-- The pins that carry a function. -/
def fnPins (s : State) (f j : Nat) : List Nat := ((List.range 8).map fun b => 8 * b + j).filter (pinCarries s f j)

/-- Code, position and default of each input function, in the order of PIN_CONFLICT (R661, R682). -/
def inputFns : List (Nat × Nat × Bool) :=
  [(1, 3, false), (1, 5, true), (1, 6, true), (1, 7, true), (2, 0, false), (2, 1, true), (2, 2, false), (2, 4, true),
    (2, 5, true), (3, 0, false), (3, 1, false), (3, 4, false)]

/-! ### What a pin drives (R664, R666, R672 to R674, R679) -/

/-- HEALTH_N (R674). -/
def healthN (s : State) : Bool :=
  let starting := match s.pmu.stage with
    | some n => decide (2 ≤ n)
    | none => false
  !(starting || draining s)

/-- The output of function f of position j, if it drives one, and whether it is open-drain (R661, R674). The groomer's
own SPI, UART and PMBus traffic is not part of the model: those outputs rest at their idle levels. -/
def fnOutput (s : State) (k f j : Nat) : Option (Bool × Bool) :=
  let b := k / 8
  match f, j with
  | 0, _ => if pinOwner s k = 0 ∧ bit (rd0 s (Reg.pinOe b)) j then some (bit (rd0 s (Reg.pinOut b)) j, false) else none
  | 1, 0 => some (false, false)
  | 1, 1 => some (true, false)
  | 1, 2 => some (false, false)
  | 1, 4 => some (true, false)
  | 1, 6 | 1, 7 | 2, 4 | 2, 5 => some (true, true)
  | 2, 6 => some (healthN s, false)
  | 2, 7 => some (bit (rd0 s Reg.pmuStatus) 5, false)
  | 3, 2 => some (xor s.ltb.fsyncOut (bit s.ltb.syncOut 2), false)
  | 3, 3 => some (xor s.ltb.lsyncOut (bit s.ltb.syncOut 3), false)
  | 3, 5 => some (s.twin.alive, false)
  | 4, _ => some (bit (rd0 s Reg.pinEnOut) j, false)
  | _, _ => none

/-- What a pin drives in ACTIVE: the OR of its enabled outputs, only low where one is open-drain (R666). -/
def pinMux (s : State) (k : Nat) : Option Bool :=
  let outs := ((List.range 2).filter fun i => !slotInert s k i).filterMap fun i => fnOutput s k (pinSlotCode s k i) (k % 8)
  if outs.isEmpty then none
  else
    let v := outs.any Prod.fst
    if outs.any Prod.snd && v then none else some v

/-- PULL of a pin; 3 acts as 0. -/
def pinPull (s : State) (k : Nat) : Nat :=
  let p := rdF s (Reg.pinCfg k) 11 2
  if p = 3 then 0 else p

/-- JTAG controls the balls: STRAP_1 was sampled as 1, and EXTEST, CLAMP or HIGHZ is selected (R679). -/
def jtagControls (s : State) : Bool := bit (rd0 s Reg.pmuStraps) 1 && [0, 3, 4].contains s.pins.ir.toNat

/-- What a pin drives, and its pull: none with SYS_RST_N low; by JTAG; held after a trip; a sleep state; or its slots. -/
def pinDrive (s : State) (k : Nat) : Option Bool × Nat :=
  let held := (s.pins.held[k]?).getD (none, 0)
  if !s.pmu.sysRstN then (none, 0)
  else if jtagControls s then
    (if s.pins.ir = 4 ∨ bit s.pins.boundary (3 * k + 2) = false then none else some (bit s.pins.boundary (3 * k + 1)), pinPull s k)
  else if s.pins.frozen then held
  else if s.pins.asleep && !pinCarries s 2 7 k then
    match rdF s (Reg.pinCfg k) 8 3 with
    | 1 => (some false, pinPull s k)
    | 2 => (some true, pinPull s k)
    | 3 => (none, 0)
    | 4 => (none, 1)
    | 5 => (none, 2)
    | _ => held
  else (pinMux s k, pinPull s k)

/-- The level of a pin's net; a net that nothing drives or pulls has a free level. -/
def netLevel (drive : Option Bool × Nat) (ext : Option Bool) (free : Bool) : Bool :=
  match drive.1, ext with
  | some v, _ => v
  | none, some v => v
  | none, none => if drive.2 = 1 then true else if drive.2 = 2 then false else free

/-! ### Evaluation (R665 to R670) -/

/-- INERT bits, two per pin. -/
def inertBits (s : State) : BitVec 128 :=
  BitVec.ofNat 128 ((List.range 128).foldl (fun a i => if slotInert s (i / 2) (i % 2) then a + 2 ^ i else a) 0)

/-- PIN_CONFLICT (R667). -/
def conflictBits (s : State) : BitVec 12 :=
  BitVec.ofNat 12 (inputFns.zipIdx.foldl (fun a e => if 2 ≤ (fnPins s e.1.1 e.1.2.1).length then a + 2 ^ e.2 else a) 0)

/-- Slots that become inert and conflicts that arise are events (R665, R667). -/
def pinFlags (s : State) : State :=
  let i := inertBits s
  let c := conflictBits s
  let s' := wrN (onPins s fun p => { p with inert := i, conflict := c }) Reg.pinConflict c.toNat
  let s' := if i &&& ~~~ s.pins.inert = 0 then s' else setEv s' Reg.pinEvents 1
  if c &&& ~~~ s.pins.conflict = 0 then s' else setEv s' Reg.pinEvents 0

/-- PIN_IN of a pin follows its level, with an edge event where one is enabled (R669, R670). -/
def pinShow (s : State) (k : Nat) : State :=
  let new := bit s.pins.level k
  let old := bit s.pins.shown k
  if new = old then s
  else
    let m : BitVec 64 := BitVec.ofNat 64 (2 ^ k)
    let s := onPins s fun p => { p with shown := p.shown ^^^ m }
    let en := bit (rd0 s (Reg.pinEdgeEn (k / 8))) (if new then k % 8 else 8 + k % 8)
    if en && decide (pinOwner s k < 2) then setEv s (Reg.pinEdge (k / 8)) (k % 8) else s

/-- The level of input function i: of the one pin that carries it, or its default (R667). -/
def fnInput (s : State) (i : Nat) : Bool :=
  let e := (inputFns[i]?).getD (0, 0, false)
  match fnPins s e.1 e.2.1 with
  | [k] => bit s.pins.level k
  | _ => e.2.2

/-- The inactive levels of FSYNC_IN and LSYNC_IN under LTB_EXT (R76). -/
def fsyncIdle (s : State) : Bool := bit s.ltb.ext 0
def lsyncIdle (s : State) : Bool := bit s.ltb.ext 1

/-- Input functions reach their units: TAKEOVER, and an inactive level of a sync input; an active one waits for its
edge command (R76, R556). -/
def fnSettle (s : State) : State :=
  let t := fnInput s 11
  let s := wrF (onTwin s fun x => { x with takeover := t }) Reg.hltTwinStatus 6 1 (b2n t)
  let f := fnInput s 9
  let l := fnInput s 10
  onLtb s fun x => { x with
    fsyncSeen := if f = fsyncIdle s then f else x.fsyncSeen, lsyncSeen := if l = lsyncIdle s then l else x.lsyncSeen }

/-- The pads are evaluated: drives, levels, PIN_IN and the input functions. -/
def pinEvaluate (s : State) : State :=
  let s := pinFlags s
  let float := (List.range 64).any fun k => decide (pinDrive s k = (none, 0)) && ((s.pins.ext[k]?).getD none).isNone
  let (w, s) := if float then (let r := drawFree s; (Config.freeDWord r.1, r.2)) else (0, s)
  let lv := (List.range 64).foldl (fun a k =>
    if netLevel (pinDrive s k) ((s.pins.ext[k]?).getD none) (bit w k) then a + 2 ^ k else a) 0
  let s := onPins s fun p => { p with level := BitVec.ofNat 64 lv }
  let now := (List.range 64).filter fun k => decide (rdF s (Reg.pinCfg k) 13 1 = 0)
  fnSettle (now.foldl pinShow s)

/-- The pads are evaluated while the block is out of reset and clocked (R639, R652). -/
def pinSettle (s : State) : State := if hiuRunning s then pinEvaluate s else s

/-- Pins take their sleep states, or hold the state of a trip: what each one drives and its pull is kept (R672, R673). -/
def pinHold (s : State) : State :=
  onPins s fun p => { p with held := (List.range 64).map (pinDrive s) }

/-- PIN registers whose value is live state, or hidden from the host (R662, R682). -/
def pinRead (s : State) (off : Nat) : Option Word :=
  if off < Reg.pinCfg 64 ∧ Reg.pinCfg 0 ≤ off then
    let k := (off - Reg.pinCfg 0) / 4
    some (rd s off ||| BitVec.ofNat 32 (fld s.pins.inert (2 * k) 2 * 2 ^ 16))
  else if Reg.pinIn 0 ≤ off ∧ off < Reg.pinIn 8 then
    let b := (off - Reg.pinIn 0) / 32
    let mine := (List.range 8).foldl (fun a j => if pinOwner s (8 * b + j) < 2 then a + 2 ^ j else a) 0
    let r := (off - Reg.pinIn 0) % 32
    if r = 0 then some (BitVec.ofNat 32 (fld s.pins.shown (8 * b) 8 &&& mine))
    else if r = 4 ∨ r = 0x14 then some (rd0 s off &&& BitVec.ofNat 32 mine)
    else none
  else none

/-! ### Commands: configuration and GPIO (R668 to R671) -/

/-- A write of PIN_k_CFG (R671). -/
def pinCfgWrite (s : State) (k : Nat) (v : Word) : State :=
  if 2 ≤ pinOwner s k then s
  else pinSettle (wr s (Reg.pinCfg k) ((v &&& 0x3F3F) ||| (rd s (Reg.pinCfg k) &&& 0xC0)))

/-- The bits of a bank that HOST owns. -/
def hostBits (s : State) (b : Nat) : Word :=
  BitVec.ofNat 32 ((List.range 8).foldl (fun a j => if pinOwner s (8 * b + j) = 0 then a + 2 ^ j else a) 0)

/-- PIN_OUT of a bank changes by a write of PIN_SET, PIN_CLR or PIN_TGL (R668). -/
def pinOutWrite (s : State) (b : Nat) (f : Word → Word → Word) (v : Word) : State :=
  pinSettle (wr s (Reg.pinOut b) (f (rd0 s (Reg.pinOut b)) (v &&& hostBits s b) &&& 0xFF))

/-- A write of PIN_OE_b: bits of GROOMER pins are ignored (R662). -/
def pinOeWrite (s : State) (b : Nat) (v : Word) : State :=
  let m := BitVec.ofNat 32 ((List.range 8).foldl (fun a j => if pinOwner s (8 * b + j) < 2 then a + 2 ^ j else a) 0)
  pinSettle (wr s (Reg.pinOe b) ((rd0 s (Reg.pinOe b) &&& ~~~ m) ||| (v &&& m)))

/-- PIN_EN_OUT changes (R674). -/
def pinEnWrite (s : State) (f : Word → Word → Word) (v : Word) : State :=
  pinSettle (wr s Reg.pinEnOut (f (rd0 s Reg.pinEnOut) v &&& 0xFF))

/-! ### Sync inputs (R51, R76) -/

/-- An active edge of LSYNC_IN that the LTB has not recognised. -/
def lsyncPending (s : State) : Bool := decide (fnInput s 10 ≠ lsyncIdle s) && decide (s.ltb.lsyncSeen = lsyncIdle s)

/-- An active edge of FSYNC_IN that the LTB has not recognised. -/
def fsyncPending (s : State) : Bool := decide (fnInput s 9 ≠ fsyncIdle s) && decide (s.ltb.fsyncSeen = fsyncIdle s)

/-- An active edge of FSYNC_IN: a frame event of EXT and EXT_F. An edge of LSYNC_IN in the same cycle is the start of
line 0 (R51). -/
def fsyncEdge (s : State) : State :=
  if !fsyncPending s then s
  else
    let l := lsyncPending s
    let s := onLtb s fun x => { x with fsyncSeen := !fsyncIdle s, lsyncSeen := if l then !lsyncIdle s else x.lsyncSeen }
    fsyncFrame s

/-! ### I2C (R675, R676) -/

/-- Positions of SCL and SDA of a controller: code and first position. -/
def i2cFn (n : Nat) : Nat × Nat := if n = 0 then (1, 6) else (2, 4)

/-- The pins that carry a function of a controller. -/
def i2cPins (s : State) (n : Nat) : List Nat := fnPins s (i2cFn n).1 (i2cFn n).2 ++ fnPins s (i2cFn n).1 ((i2cFn n).2 + 1)

/-- Whether a controller belongs to HOST (R675). -/
def i2cHost (s : State) (n : Nat) : Bool := (i2cPins s n).all fun k => decide (pinOwner s k = 0)

/-- A write of I2C_n_XFER (R675, R676). -/
def i2cStart (s : State) (n : Nat) (v : Word) : State :=
  if i2cHost s n && bit v 31 && !bit (rd0 s (Reg.i2cStatus n)) 0 then
    onPins (wr s (Reg.i2cStatus n) 1) fun p => { p with i2c := setAt p.i2c n (some v) }
  else s

/-- Bytes that were read stand in I2C_n_RDATA. -/
def i2cData (s : State) (n : Nat) (bs : List Byte) : State :=
  let old := leBytes (rd64 s (Reg.i2cRdataLo n)) 8
  wr64 s (Reg.i2cRdataLo n) (leValue (bs ++ old.drop bs.length))

/-- A transfer ends: BUSY clears, DONE is set (R676). -/
def i2cEnd (s : State) (n status : Nat) (bs : List Byte) : State :=
  let s := i2cData (wrN s (Reg.i2cStatus n) (status + bs.length * 2 ^ 8)) n bs
  setEv (onPins s fun p => { p with i2c := setAt p.i2c n none }) Reg.pinEvents (2 + n)

/-- The transfer ends with STOP; without SDA on one pin it ends with NACK of the address (R667, R676). -/
def i2cDone (s : State) (n : Nat) (r : I2cReply) : State :=
  match (s.pins.i2c[n]?).getD none with
  | none => s
  | some v =>
    let rlen := min 8 (fld v 12 4)
    let sda := fnPins s (i2cFn n).1 ((i2cFn n).2 + 1)
    let nack := if sda.length = 1 then r.nackAt.map Fin.val else some 0
    match nack with
    | some k => i2cEnd s n (4 + k * 2 ^ 4) []
    | none => i2cEnd s n 0 ((r.bytes ++ List.replicate 8 0xFF).take rlen)

/-- The effect of I2C_TIMEOUT. -/
def i2cTimeoutEffect (s : State) (n : Fin 2) (bytes : List Byte) : State :=
  match (s.pins.i2c[n.val]?).getD none with
    | none => s
    | some v => i2cEnd s n.val 8 (bytes.take (min 8 (fld v 12 4)))

/-! ### JTAG (R679) -/

/-- What the boundary cells capture: input, output and control cells of the pins, then the dedicated balls. -/
def boundaryCapture (s : State) : BitVec 198 :=
  let pin := fun (k : Nat) =>
    let d := (pinDrive s k).1
    b2n (bit s.pins.level k) * 2 ^ (3 * k) + b2n (d.getD false) * 2 ^ (3 * k + 1) + b2n d.isSome * 2 ^ (3 * k + 2)
  BitVec.ofNat 198 (((List.range 64).map pin).foldl (· + ·) 0 + b2n s.pmu.sysRstN * 2 ^ 192 + b2n s.hiu.perstN * 2 ^ 193 +
    rdF s Reg.pmuStraps 0 3 * 2 ^ 194 + b2n s.pmu.tripped * 2 ^ 197)

/-- A scan of the one-bit bypass register: a 0, then the bits shifted in. -/
def bypassScan (s : State) (shift : BitVec 198) : State := onPins s fun p => { p with tdo := shift <<< 1 }

/-- An instruction is selected. -/
def tapSelect (s : State) (ir : BitVec 4) : State := pinSettle (onPins s fun p => { p with ir := ir })

/-- The effect of EXTEST. -/
def extestEffect (s : State) (shift : BitVec 198) : State :=
  if bit (rd0 s Reg.pmuStraps) 1 then
      let c := boundaryCapture s
      tapSelect (onPins s fun p => { p with tdo := c, boundary := shift }) 0
    else bypassScan (tapSelect s 0) shift

end Sys2Proof.Machine
end

