-- ==== Sys2Proof/Machine/Power.lean ====
section
/-!
DEFINITION. The power manager (spec/24_power_clocks_reset.md R647 to R656): DVFS points, the power and thermal
loops, the trip, and the power states.
-/

namespace Sys2Proof.Machine

/-- The state with its power manager changed. -/
def onPmu (s : State) (f : Pmu → Pmu) : State := { s with pmu := f s.pmu }

/-! ### DVFS points (R647 to R649) -/

/-- Core clock of a DVFS point in MHz (R647). -/
def pointMHz (k : Nat) : Nat := ([400, 600, 750, 875, 1000, 1100, 1200, 1250][k]?).getD 400

/-- PMU_STATUS.DVFS_BUSY. -/
def dvfsBusy (s : State) : Bool := bit (rd0 s Reg.pmuStatus) 2

/-- PMU_STATUS.PMBUS_FAIL. -/
def pmbusFailed (s : State) : Bool := bit (rd0 s Reg.pmuStatus) 6

/-- The least of TARGET and the two ceilings; P0 once the regulator has failed (R638, R648). -/
def pointChosen (s : State) : Nat :=
  if pmbusFailed s then 0
  else min (rdF s Reg.pmuDvfs 0 3) (min (rdF s Reg.pmuCeiling 0 3) (rdF s Reg.pmuCeiling 4 3))

/-- The applied offsets of the clusters follow the point, except where a step still settles (R604). -/
def ladderRefresh (s : State) : State :=
  let cs := (List.range 16).filter fun c => decide (clusterState s c < 3) && decide (katPhaseOf s c ≠ some .settling)
  cs.foldl ladderApply s

/-- PMU_CORE_FREQ shows the core clock of a point. -/
def coreClock (s : State) (k : Nat) : State := wrN s Reg.pmuCoreFreq (pointMHz k)

/-- A change of point starts: rails first when rising, the PLL first when falling (R649). -/
def dvfsStart (s : State) (k : Nat) : State :=
  let rising := decide (pointInEffect s < k)
  let s := ladderRefresh (wrF (orReg s Reg.pmuStatus 4) Reg.pmuCeiling 8 3 k)
  let s := onPmu s fun p => { p with change := some k }
  if rising then commandRails s else coreClock s k

/-- The point is re-evaluated once the groomer's firmware has applied BOOT_POINT (R648). -/
def dvfsReevaluate (s : State) : State :=
  if dvfsBusy s || !bit (rd0 s Reg.pinStatus) 0 || decide (pointChosen s = pointInEffect s) then s
  else dvfsStart s (pointChosen s)

/-- Rails and PLL have reached the new point (R649). -/
def dvfsComplete (s : State) : State :=
  match s.pmu.change with
  | none => s
  | some k => commandRails (coreClock (clrReg (onPmu s fun p => { p with change := none }) Reg.pmuStatus 4) k)

/-! ### Power (R638, R650) -/

/-- A power of two with an integer exponent. -/
def pow2 (e : Int) : Rat := if 0 ≤ e then ((2 ^ e.toNat : Nat) : Rat) else 1 / ((2 ^ (-e).toNat : Nat) : Rat)

/-- A voltage in LINEAR16 with the exponent of VOUT_MODE. -/
def linear16 (mode : Byte) (v : BitVec 16) : Rat := (v.toNat : Rat) * pow2 (sext (fld mode 0 5) 5)

/-- A current in LINEAR11. -/
def linear11 (v : BitVec 16) : Rat := ((sext (fld v 0 11) 11 : Int) : Rat) * pow2 (sext (fld v 11 5) 5)

/-- OTHER_POWER of the board record in 1/16 W (R646). -/
def otherPower (s : State) : Nat :=
  match s.grm.board with
  | some ws => fld ((ws[6]?).getD 0) 0 16
  | none => 0

/-- A power sample in 1/16 W (R650). -/
def powerOf (s : State) (r : PmbusSample) : Rat :=
  16 * (linear16 r.mode r.vCore * linear11 r.iCore + linear16 r.mode r.vSram * linear11 r.iSram) + (otherPower s : Rat)

/-- An exact value in a 16-bit register: the spec gives no rounding, so the last digit of an inexact one is free. -/
def power16 (s : State) (x : Rat) : State × Nat :=
  let n := if x.num < 0 then 0 else x.num.toNat / x.den
  if x.den = 1 then (s, min n 0xFFFF)
  else
    let r := drawFree s
    (r.2, min (n + (Config.freeBit r.1).toNat) 0xFFFF)

/-- WINDOW and LIMIT in effect: 0 acts as 32, and LIMIT lies between 6 W and 35 W (R650, R659). -/
def windowMs (s : State) : Nat := if fld s.pmu.plimit 16 8 = 0 then 32 else fld s.pmu.plimit 16 8
def powerLimit (s : State) : Nat := min 560 (max 96 (fld s.pmu.plimit 0 10))

/-- Mean of the samples that there are. -/
def powerMean (l : List (Option Rat)) : Option Rat :=
  let xs := l.filterMap id
  if xs.isEmpty then none else some (xs.foldl (· + ·) 0 / (xs.length : Rat))

/-- A status bit follows a ceiling, with events on its changes (R650, R651). -/
def ceilingFlag (s : State) (lo bitPos evOn : Nat) : State :=
  let on := decide (rdF s Reg.pmuCeiling lo 3 < 7)
  let was := bit (rd0 s Reg.pmuStatus) bitPos
  let s := wrF s Reg.pmuStatus bitPos 1 (b2n on)
  if on && !was then setEv s Reg.pmuEvents evOn else if was && !on then setEv s Reg.pmuEvents (evOn + 1) else s

/-- The end of a window moves the power ceiling (R650). -/
def windowEnd (s : State) : State :=
  let c := rdF s Reg.pmuCeiling 4 3
  let lim : Rat := (powerLimit s : Nat)
  let c := match powerMean s.pmu.samples with
    | none => c
    | some m => if lim < m then c - 1 else if 10 * m < 9 * lim then min 7 (c + 1) else c
  let s := ceilingFlag (wrF s Reg.pmuCeiling 4 3 c) 4 4 2
  let v := rd s Reg.pmuPlimit
  onPmu s fun p => { p with windowMs := 0, plimit := v }

/-- The regulator did not answer a command: at the third in a row it has failed, until the next DEVICE reset (R638). -/
def pmbusSilent (s : State) : State :=
  let s := onPmu s fun p => { p with silent := p.silent + 1 }
  if s.pmu.silent < 3 ∨ pmbusFailed s then s else setEv (orReg s Reg.pmuStatus 64) Reg.pmuEvents 6

/-- One millisecond of the power loop (R650). -/
def powerSample (s : State) (r : Option PmbusSample) : State :=
  let x := r.map (powerOf s)
  let s := match x with
    | some _ => if pmbusFailed s then s else onPmu s fun p => { p with silent := 0 }
    | none => pmbusSilent s
  let n := windowMs s
  let s := onPmu s fun p => { p with samples := (x :: p.samples).take n, windowMs := p.windowMs + 1 }
  let (s, last) := match x with
    | some v => power16 s v
    | none => (s, rdF s Reg.pmuPower 16 16)
  let (s, mean) := match powerMean s.pmu.samples with
    | some m => power16 s m
    | none => (s, rdF s Reg.pmuPower 0 16)
  let s := wrN s Reg.pmuPower (mean + last * 2 ^ 16)
  if n ≤ s.pmu.windowMs then windowEnd s else s

/-- Whether the groomer's loops run: its firmware does, and stage 2 has applied the board words. -/
def loopsRun (s : State) : Bool := fwRunning s && bit (rd0 s Reg.pinStatus) 0

/-! ### Temperature (R651, R652) -/

/-- Tjmax of the part's grade in °C (R651). -/
def tjMax (s : State) : Int := if fld s.fuse.id 0 2 = 2 then 105 else 125

/-- THROTTLE_T in effect, in °C (R651). -/
def throttleT (s : State) : Int := min (sext (rdF s Reg.pmuThermal 0 8) 8) (tjMax s - 5)

/-- The register of sensor i: CLH_TEMP of the 16 clusters, then PMU_TEMP_0 to 3. -/
def tempReg (i : Nat) : Nat := if i < 16 then Reg.clhTemp i else Reg.pmuTemp (i - 16)

/-- The hottest sensor, the lowest-numbered of equals. -/
def hottest (s : State) : Nat :=
  (List.range 20).foldl (fun a i => if tempOf s (tempReg a) < tempOf s (tempReg i) then i else a) 0

/-- The thermal ceiling moves: down every 4 ms at or above THROTTLE_T; up every 100 ms below THROTTLE_T - HYST. -/
def thermalMove (s : State) (t : Int) : State :=
  let c := rdF s Reg.pmuCeiling 0 3
  let hyst : Int := (rdF s Reg.pmuThermal 8 4 : Nat)
  if 16 * throttleT s ≤ t then
    if s.pmu.hotMs + 1 < 4 then onPmu s fun p => { p with hotMs := p.hotMs + 1, coolMs := 0 }
    else onPmu (wrF s Reg.pmuCeiling 0 3 (c - 1)) fun p => { p with hotMs := 0, coolMs := 0 }
  else if t < 16 * (throttleT s - hyst) then
    if s.pmu.coolMs + 1 < 100 then onPmu s fun p => { p with hotMs := 0, coolMs := p.coolMs + 1 }
    else onPmu (wrF s Reg.pmuCeiling 0 3 (min 7 (c + 1))) fun p => { p with hotMs := 0, coolMs := 0 }
  else onPmu s fun p => { p with hotMs := 0, coolMs := 0 }

/-- One millisecond of the thermal loop: the sensors are read, and the thermal ceiling moves (R651). -/
def thermalSample (s : State) (temps : List (BitVec 16)) : State :=
  let s := (temps.take 20).zipIdx.foldl (fun s p => wrN s (tempReg p.2) p.1.toNat) s
  let i := hottest s
  let s := wrN s Reg.pmuHottest (rdF s (tempReg i) 0 16 + i * 2 ^ 16)
  ceilingFlag (thermalMove s (tempOf s (tempReg i))) 0 3 0

/-- The trip: THERMTRIP_N is asserted, the clocks stop, and every pin holds its state (R652, R673). -/
def thermTrip (s : State) : State :=
  if !hiuRunning s then s
  else onPins (onPmu (pinHold s) fun p => { p with tripped := true }) fun p => { p with frozen := true }

/-! ### Power states (R653 to R656) -/

/-- PMU_STATUS.PSTATE and PSTATE_BUSY. -/
def pstate (s : State) : Nat := rdF s Reg.pmuStatus 0 2
def pstateBusy (s : State) : Bool := bit (rd0 s Reg.pmuStatus) 7

/-- Whether STANDBY or OFF may be entered (R654). -/
def pstateAllowed (s : State) : Bool :=
  bit ((cfeRead s Reg.cfeStatus).getD 0) 0 && (List.range 4).all (fun m => !bit (rd0 s (Reg.tgCtrl m)) 0) &&
    (List.range 4).all (fun n => !csiEnabled s n) && (List.range 16).all (fun r => !bit (rd0 s (Reg.sringCfg r)) 0) &&
    decide (twinState s = 0) && s.hlt.runs.isEmpty

/-- A request for STANDBY or OFF is accepted or refused (R654); on accepting OFF, a STATE record and a full SNAPSHOT
set are formed (R656). -/
def pstateRequest (s : State) (target : Nat) : State :=
  if pstate s = target then s
  else if !pstateAllowed s then setEv s Reg.pmuEvents 5
  else
    let s := onPmu (orReg s Reg.pmuStatus 128) fun p => { p with target := target }
    if target = 2 then snapshotSet s else s

/-- A request for ACTIVE begins the return from STANDBY (R655). -/
def pstateWake (s : State) : State :=
  if pstate s = 1 then onPmu (orReg s Reg.pmuStatus 128) fun p => { p with target := 0 } else s

/-- A write of PMU_PSTATE; while PSTATE_BUSY is 1 it is ignored, and TARGET 3 acts as 0 (R653, R654). -/
def pstateWrite (s : State) (v : Word) : State :=
  if pstateBusy s then s
  else
    let s := wr s Reg.pmuPstate (v &&& 3)
    match fld v 0 2 with
    | 1 => pstateRequest s 1
    | 2 => pstateRequest s 2
    | _ => pstateWake s

/-- STANDBY is reached: clocks stop, sheet, L1, register files and block memory are lost, and pins sleep (R653, R655,
R672). -/
def standbyEntry (s : State) : State :=
  if pstateBusy s && decide (s.pmu.target = 1) && decide (pstate s = 0) then
    let s := pinHold s
    let s := setEv (wrF (wrF s Reg.pmuStatus 7 1 0) Reg.pmuStatus 0 2 1) Reg.pmuEvents 4
    let s := orReg (clrReg s Reg.hiuStatus 1) Reg.memStatus 2
    let s := onMem s fun m => { m with sheet := [], sheetErr := [], l1 := [] }
    let s := { s with clu := { s.clu with cores := s.clu.cores.map fun c => { c with icache := [] } } }
    pinSettle (onPins s fun p => { p with asleep := true })
  else s

/-- ACTIVE is reached: LT resumes and the sleep states are released (R82, R655). -/
def standbyExit (s : State) : State :=
  if pstateBusy s && decide (s.pmu.target = 0) && decide (pstate s = 1) then
    let s := setEv (wrF (wrF s Reg.pmuStatus 7 1 0) Reg.pmuStatus 0 2 0) Reg.pmuEvents 4
    let s := clrReg (orReg s Reg.hiuStatus 1) Reg.memStatus 2
    pinSettle (onPins (ltbPowerReturn s) fun p => { p with asleep := false })
  else s

/-- OFF_READY: the records are committed, pins sleep and OFF_READY is set (R656). -/
def offReady (s : State) : State :=
  if pstateBusy s && decide (s.pmu.target = 2) && s.grm.recs.isEmpty && !bit (rd0 s Reg.pmuStatus) 5 then
    pinSettle (onPins (orReg (pinHold s) Reg.pmuStatus 32) fun p => { p with asleep := true })
  else s

end Sys2Proof.Machine
end

