-- ==== Sys2Proof/Machine/Boot.lean ====
section
/-!
DEFINITION. Resets and start-up (spec/24_power_clocks_reset.md R639 to R645, spec/23_lifetime_and_groomer.md R617,
R623, R624, R629, R633, spec/22_silent_errors_and_reproducibility.md R598, spec/03_host_link.md R88, R106, R108).
-/

namespace Sys2Proof.Machine

/-! ### Reset scopes (R639, R640) -/

/-- Which cause resets the FUNCTION scope. -/
inductive FnCause where
  | perst
  | hot
  | linkDown
  | flr
deriving DecidableEq, Repr

/-- Whether a register keeps its value at a reset of the FUNCTION scope; the sampled straps belong to the DEVICE
scope. -/
def keptByFunction (off : Nat) : Bool :=
  match regFind off with
  | some (r, _, _) => decide (r.scope ≠ .function) || decide (off = Reg.pmuStraps)
  | none => false

/-- Whether a register keeps its value at a reset of the DEVICE scope; the straps are sampled anew only when SYS_RST_N
rises. -/
def keptByDevice (off : Nat) : Bool :=
  match regFind off with
  | some (r, _, _) => decide (r.scope = .aon) || decide (off = Reg.pmuStraps)
  | none => false

/-- The units of the FUNCTION scope in their reset state; the sheet is zeroed, and the caches are invalidated without
write-back (R640). -/
def functionUnits (s : State) : State :=
  { s with
    ltb := {}, cfe := {}, ctx := {}, con := {}, twin := {}, vzl := {}, hlt := {}, clu := {}, work := {}, dsp := {}
    mem := { dramErr := s.mem.dramErr }, heap := List.replicate 128 {}, cam := List.replicate 4 {} }

/-- The PMU in its reset state: what the regulator was commanded and its silence, SYS_RST_N and the trip stay. -/
def pmuReset (p : Pmu) : Pmu :=
  { sysRstN := p.sysRstN, rails := p.rails, vCore := p.vCore, vSram := p.vSram, silent := p.silent, tripped := p.tripped
    stage := p.stage, cold := p.cold, inReset := true }

/-- Configuration space and the HIU after a FUNCTION reset (R88, R108, R640): an FLR keeps the BAR4 size and Max Payload
Size; AER status is kept but for a fundamental reset; staged halves go with the scope of their pair, and captures stay
pending (R20). -/
def hiuReset (c : FnCause) (h : Hiu) : Hiu :=
  let kept := decide (c = .flr)
  let sticky := decide (c ≠ .perst)
  { link := match c with
      | .perst | .linkDown => .down
      | .hot => .training
      | .flr => h.link
    width := if kept then h.width else 0, speed := if kept then h.speed else 0
    perstN := h.perstN && decide (c ≠ .perst), cfgEnabled := h.cfgEnabled, flr := kept
    mps := if kept then h.mps else 0
    bar4Log2 := if kept then h.bar4Log2 else 28, rbarLog2 := if kept then h.rbarLog2 else 28
    subVendor := h.subVendor, subId := h.subId, serial := h.serial
    aerPoisoned := sticky && h.aerPoisoned, aerCplTimeout := sticky && h.aerCplTimeout
    aerMalformed := sticky && h.aerMalformed, aerFirst := if sticky then h.aerFirst else 0
    aerHdr := if sticky then h.aerHdr else 0
    captures := h.captures
    staged := h.staged.filter fun e => keptByFunction (e.1 / 2)
    msgs := h.msgs, pmeSent := h.pmeSent, reply := h.reply, hostMem := h.hostMem }

/-- A REQUEST_KAT that waits is answered with the masks reached: its tests end with the reset. -/
def katReset (s : State) : State :=
  match s.hlt.groups.find? fun g => decide (g.why = .mailbox) with
  | some g => katAnswer s 0 g
  | none => s

/-- HIU_STATUS shows the link's width and rate (R102). -/
def linkShow (s : State) : State := wrF (wrF s Reg.hiuStatus 4 4 s.hiu.speed) Reg.hiuStatus 8 4 s.hiu.width

/-- MEM_STATUS.TRAINED shows the training state, which belongs to the DEVICE scope (R640). -/
def trainedShow (s : State) : State := if usable s = 0 then s else orReg s Reg.memStatus 1

/-- A reset of the FUNCTION scope (R639 to R641). -/
def functionReset (s : State) (c : FnCause) : State :=
  let s := functionUnits (katReset s)
  pinSettle { s with regs := s.regs.filter fun r => keptByFunction r.1, hiu := hiuReset c s.hiu, pmu := pmuReset s.pmu }

/-- A reset of the DEVICE scope, and of the FUNCTION scope below it (R639, R640). The flash is the board's; the contents
of DRAM are not kept. -/
def deviceReset (s : State) : State :=
  let s := functionUnits s
  let h := hiuReset .perst s.hiu
  { s with
    regs := s.regs.filter fun r => keptByDevice r.1
    mem := {}, dram := []
    hiu := { h with perstN := s.hiu.perstN, cfgEnabled := false, subVendor := 0xE6C4, subId := 0x0064, serial := 0
                    staged := h.staged.filter fun e => keptByDevice (e.1 / 2) }
    grm := { flash := s.grm.flash }
    pmu := { sysRstN := s.pmu.sysRstN, rails := s.pmu.rails }
    pins := { ext := s.pins.ext, ir := s.pins.ir, boundary := s.pins.boundary, tdo := s.pins.tdo, spit := s.pins.spit } }

/-- Start-up begins at stage 0. -/
def startUp (s : State) : State := onPmu s fun p => { p with stage := some 0, cold := true }

/-- SYS_RST_N is high, the main rails are up, and the straps are sampled (R643). -/
def sysRstRise (s : State) (straps : BitVec 3) : State :=
  onPmu (wrN s Reg.pmuStraps straps.toNat) fun p => { p with sysRstN := true, rails := true, inReset := false }

/-- The link has trained, at 8.0 GT/s at most under PCIE_GEN3 (R85, R106, R643). -/
def linkUp (s : State) (width rate : Nat) : State :=
  if hiuRunning s && s.hiu.perstN && [1, 2, 4, 8].contains width && decide (1 ≤ rate) then
    let rate := if bit (rd0 s Reg.pmuStraps) 2 then min 3 rate else rate
    linkShow (onHiu s fun h => { h with link := .up, width := width, speed := rate })
  else s

/-- The data link layer's counts reach HIU_REPLAYS and HIU_RX_ERRS, which saturate (R102, log entry 30). -/
def linkCounts (s : State) (replays rxErrs : Nat) : State := satInc (satInc s Reg.hiuReplays replays) Reg.hiuRxErrs rxErrs

/-! ### Stages 0 to 3 (R644) -/

/-- GRM_STATUS.BOOT_CAUSE. -/
def bootCause (s : State) : Nat := rdF s Reg.grmStatus 8 4

/-- Whether start-up is in a stage and has not stopped. -/
def stageAt (s : State) (n : Nat) : Bool := decide (s.pmu.stage = some n) && decide (bootCause s = 0) && hiuRunning s

/-- A stage begins, shown in GRM_STATUS.STAGE. -/
def stageSet (s : State) (n : Nat) : State := onPmu (wrF s Reg.grmStatus 2 4 n) fun p => { p with stage := some n }

/-- Start-up stops with a cause. -/
def stageStop (s : State) (cause : Nat) : State := wrF s Reg.grmStatus 8 4 cause

/-- Word i of the board record. -/
def boardWord (s : State) (i : Nat) : DWord :=
  match s.grm.board with
  | some ws => (ws[i]?).getD 0
  | none => 0

/-- The board record in the flash, unless it is absent (R623). -/
def boardRead (m : Mem) : Option (List DWord) :=
  let w0 := flashLE m 0 8
  if w0 % 2 ^ 32 = 0x47425231 ∧ w0 / 2 ^ 32 % 2 ^ 8 = 1 ∧ flashLE m 248 4 = crc32c (flashRead m 0 248) then
    some ((List.range 32).map fun i => BitVec.ofNat 64 (flashLE m (8 * i) 8))
  else none

/-- What the fuses give: HIU_ID and the set points (R6, R647). -/
def fuseLoad (s : State) : State :=
  let s := wr s Reg.hiuId (s.fuse.id &&& 0xFFFFFF03)
  (List.range 8).foldl (fun s k => wrN s (Reg.pmuPoint k) (pointMHz k + setPoint s k * 2 ^ 16)) s

/-- Subsystem IDs of word B1, or the defaults where it holds 0 (R86). -/
def subsystemIds (s : State) : State :=
  let b := boardWord s 1
  if fld b 0 32 = 0 then onHiu s fun h => { h with subVendor := 0xE6C4, subId := 0x0064 }
  else onHiu s fun h => { h with subVendor := BitVec.ofNat 16 (fld b 0 16), subId := BitVec.ofNat 16 (fld b 16 16) }

/-- Stage 0: PLL lock, fuse read, flash identification, board record, configuration responses. Under GRM_HOLD the boot
ROM goes no further (R643, R644). -/
def bootRom (s : State) (pllOk : Bool) (jedec : Option (BitVec 24)) : State :=
  if !stageAt s 0 || bit (rd0 s Reg.pmuStraps) 1 then s
  else
    let s := fuseLoad (onPmu s fun p => { p with rails := true })
    let serial := s.fuse.serial
    let s := onHiu s fun h => { h with cfgEnabled := true, serial := serial }
    if !pllOk then stageStop s 6
    else match jedec with
      | none => stageStop s 1
      | some j =>
        let s := onGrm s fun g => { g with jedec := j.toNat, board := boardRead g.flash }
        if s.grm.board.isNone then stageStop s 4 else stageSet (subsystemIds s) 1

/-- Stage 1: the valid image with the higher VERSION is chosen, slot 0 on a tie (R633). Whether each slot's signature
verifies comes with the command. -/
def firmwareCheck (s : State) (sig0 sig1 : Bool) : State :=
  if !stageAt s 1 then s
  else
    let s := onGrm s fun g => { g with sig := [sig0, sig1] }
    let choose := fun (k v : Nat) =>
      let s := wrN (wrF (orReg s Reg.grmStatus 2) Reg.grmStatus 12 1 k) Reg.grmFwVersion v
      stageSet (onGrm s fun g => { g with slot := k }) 2
    match slotValid s 0, slotValid s 1 with
    | some a, some b => if a < b then choose 1 b else choose 0 a
    | some a, none => choose 0 a
    | none, some b => choose 1 b
    | none, none => stageStop s (if (slotSigned s 0).isSome || (slotSigned s 1).isSome then 3 else 2)

/-- PMU policy of board word B6 (R646, R659). -/
def pmuLoad (s : State) : State :=
  let b := boardWord s 6
  let below := if fld b 35 5 = 0 then 10 else fld b 35 5
  let t := wrapU (tjMax s - (below : Nat)) 8
  let s := wrN (wrN s Reg.pmuDvfs (fld b 32 3)) Reg.pmuThermal (t + 3 * 2 ^ 8)
  let s := wrN s Reg.pmuPlimit (fld b 16 10 + 32 * 2 ^ 16)
  let v := rd s Reg.pmuPlimit
  onPmu s fun p => { p with plimit := v, samples := [], windowMs := 0 }

/-- The point in effect becomes BOOT_POINT, with its clock and rails (R644, R659). -/
def pointLoad (s : State) : State :=
  let k := pointChosen s
  commandRails (coreClock (wrF s Reg.pmuCeiling 8 3 k) k)

/-- Board words of registers in FUNCTION-scope blocks (R623, R641, R646); a failed regulator shows again. -/
def boardLoad (s : State) : State :=
  let b4 := boardWord s 4
  let s := wrN s Reg.vzlId (fld (boardWord s 3) 0 7)
  let s := wrN s Reg.hltPolicy (if fld b4 0 32 = 0 then 0x0010240C else fld b4 0 32 &&& 0x0FFFFF1F)
  let s := wrN s Reg.hltPolicy2 (if fld b4 32 32 = 0 then 0x07D01018 else fld b4 32 32)
  let s := (List.range 16).foldl (fun s c => wrN s (Reg.cluId c) (c + 64)) s
  let s := if 3 ≤ s.pmu.silent then orReg s Reg.pmuStatus 64 else s
  pointLoad (pmuLoad s)

/-- Board words of the PIN block (R681). -/
def pinLoad (s : State) : State :=
  let cfg := fun (k : Nat) => fld (boardWord s (8 + k / 4)) (16 * (k % 4)) 16 &&& 0x3FFF
  let s := (List.range 64).foldl (fun s k => wrN s (Reg.pinCfg k) (cfg k)) s
  let b := boardWord s 24
  let s := wrN (wrN s (Reg.i2cCfg 0) (fld b 0 1)) (Reg.i2cCfg 1) (fld b 1 1)
  wrN (wrN s Reg.pinDebounce (fld b 16 16)) Reg.pinStatus 1

/-- Stage 2: the board words are applied; a regulator that does not answer leaves the rails as they stand (R638). -/
def boardRecord (s : State) (pmbus : Bool) : State :=
  if !stageAt s 2 then s
  else
    let s := wrN s Reg.memCfg (fld (boardWord s 2) 0 24 &&& 0xFF0337)
    let s := if pmbus then s else setEv (onPmu s fun p => { p with silent := 3 }) Reg.pmuEvents 6
    stageSet (pinSettle (pinLoad (boardLoad s))) 3

/-! ### The wear record at start-up (R598, R617, R629) -/

/-- Where the next record of a block goes. -/
def wearTail (m : Mem) (k : Nat) : Nat :=
  match (wearScan m k 2730 16).getLast? with
  | some f => f.at' - wearBase k + wearBytes (fld f.e0 16 16)
  | none => 16

/-- The block with the highest BLOCK_SEQ, if any has a header. -/
def wearCurrent (m : Mem) : Option Nat :=
  (List.range 8).find? fun k => match wearHeader m k with
    | some h => decide (h.2 = wearHighest m)
    | none => false

/-- The groomer finds its place in the wear area: the current block, its end, and the newest SEQ. -/
def wearInit (s : State) : State :=
  let m := s.grm.flash
  let place := match wearCurrent m with
    | some k => (k, wearTail m k)
    | none => (0, 0x10001)
  let last := (newest (wearAll m)).map foundSeq
  let s := onGrm s fun g => { g with blk := place.1, off := place.2, seq := match last with
    | some n => (n + 1) % 2 ^ 32
    | none => 0 }
  wrN s Reg.grmSeq (last.getD 0)

/-- The newest committed record of a kind, and of a part where the kind has parts. -/
def newestOf (m : Mem) (kind : Nat) (part : Option Nat) : Option WearFound :=
  newest ((wearAll m).filter fun f => decide (fld f.e0 0 8 = kind) && (match part with
    | some p => decide (flashLE m (f.at' + 16) 1 % 32 = p)
    | none => true))

/-- Counters of a part take the larger of their value and that of the newest SNAPSHOT. -/
def counterRestore (s : State) (part : Nat) : State :=
  let m := s.grm.flash
  match newestOf m 1 (some part) with
  | none => s
  | some f => (List.range 64).foldl (fun s i =>
      let old := (wearCounter s (64 * part + i)).toNat
      wearSet s (64 * part + i) (BitVec.ofNat 32 (max old (flashLE m (f.at' + 24 + 4 * i) 4)))) s

/-- A calendar that was lost takes the newest STAMP with VALID 0, or 2000-01-01 (R617). -/
def calendarRestore (s : State) : State :=
  if !s.aon.lost then s
  else
    let m := s.grm.flash
    let v := match newest (wearAll m) with
      | some f => flashLE m (f.at' + 8) 8 % 2 ^ 63
      | none => 0x00007D0108000000
    onAon s fun a => { a with cal := BitVec.ofNat 64 v }

/-- Ladder positions, removed clusters, KAT_FAILS and the replacement flag of the newest STATE. -/
def stateRestore (s : State) : State :=
  let m := s.grm.flash
  match newestOf m 2 none with
  | none => s
  | some f =>
    let w := fun (i : Nat) => flashLE m (f.at' + 16 + 8 * i) 8
    let clu := fun (c : Nat) => nfld (w 0) (4 * c) 4 + (if (w 1).testBit c then 3 * 2 ^ 10 else 0) +
      nfld (w (2 + c / 8)) (8 * (c % 8)) 8 * 2 ^ 16
    let s := (List.range 16).foldl (fun s c => wrN s (Reg.hltCluster c) (clu c)) s
    if (w 1).testBit 16 then onGrm (orReg s Reg.hltStatus 32) fun g => { g with flagCause := nfld (w 1) 17 3 } else s

/-- A BOOT record (R626). -/
def bootRecord (s : State) : State :=
  wearRecord s 8 [rdN s Reg.grmFwVersion + s.grm.slot % 2 * 2 ^ 32 + bootCause s * 2 ^ 36]

/-- Stage 3: LP5 training, after which usable DRAM is known (R174, R644). -/
def lp5Training (s : State) (ok : Bool) : State :=
  if !stageAt s 3 then s
  else if !ok then bootRecord (wearInit (stageStop s 5))
  else
    let n := rdF s Reg.memCfg 16 8 * 2 ^ 30
    stageSet (trainedShow (wr64 s Reg.memUsableLo (if eccOn s then n / 8 * 7 else n))) 4

/-! ### Stages 4 and 5 (R598, R644) -/

/-- The clusters whose STATE is not REMOVED, as a mask. -/
def startMask (s : State) : Nat :=
  (List.range 16).foldl (fun a c => if clusterState s c = 3 then a else a + 2 ^ c) 0

/-- A cluster is removed during start-up: nothing runs on it, so it is off at once (R606). -/
def startRemove (s : State) (c : Nat) : State :=
  let s := setEv (hltCluSet s c 10 2 3) Reg.hltEvents 2
  wearRecord s 4 [c + startMask s * 2 ^ 16]

/-- Tests of a cluster at start-up that fail n times in a row: a step and a retest, or removal at position 8 (R603). -/
def startTest (c : Nat) : Nat → State → State
  | 0, s => katCount s c true
  | n + 1, s =>
    let s := katCount s c false
    if hltClu s c 0 4 < 8 then startTest c n (ladderApply (ladderStep s c 0) c) else startRemove s c

/-- Stage 4: the wear record is read, the uncore test and the cluster tests run, and HLT_MAP and the wear record are
written (R598); with no cluster in service the device drains (R41). fails gives, per cluster, how many of its tests fail before one passes. -/
def selfTest (s : State) (uncore : Bool) (fails : List Nat) : State :=
  if !stageAt s 4 || s.pmu.inReset then s
  else
    let s := calendarRestore (if s.pmu.cold then wearInit s else s)
    let s := stateRestore ((List.range 17).foldl counterRestore s)
    let tested := (List.range 16).filter fun c => decide (clusterState s c ≠ 3)
    let s := tested.foldl ladderApply s
    let s := tested.foldl (fun s c => startTest c ((fails[c]?).getD 0) s) s
    let s := wrN s Reg.hltMap (startMask s)
    let lost := tested.any fun c => decide (clusterState s c = 3)
    let cause := if !uncore then 3 else if bit (rd0 s Reg.hltStatus) 5 then 5
      else if lost && decide (serviceCount s < floorOf s) || decide (serviceCount s = 0) then 1 else 0
    stageSet (commandRails (stateRecord (onPmu s fun p => { p with startDrain := cause }))) 5

/-- What the groomer does as start-up completes: a start-up from stage 0 is counted and recorded, AON_STATUS clears,
WAKE_OUT is deasserted, and the least security version rises (R614, R618, R633, R634). -/
def startDone (s : State) : State :=
  let s := if s.pmu.cold then wearAdd (bootRecord s) (deviceCounter 1) 1 else s
  let s := if s.aon.lost then setEv s Reg.grmEvents 4 else s
  let s := onAon s fun a => { a with lost := false, wakeCause := 0, wakeOut := false }
  { s with fuse := { s.fuse with minSvn := max s.fuse.minSvn (rdN s Reg.grmFwVersion % 256) } }

/-- Stage 5: HIU_STATUS.READY, and the drain that stage 4 has found due (R598, R644). -/
def readyStep (s : State) : State :=
  if !stageAt s 5 || s.pmu.inReset then s
  else
    let cause := s.pmu.startDrain
    let s := orReg (startDone s) Reg.hiuStatus 1
    let s := onPins (onPmu s fun p => { p with stage := none, cold := false, startDrain := 0 }) fun p => { p with asleep := false }
    pinSettle (if cause = 0 then s else drainBegin s cause)

/-- The end of a FUNCTION reset: boot values are reloaded, and stages 4 and 5 follow where the earlier ones have
ended (R641). -/
def functionResetEnd (s : State) : State :=
  if !s.pmu.inReset || !s.hiu.perstN || !hiuRunning s then s
  else
    let s := onHiu (onPmu s fun p => { p with inReset := false }) fun h => { h with flr := false }
    let s := trainedShow (linkShow s)
    let s := if s.hiu.cfgEnabled then fuseLoad s else s
    let s := if bit (rd0 s Reg.pinStatus) 0 then boardLoad s else s
    let s := if fwRunning s then wearAdd s (deviceCounter 2) 1 else s
    if loopsRun s && decide (usable s ≠ 0) then stageSet s 4 else s

end Sys2Proof.Machine
end

