-- ==== Sys2Proof/Machine/Cpl.lean ====
section
/-!
DEFINITION. Outbound reads of host memory that fail (spec/03_host_link.md R103, R105): completions with UR or CA, and
timeouts.
-/

namespace Sys2Proof.Machine

/-- The read of the next ring entry fails: the ring is able to fetch, its submission ring lies in host memory, and the
requests are sent. -/
def cplFetch (s : State) (n b : Nat) : State :=
  let s := chainStart s n
  if fetchAble s n && (ringSt s n).chain.isNone && bit (rd0 s (Reg.ringCfg n)) 9 && s.hiu.busMasterEn then
    let a := entryAddr s n
    let va := a % 2 ^ 48
    fetchFailed (hiuErr s b a 0xF 3) n { reason := 9, access := 3, addr := va, detail := va }
  else s

/-- The read of an engine for a dispatched descriptor fails: its context faults. -/
def cplEngine (s : State) (id : DescId) (va bus be b : Nat) : State :=
  match findDesc s id with
  | some d =>
    if d.stage = .dispatched ∧ s.hiu.busMasterEn = true then
      unitFault (hiuErr s b bus be 3) d { reason := 9, access := 0, addr := va, detail := va }
    else s
  | none => s

/-- An outbound read fails: bit b of HIU_ERR. -/
def cplFail (s : State) (b : Nat) (r : OutReq) : State :=
  match r with
  | .ringFetch ring => cplFetch s ring.val b
  | .engine ring seq va bus be => cplEngine s (descNamed s ring seq) va.toNat bus.toNat be.toNat b

/-- The effect of CPL_TIMEOUT: with the AER report of a completion timeout (R103). -/
def cplTimeout (s : State) (r : OutReq) : State :=
  onHiu (aerError (cplFail s 4 r) 14 none) fun h => { h with aerCplTimeout := true }

end Sys2Proof.Machine
end

