-- ==== Sys2Proof/Machine/Bar0.lean ====
section
/-!
DEFINITION. BAR0 as a whole: every register's reading, a 32-bit write under the access codes of R14 to R18, the pairs of
R19 and R20, the CLU broadcast range (R39 to R41), reads before READY (R103), the posted requests of R540 and the SPI
target (R677).
-/

namespace Sys2Proof.Machine

/-- Which copy of a repeated register, one every step bytes from base, an offset names. -/
def slotOf (base step n off : Nat) : Option Nat :=
  if base ≤ off ∧ (off - base) % step = 0 ∧ (off - base) / step < n then some ((off - base) / step) else none

/-- Whether an offset lies in the CLU broadcast range (R37). -/
def inBroadcast (off : Nat) : Bool := decide (0xA00000 ≤ off) && decide (off < 0xB00000)

/-- Whether an offset lies in the range of a cluster that is not in service (R40). -/
def inRemovedCluster (s : State) (off : Nat) : Bool :=
  decide (0x1000000 ≤ off) && decide (off < 0x2000000) && !inService s ((off - 0x1000000) / 0x100000)

/-- Whether an offset names a register of an I2C controller that does not belong to HOST (R675). -/
def inGroomerI2c (s : State) (off : Nat) : Bool :=
  decide (Reg.i2cCfg 0 ≤ off) && decide (off < Reg.i2cCfg 2) && !i2cHost s ((off - Reg.i2cCfg 0) / 0x20)

/-! ### Reading -/

/-- Whether a ring of the twin pair waits to fetch a descriptor until its DESC record fits (R540). -/
def descThrottled (s : State) : Bool :=
  mirroring s && !mirrorFits s 80 && (List.range 64).any fun n => twinRing s n && ringEnabled s n && fetchVisible s n

/-- HLT_TWIN_STATUS, whose THROTTLE is 1 while any source waits (R540). -/
def twinStatusWord (s : State) : Word :=
  if s.hiu.posted.isEmpty && s.ctx.syncQ.isEmpty && !descThrottled s
  then rd s Reg.hltTwinStatus &&& ~~~ (512 : Word) else rd s Reg.hltTwinStatus ||| 512

/-- Registers of the HIU and the HLT, and of a cluster, whose value is live state. -/
def hiuRegRead (s : State) (off : Nat) : Option Word :=
  if off = Reg.hiuBar4BaseLo then some (BitVec.ofNat 32 (bar4Base s))
  else if off = Reg.hiuBar4BaseHi then some (BitVec.ofNat 32 (bar4Base s / 2 ^ 32))
  else if 0x8000 ≤ off ∧ off < 0x8800 then some (msixWord s ((off - 0x8000) / 4))
  else if 0x9000 ≤ off ∧ off < 0x9010 then some (BitVec.ofNat 32 (s.hiu.pba.toNat / 2 ^ (8 * (off - 0x9000))))
  else if off = Reg.hltTwinStatus then some (twinStatusWord s)
  else match slotOf (Reg.hiuIrqCause 0) 4 4 off with
    | some i => some (BitVec.ofNat 32 ((List.range 32).foldl (fun a j =>
        if irqCause s (32 * i + j) then a + 2 ^ j else a) 0))
    | none => match slotOf (Reg.sheetStatus 0) 0x100000 16 off with
      | some c => some (sheetStatusWord s c)
      | none => match slotOf (Reg.liftStatus 0) 0x100000 16 off with
        | some c => some (BitVec.ofNat 32 (liftStatusWord s c))
        | none => (slotOf (Reg.clhState 0) 0x100000 16 off).map fun c => rd s (Reg.hltCluster c)

/-- The first view of a list that gives a register's value. -/
def firstView (s : State) (off : Nat) : List (State → Nat → Option Word) → Option Word
  | [] => none
  | f :: fs => match f s off with
    | some v => some v
    | none => firstView s off fs

/-- Whether an offset is assigned: to a register, to the MSI-X table or to the PBA (R17, R99). -/
def assigned (off : Nat) : Bool :=
  (regFind off).isSome ||
    (decide (off % 4 = 0) && ((decide (0x8000 ≤ off) && decide (off < 0x8800)) || (decide (0x9000 ≤ off) && decide (off < 0x9010))))

/-- The value that a register shows, wherever its state lies; an unassigned offset shows 0 (R17). -/
def regShow (s : State) (off : Nat) : Word :=
  if !assigned off || inRemovedCluster s off || inGroomerI2c s off then 0
  else match firstView s off [hiuRegRead, ltbRead, cfeRead, ctxRead, l2cRead, cluRead, cmpRegRead, geoRegRead, raceRegRead,
      dspRegRead, vzlRead, aonRead, pinRead] with
    | some v => v
    | none => rd s off

/-- The offset that a read or write of the broadcast range names in cluster c (R39). -/
def broadcastAt (c off : Nat) : Nat := 0x1000000 + c * 0x100000 + (off - 0xA00000)

/-- The register that a read reaches: in the broadcast range that of the lowest cluster in service; none without one
(R39, R41). -/
def readOffset (s : State) (off : Nat) : Option Nat :=
  if inBroadcast off then (clustersInService s).head?.map fun c => broadcastAt c off else some off

/-- The value at a BAR0 offset. -/
def bar0Value (s : State) (off : Nat) : Word :=
  match readOffset s off with
  | some o => regShow s o
  | none => 0

/-- Which half of a pair lies at an offset. -/
def pairHalf (off : Nat) : PairHalf :=
  match regFind off with
  | some (r, _, _) => r.pair
  | none => .single

/-- The key of a pair's capture and staged half on an access path. -/
def pairKey (path : Path) (lo : Nat) : Nat :=
  2 * lo + match path with
    | .host => 0
    | .spit => 1

/-- A capture or staged half is set or cleared. -/
def setCapture (s : State) (path : Path) (lo : Nat) (v : Option Word) : State :=
  onHiu s fun h => { h with captures := storePut (fun _ => none) h.captures (pairKey path lo) v }
def setStaged (s : State) (path : Path) (lo : Nat) (v : Option Word) : State :=
  onHiu s fun h => { h with staged := storePut (fun _ => none) h.staged (pairKey path lo) v }

/-- The capture, or the staged half, of a pair on a path. -/
def captureOf (s : State) (path : Path) (lo : Nat) : Option Word :=
  storeGet (fun _ => none) s.hiu.captures (pairKey path lo)
def stagedHalf (s : State) (path : Path) (lo : Nat) : Option Word :=
  storeGet (fun _ => none) s.hiu.staged (pairKey path lo)

/-- A 32-bit read on a path: the captures of R19 and R20, then the value. -/
def pathRead (s : State) (path : Path) (off : Nat) : State × Word :=
  match readOffset s off with
  | none => (s, 0)
  | some o => if inRemovedCluster s o || inGroomerI2c s o then (s, 0) else match pairHalf o with
    | .lo => (setCapture s path o (some (regShow s (o + 4))), regShow s o)
    | .hi => match captureOf s path (o - 4) with
      | some v => (setCapture s path (o - 4) none, v)
      | none => (s, regShow s o)
    | .single => (s, regShow s o)

/-- A dword offset: the byte enables name the bytes. -/
def dwordOff (off : BitVec 25) : Nat := off.toNat / 4 * 4

/-- One dword of a BAR0 read by the host, and the state after it (R42, R103); with no byte enabled nothing is read. -/
def bar0Word (s : State) (off be : Nat) : State × Word :=
  if !liveAt s off then (hiuErr s 6 off be 0, 0)
  else if be = 0 then (s, 0)
  else pathRead s .host off

/-- The bytes that byte enables address, lowest first (R18). -/
def addressedBytes (be : BitVec 4) (v : Word) : List Byte :=
  ((leBytes v.toNat 4).zipIdx.filter fun p => bit be p.2).map fun p => p.1

/-- How one dword is answered: whole as a word, else its addressed bytes (R18). -/
def wordReply (be : BitVec 4) (v : Word) : HostReply := if be = 15 then .data v else .bytes (addressedBytes be v)

/-- A BAR0 read of bytes of one dword (R18, R20). -/
def bar0Read (s : State) (off : Nat) (be : BitVec 4) : State :=
  let r := bar0Word s off be.toNat
  answer r.1 (wordReply be r.2)

/-! ### Writing -/

/-- What a write stores in a register by its masks (R14 to R17): RWL fields only while the lock bit is 0. -/
def regStore (s : State) (off : Nat) (v : Word) : State :=
  match regFind off with
  | none => s
  | some (r, i, _) =>
    let locked := decide (r.lock ≠ 0) && bit (rd0 s (r.lock + r.lockStep * i)) 0
    let m : Word := BitVec.ofNat 32 (if locked then r.rw else r.rw ||| r.rwl)
    let old := rd s off
    wr s off ((((old &&& ~~~ m) ||| (v &&& m)) &&& ~~~ (v &&& BitVec.ofNat 32 r.w1c)) ||| (v &&& BitVec.ofNat 32 r.w1s))

/-- The W1C bits of the register at an offset. -/
def w1cBits (off : Nat) : Word :=
  match regFind off with
  | some (r, _, _) => BitVec.ofNat 32 r.w1c
  | none => 0

/-- The W1C bits that hardware set in the cycle of a write take effect after it (R21). -/
def setsAfter (sets : List (Nat × Word)) (s : State) : State :=
  sets.foldl (fun s e => orReg s e.1 (e.2 &&& w1cBits e.1).toNat) s

/-- Whether a register ignores every write in a state: an offset that is not assigned (R17), ring bases of an enabled ring (R139), the fixed fields of a strip
ring, timing generator or camera port (R449, R480, R495), a heap base in use (R233), S registers (R453), the request
words of a busy groomer (R632), and a controller of the groomer's (R675). -/
def writeIgnored (s : State) (off : Nat) : Bool :=
  !assigned off || inRemovedCluster s off || inGroomerI2c s off || tgFixed s off || csiFixed s off || (shadowHome off).isSome ||
    (decide (Reg.grmReq 0 ≤ off) && decide (off < Reg.grmReq 64) && grmBusy s) ||
    (List.range 64).any (fun n => ringEnabled s n && decide (Reg.ringSqBaseLo n ≤ off) && decide (off < Reg.ringCfg n)) ||
    (List.range 16).any (fun n => sringOn s n && (decide (off = Reg.sringSize n) || decide (off = Reg.sringY0 n))) ||
    (List.range 128).any fun c => decide (off / 8 * 8 = Reg.heapVaBaseLo c) && decide (rd0 s (Reg.heapUnits c) ≠ 0)

/-- A dword of the MSI-X table: vector control keeps only its mask bit (R99). -/
def msixWrite (s : State) (k : Nat) (v : Word) : State :=
  onHiu s fun h => { h with msix := storePut msixDefault h.msix k (if k % 4 = 3 then v &&& 1 else v) }

/-- A write of VZL_CTRL: a port that is no longer enabled goes to DOWN (R584). -/
def vzlCtrlWrite (s : State) (v : Word) : State :=
  (List.range 4).foldl (fun s p => if !portEnabled s p && decide ((vzlPort s p).st ≠ .down) then portDown s p else s)
    (regStore s Reg.vzlCtrl v)

/-- A write of CSI_n_ERR; a write of 0 clears CSI_n_HOLD_MAX (R497). -/
def csiErrWrite (s : State) (n : Nat) (v : Word) : State :=
  let s := regStore s (Reg.csiErr n) v
  if v = 0 then wr s (Reg.csiHoldMax n) 0 else s

/-- Registers of the LTB, HIU, CFE, CTX, MMU, L2C and CMP whose writes act. -/
def actWrite0 (s : State) (off : Nat) (v : Word) : Option State :=
  if off = Reg.hiuSwint then some (swInt s v)
  else if 0x8000 ≤ off ∧ off < 0x8800 then some (msixWrite s ((off - 0x8000) / 4) v)
  else if off = Reg.ltbSrc then some (ltbSrcWrite s v)
  else if off = Reg.ltbCtrl then some (ltbEnableWrite s v)
  else if off = Reg.ctxSyncInit then some (syncInit s v)
  else if off = Reg.ctx0Ctrl then some (ctx0Load s v)
  else if off = Reg.mmuInv then some (mmuInvWrite s v)
  else if off = Reg.l2cSetway then some (setwayWrite s v)
  else match slotOf (Reg.hiuIrqAck 0) 4 4 off with
    | some k => some (irqAck s k v)
    | none => (slotOf (Reg.ringCfg 0) 0x40 64 off).map fun n => ringCfgWrite s n v

/-- Registers of the DSP, CAM, HLT, VZL, GRM and PMU whose writes act. -/
def actWrite1 (s : State) (off : Nat) (v : Word) : Option State :=
  if off = Reg.hltTwinCtrl then some (twinCtrlWrite s v)
  else if off = Reg.hltTwinCmd then some (twinResume s v)
  else if off = Reg.vzlCtrl then some (vzlCtrlWrite s v)
  else if off = Reg.dspPlaneMap0 then some (planeMapWrite s 0 v)
  else if off = Reg.dspPlaneMap0 + 4 then some (planeMapWrite s 1 v)
  else if off = Reg.dspScalerMap then some (scalerMapWrite s v)
  else if off = Reg.grmDoorbell then some (grmDoorbell s v)
  else if off = Reg.pmuPstate then some (pstateWrite s v)
  else match slotOf (Reg.vzlportCtrl 0) 0x40 4 off with
    | some p => some (portCtrlWrite s p v)
    | none => match slotOf (Reg.tgCtrl 0) 0x100 4 off with
      | some m => some (tgCtrlWrite s m v)
      | none => match slotOf (Reg.csiCtrl 0) 0x80 4 off with
        | some n => some (csiCtrlWrite s n v)
        | none => match slotOf (Reg.csiErr 0) 0x80 4 off with
          | some n => some (csiErrWrite s n v)
          | none => (slotOf (Reg.sringCfg 0) 0x40 16 off).map fun n => sringCfgWrite s n v

/-- Registers of the PIN block whose writes act (R662, R668, R671, R674 to R676). -/
def actWrite2 (s : State) (off : Nat) (v : Word) : Option State :=
  if off = Reg.pinEnSet then some (pinEnWrite s (fun o m => o ||| m) v)
  else if off = Reg.pinEnClr then some (pinEnWrite s (fun o m => o &&& ~~~ m) v)
  else if off = Reg.pinEnTgl then some (pinEnWrite s (fun o m => o ^^^ m) v)
  else match slotOf (Reg.pinCfg 0) 4 64 off with
    | some k => some (pinCfgWrite s k v)
    | none => match slotOf (Reg.pinSet 0) 0x20 8 off with
      | some b => some (pinOutWrite s b (fun o m => o ||| m) v)
      | none => match slotOf (Reg.pinClr 0) 0x20 8 off with
        | some b => some (pinOutWrite s b (fun o m => o &&& ~~~ m) v)
        | none => match slotOf (Reg.pinTgl 0) 0x20 8 off with
          | some b => some (pinOutWrite s b (fun o m => o ^^^ m) v)
          | none => match slotOf (Reg.pinOe 0) 0x20 8 off with
            | some b => some (pinOeWrite s b v)
            | none => (slotOf (Reg.i2cXfer 0) 0x20 2 off).map fun n => i2cStart s n v

/-- A 32-bit value reaches a register: the effect it has, or its masks. -/
def regWrite (s : State) (off : Nat) (v : Word) : State :=
  if writeIgnored s off then s
  else match actWrite0 s off v with
    | some s' => s'
    | none => match actWrite1 s off v with
      | some s' => s'
      | none => match actWrite2 s off v with
        | some s' => s'
        | none => regStore s off v

/-- A whole-dword write of the host: a low half is staged, unless the register ignores writes, and a high half stores both
(R19, R20). -/
def dwordWrite (s : State) (off : Nat) (v : Word) : State :=
  if inRemovedCluster s off || inGroomerI2c s off then s
  else match pairHalf off with
  | .lo => if writeIgnored s off then s else setStaged s .host off (some v)
  | .hi => match stagedHalf s .host (off - 4) with
    | some lo => regWrite (regWrite (setStaged s .host (off - 4) none) (off - 4) lo) off v
    | none => regWrite s off v
  | .single => regWrite s off v

/-- A write of the broadcast range: the same offset in every cluster in service (R39, R41). -/
def broadcastStore (s : State) (off : Nat) (v : Word) : State :=
  (clustersInService s).foldl (fun s c => dwordWrite s (broadcastAt c off) v) s

/-- A BAR0 write by the host: not live, narrow (R18), broadcast, or a dword (R103). -/
def bar0Write (s : State) (off be : Nat) (v : Word) : State :=
  if !liveAt s off then hiuErr s 6 off be 0
  else if be ≠ 15 then hiuErr s 0 off be 0
  else if inBroadcast off then broadcastStore s off v
  else dwordWrite s off v

/-- A write TLP: its dwords in ascending order, each judged on its own (R43, R91, R107). -/
def tlpWrite (s : State) (off : Nat) : List (BitVec 4 × Word) → State
  | [] => s
  | d :: ds => tlpWrite (bar0Write s off d.1.toNat d.2) (off + 4) ds

/-- The effect of REGISTER_WRITE; in the cycle of hardware sets, those come after it (R21). -/
def registerWrite (s : State) (off : Nat) (dws : List (BitVec 4 × Word)) (same : Bool) : State :=
  let t := tlpWrite s off dws
  if same then setsAfter s.cycleSets t else t

/-! ### Commands -/

/-- One dword of a read of BAR0 or BAR2; before it is live it reads 0 and sets NOT_READY (R103, R107). -/
def barWord (s : State) (space off be : Nat) : State × Word :=
  if space = 0 then bar0Word s off be
  else if ready s then (s, bar2Read s off)
  else (hiuErr s 6 off be 1, 0)

/-- The dwords of a read TLP of BAR0 or BAR2 in ascending order: the bytes addressed, and the state after it (R91). -/
def tlpRead (s : State) (space off : Nat) : List (BitVec 4) → State × List Byte
  | [] => (s, [])
  | be :: bes =>
    let r := barWord s space off be.toNat
    let t := tlpRead r.1 space (off + 4) bes
    (t.1, addressedBytes be r.2 ++ t.2)

/-- The addressed bytes of a read whose dwords lie in a list of bytes. -/
def enabledBytes : List (BitVec 4) → List Byte → List Byte
  | [], _ => []
  | be :: bes, bs =>
    ((bs.take 4).zipIdx.filter fun p => bit be p.2).map (fun p => p.1) ++ enabledBytes bes (bs.drop 4)

/-- A read TLP of a BAR: one whole dword of BAR0 or BAR2 is answered as a word, anything else as its bytes. -/
def barRead (s : State) (base space off : Nat) (bes : List (BitVec 4)) : State :=
  if space = 2 then
    let r := bar4Fetch s base (off / 4 * 4) (4 * bes.length) (bes.head?.getD 0).toNat
    answer r.1 (.bytes (enabledBytes bes r.2))
  else
    let o := off % 2 ^ (if space = 0 then 25 else 18) / 4 * 4
    match bes with
    | [be] =>
      let r := barWord s space o be.toNat
      answer r.1 (wordReply be r.2)
    | _ =>
      let r := tlpRead s space o bes
      answer r.1 (.bytes r.2)

/-! ### The SPI target (R677) -/

/-- The register at an address of the SPI target. -/
def spitReg (a : Nat) : Option Nat :=
  match a with
  | 0x000 => some Reg.hiuId
  | 0x004 => some Reg.hiuStatus
  | 0x008 => some Reg.grmStatus
  | 0x00C => some Reg.hltStatus
  | 0x010 => some Reg.hltMap
  | 0x014 => some Reg.pmuStatus
  | 0x018 => some Reg.pmuHottest
  | 0x01C => some Reg.hltTwinStatus
  | 0x020 => some Reg.aonStatus
  | 0x024 => some Reg.aonCalLo
  | 0x028 => some Reg.aonCalHi
  | 0x02C => some Reg.grmSeq
  | 0x030 => some Reg.pinConflict
  | _ => none

/-- A read of one word on the SPI path. -/
def spitWord (s : State) (a : Nat) : State × Word :=
  match spitReg a with
  | some off => pathRead s .spit off
  | none => (s, 0)

/-- Whether the SPI target takes part in a frame: in ACTIVE, with one pin carrying each of its inputs. -/
def spitOn (s : State) : Bool :=
  running s && decide ((fnPins s 2 0).length = 1) && decide ((fnPins s 2 1).length = 1) && decide ((fnPins s 2 2).length = 1)

/-- The registers from an address on, one word each. -/
def spitRead (s : State) (a : Nat) : Nat → State × List Byte
  | 0 => (s, [])
  | n + 1 =>
    let r := spitWord s a
    let t := spitRead r.1 (a + 4) n
    (t.1, leBytes r.2.toNat 4 ++ t.2)

/-- The bytes that a frame sent. -/
def spitSent (r : State × List Byte) : State := onPins r.1 fun p => { p with spit := r.2 }

end Sys2Proof.Machine
end

