-- ==== Sys2Proof/Machine/Clock.lean ====
section
/-!
DEFINITION. The end of a command's cycle: the pads follow the outputs of their units, interrupts are evaluated, and each
scheduler counts the candidates that came in the cycle (spec/25_pins.md R666, spec/19_contention.md R514, R516, R518; log
entries 4, 42); and with it the forms of a row's answer, by the clock domain of its unit.
-/

namespace Sys2Proof.Machine

/-! ### Rank data of gated steps (R374, R514) -/

/-- Whether a step is a candidate: the next one of its queue, and ready. -/
def stepIsCand (s : State) (l : LayerRun) (i : Nat) : Bool :=
  let r := layerStep l i
  l.ready && l.tableRead && descRuns s l.id && decide (queueNext l (stepVcl r) (stepQueue r) = some i) && stepReady s l i

/-- The rank data of a step at the end of a cycle: noted in its first cycle as a candidate, with U recomputed at each line
event of LT; none for an ungated step, and after its end. -/
def stepNote (s : State) (again : Bool) (l : LayerRun) (i : Nat) : Option StepRank :=
  let r := layerStep l i
  if !(stepDispEn r || stepCamEn r) || stepDone l i then none
  else match stepNoted s l.id i with
    | some x => some (if again then { x with u := stepU s l r } else x)
    | none => if stepIsCand s l i then some { id := l.id, step := i, rd := stepCamRd s l r, u := stepU s l r } else none

/-- The rank data of all gated steps at the end of a cycle. -/
def stepNotes (s : State) : List StepRank :=
  let again := decide (s.con.lineSeen ≠ s.ltb.lineEvents)
  s.work.layers.flatMap fun l => (List.range l.recs.length).filterMap (stepNote s again l)

/-! ### Candidates (R516, R518, R519) -/

/-- Each of n schedulers settles with its own candidates. -/
def sharesSettle {α : Type} (s : State) (n : Nat) (shs : List Share) (cands : Nat → List (Rank × α)) : List Share :=
  (List.range n).map fun i => shareSettle s ((shs[i]?).getD {}) (cands i)

/-- The schedulers at the end of a cycle; while the units do not run they stand. -/
def conNext (s : State) : Con :=
  if !running s then s.con
  else
    let s := onCon s fun c => { c with steps := stepNotes s, lineSeen := s.ltb.lineEvents }
    let c := s.con
    { c with
      fetch := shareSettle s c.fetch (fetchCands s)
      dispatch := shareSettle s c.dispatch (dispatchCands s)
      geo := shareSettle s c.geo (geoCands s)
      window := sharesSettle s 16 c.window (winCands s)
      lift := sharesSettle s 16 c.lift (liftCands s)
      place := sharesSettle s 64 c.place (placeCands s)
      tns := sharesSettle s 64 c.tns fun k => readyOf s (k / 4) (k % 4) [2, 3, 4]
      cmp := sharesSettle s 2 c.cmp (cmpCands s)
      cycle := c.cycle + 1 }

/-- The schedulers' end of a cycle. -/
def conSettle (s : State) : State := { s with con := conNext s }

/-! ### The end of a cycle -/

/-- What the units drive onto pins: HEALTH_N, OFF_READY, FSYNC_OUT, LSYNC_OUT and TWIN_ALIVE (R674). -/
def padOutputs (s : State) : List Bool :=
  [healthN s, bit (rd0 s Reg.pmuStatus) 5, xor s.ltb.fsyncOut (bit s.ltb.syncOut 2), xor s.ltb.lsyncOut (bit s.ltb.syncOut 3),
    s.twin.alive]

/-- The pads follow a change of those outputs; configuration, GPIO and inputs settle in their own commands. -/
def padFollow (s s' : State) : State := if padOutputs s' = padOutputs s then s' else pinSettle s'

/-- The end of the cycle of a command in state s, whose effect is s': the pads follow, interrupts are evaluated after all
else (R710), and the schedulers see its candidates. -/
def cycleEnd (s s' : State) : State := conSettle (irqSettle (padFollow s s'))

/-! ### The answer of a row -/

/-- The answer of a command of a unit in state s, whose effect is s': none while the units do not run. -/
def clocked (s s' : State) : Host.Outcome State Fault Refusal :=
  if running s then .next (confine s (cycleEnd s s')) else .next s

/-- The answer of a command of the power and thermal loops or of a change of the DVFS point in state s, whose effect is
s': none while the groomer's domain does not run. -/
def groomed (s s' : State) : Host.Outcome State Fault Refusal :=
  if grmRunning s then .next (confine s (cycleEnd s s')) else .next s

/-- The answer of a command of the HIU, the groomer or the PMU in state s, whose effect is s': none while SYS_RST_N is
low or after a trip. -/
def served (s s' : State) : Host.Outcome State Fault Refusal :=
  if hiuRunning s then .next (confine s (cycleEnd s s')) else .next s

/-- The answer of a command that acts in every state, such as a pin's input or a tick of the calendar. -/
def aside (s s' : State) : Host.Outcome State Fault Refusal :=
  .next (confine s (if hiuRunning s then cycleEnd s s' else s'))

end Sys2Proof.Machine
end

