-- ==== Sys2Proof/Machine/RowsHost.lean ====
section
/-!
DEFINITION. The rows of the host interface, the contexts, the memory hierarchy and the allocators: each is the answer to one command.
-/

namespace Sys2Proof.Machine

/-! ### Host interface (spec/03_host_link.md) -/

/-- A host request takes effect in HIU order: behind a throttled BAR4 write it waits (R96, R540). -/
def viaHiuAt (base : Nat) (i : Instr) (f : State → State) (s : State) : Host.Outcome State Fault Refusal :=
  served s (if s.hiu.posted.isEmpty then f s else holdRequest base i s)

/-- A host request received in state s. -/
def viaHiu (i : Instr) (f : State → State) (s : State) : Host.Outcome State Fault Refusal := viaHiuAt (bar4Base s) i f s

/-- CONFIGURATION_REQUEST (R96, R108). -/
def execConfigurationRequest (r : CfgReq) (s : State) : Host.Outcome State Fault Refusal :=
  viaHiu (.configurationRequest r) (fun s => cfgRequest s r) s

/-- RESIZABLE_BAR: a control value of 256 MiB to 4 GiB is stored, any other leaves it unchanged (R88). -/
def execResizableBar (log2 : Fin 64) (s : State) : Host.Outcome State Fault Refusal :=
  viaHiu (.resizableBar log2) (fun s => resizableBarEffect s log2) s

/-- MSIX_UNMASK: the messages held in the PBA are sent (R100). -/
def execMsixUnmask (w : MsixUnmask) (s : State) : Host.Outcome State Fault Refusal :=
  viaHiu (.msixUnmask w) (fun s => msixUnmaskEffect s w) s

/-- HIU_IRQ_ACK (R100). -/
def execHiuIrqAck (k : Fin 4) (v : Word) (s : State) : Host.Outcome State Fault Refusal :=
  viaHiu (.hiuIrqAck k v) (fun s => irqAck s k.val v) s

/-- HIU_SWINT (R102). -/
def execHiuSwint (v : Word) (s : State) : Host.Outcome State Fault Refusal := viaHiu (.hiuSwint v) (fun s => swInt s v) s

/-- POISONED_WRITE (R103). -/
def execPoisonedWrite (space : Fin 3) (off : BitVec 32) (tlp : PoisonedTlp) (s : State) : Host.Outcome State Fault Refusal :=
  viaHiu (.poisonedWrite space off tlp) (fun s => poisonedWrite s space.val off.toNat tlp.be.toNat tlp.hdr) s

/-- A BAR4 write waits in the posted buffer while its mirror records do not fit (R540). -/
def bar4WriteVia (base : Nat) (off : BitVec 32) (bytes : List (Option Byte)) (s : State) : Host.Outcome State Fault Refusal :=
  let i : Instr := .bar4Write off bytes
  if s.hiu.posted.isEmpty && !bar4Fits s base off.toNat bytes && decide (payloadBytes i ≤ maxPayload s) then
    served s (onHiu s fun h => { h with posted := [(i, base)] })
  else viaHiuAt base i (ifPayloadFits i fun s => bar4Write s base off.toNat bytes) s

/-- BAR4_WRITE (R89, R90, R540). -/
def execBar4Write (off : BitVec 32) (bytes : List (Option Byte)) (s : State) : Host.Outcome State Fault Refusal :=
  bar4WriteVia (bar4Base s) off bytes s

/-- A BAR4 read in HIU order, under the base of its receipt. -/
def bar4ReadVia (base : Nat) (off : BitVec 32) (len : Fin 4097) (s : State) : Host.Outcome State Fault Refusal :=
  viaHiuAt base (.bar4Read off len) (fun s => bar4Read s base off.toNat len.val) s

/-- BAR4_READ (R90, R93). -/
def execBar4Read (off : BitVec 32) (len : Fin 4097) (s : State) : Host.Outcome State Fault Refusal :=
  bar4ReadVia (bar4Base s) off len s

/-- SQ_DOORBELL (R92, R115). -/
def execSqDoorbell (ring : Fin 64) (dw : Fin 1024) (dws : List (BitVec 4 × Word)) (s : State) :
    Host.Outcome State Fault Refusal :=
  let i : Instr := .sqDoorbell ring dw dws
  viaHiu i (ifPayloadFits i fun s => pageWrites s ring.val dw.val dws) s

/-- CQ_RELEASE (R116). -/
def execCqRelease (ring : Fin 64) (be : BitVec 4) (v : Word) (s : State) : Host.Outcome State Fault Refusal :=
  viaHiu (.cqRelease ring be v) (fun s => cqRelease s ring.val be.toNat v) s

/-- RING_ENABLE: a write of RING_n_CFG with ENABLE 1 (R139). -/
def execRingEnable (ring : Fin 64) (v : Word) (s : State) : Host.Outcome State Fault Refusal :=
  viaHiu (.ringEnable ring v)
    (fun s => liveWrite s (Reg.ringCfg ring.val) fun s => ringCfgWrite s ring.val (v ||| 1)) s

/-- RING_DISABLE: a write of RING_n_CFG with ENABLE 0 (R140). -/
def execRingDisable (ring : Fin 64) (v : Word) (s : State) : Host.Outcome State Fault Refusal :=
  viaHiu (.ringDisable ring v)
    (fun s => liveWrite s (Reg.ringCfg ring.val) fun s => ringCfgWrite s ring.val (v &&& ~~~ 1)) s

/-! ### Contexts and sync objects (spec/05_contexts_and_objects.md) -/

/-- CTX0_LOAD: a write of CTX0_CTRL (R168). -/
def execCtx0Load (v : Word) (s : State) : Host.Outcome State Fault Refusal :=
  viaHiu (.ctx0Load v) (fun s => liveWrite s Reg.ctx0Ctrl fun s => ctx0Load s v) s

/-- LOAD (R161). -/
def execLoad (s : State) : Host.Outcome State Fault Refusal := clocked s (ctxStep s 1 ctxLoad)

/-- TEARDOWN (R166). -/
def execTeardown (s : State) : Host.Outcome State Fault Refusal := clocked s (ctxStep s 2 ctxTeardown)

/-- MARK_LOST (R161). -/
def execMarkLost (s : State) : Host.Outcome State Fault Refusal :=
  clocked s (markLostEffect s)

/-- QUERY (R161). -/
def execQuery (s : State) : Host.Outcome State Fault Refusal := clocked s (ctxStep s 4 ctxQuery)

/-- CONTEXT_UPDATE (R163). -/
def execContextUpdate (s : State) : Host.Outcome State Fault Refusal :=
  clocked s (contextUpdateEffect s)

/-- TEARDOWN_RELEASE (R166). -/
def execTeardownRelease (s : State) : Host.Outcome State Fault Refusal :=
  clocked s (teardownReleaseEffect s)

/-- POISON_WALK: four objects of the lost slot's signal range, in ascending order (R159). -/
def execPoisonWalk (c : Fin 128) (s : State) : Host.Outcome State Fault Refusal :=
  clocked s (walkOne c.val (walkOne c.val (walkOne c.val (walkOne c.val s))))

/-- SYNC_INIT: a write of CTX_SYNC_INIT (R169). -/
def execSyncInit (v : Word) (s : State) : Host.Outcome State Fault Refusal :=
  viaHiu (.syncInit v) (fun s => liveWrite s Reg.ctxSyncInit fun s => syncInit s v) s

/-- WAIT: a WAIT enters hold (R157). -/
def execWait (ring : Fin 64) (seq : Word) (s : State) : Host.Outcome State Fault Refusal :=
  clocked s (waitEffect s ring seq)

/-- WAIT_SATISFIED: every WAIT that a change of an object satisfied is presented for dispatch (R157). -/
def execWaitSatisfied (obj : BitVec 16) (s : State) : Host.Outcome State Fault Refusal :=
  clocked s (waitSatisfiedEffect s obj)

/-! ### Memory hierarchy and allocators (spec/06_memory_hierarchy.md, spec/07_allocators_and_heaps.md) -/

/-- L2C_SETWAY (R205). -/
def execL2cSetway (v : Word) (s : State) : Host.Outcome State Fault Refusal :=
  viaHiu (.l2cSetway v) (fun s => liveWrite s Reg.l2cSetway fun s => setwayWrite s v) s

/-- SETWAY_DONE (R205). -/
def execSetwayDone (s : State) : Host.Outcome State Fault Refusal :=
  clocked s (setwayDoneEffect s)

/-- MMU_INV (R206). -/
def execMmuInv (v : Word) (s : State) : Host.Outcome State Fault Refusal :=
  viaHiu (.mmuInv v) (fun s => liveWrite s Reg.mmuInv fun s => mmuInvWrite s v) s

/-- MMU_INV_DONE (R206): accesses are whole commands, so every access translated before has completed. -/
def execMmuInvDone (s : State) : Host.Outcome State Fault Refusal := clocked s (clrReg s Reg.mmuStatus 1)

/-- CACHE_RANGE_CLEAN (R204). -/
def execCacheRangeClean (s : State) : Host.Outcome State Fault Refusal := clocked s (cacheRange s 1)

/-- CACHE_RANGE_INVALIDATE (R204). -/
def execCacheRangeInvalidate (s : State) : Host.Outcome State Fault Refusal := clocked s (cacheRange s 2)

/-- CACHE_RANGE_CLEAN_INVALIDATE (R204). -/
def execCacheRangeCleanInvalidate (s : State) : Host.Outcome State Fault Refusal := clocked s (cacheRange s 3)

/-- LP5_BURST (R525): ready names the channel's waiting requests whose bank timing permits a burst now, 0 the oldest. -/
def execLp5Burst (ch : Fin 16) (ready : List Nat) (s : State) : Host.Outcome State Fault Refusal :=
  clocked s (lpBurst s ch.val ready)

/-- REFRESH (R175). -/
def execRefresh (ch : Fin 16) (derate : Bool) (s : State) : Host.Outcome State Fault Refusal := clocked s (lpRefresh s ch.val derate)

/-- HEAP_GRANT_BIN_CHUNK (R224). -/
def execHeapGrantBinChunk (s : State) : Host.Outcome State Fault Refusal :=
  clocked s (grantStep s (fun d => decide (grantKind d = 0) && !grantDeny d) grantChunk)

/-- HEAP_GRANT_RESERVE (R223). -/
def execHeapGrantReserve (s : State) : Host.Outcome State Fault Refusal :=
  clocked s (grantStep s (fun d => decide (grantKind d = 1)) grantReserve)

/-- HEAP_GRANT_DENY (R229). -/
def execHeapGrantDeny (s : State) : Host.Outcome State Fault Refusal :=
  clocked s (grantStep s (fun d => decide (grantKind d = 0) && grantDeny d) grantDenial)

/-! ### Outbound completions (spec/03_host_link.md) -/

/-- CPL_ERROR: UR or CA (R103). -/
def execCplError (r : OutReq) (s : State) : Host.Outcome State Fault Refusal := clocked s (cplFail s 5 r)

/-- CPL_TIMEOUT (R103). -/
def execCplTimeout (r : OutReq) (s : State) : Host.Outcome State Fault Refusal := clocked s (cplTimeout s r)

end Sys2Proof.Machine
end

