-- ==== Sys2Proof/Machine/RowsPorts.lean ====
section
/-!
DEFINITION. The rows of composition, the display ports and the camera ports: each is the answer to one command.
-/

namespace Sys2Proof.Machine

/-! ### Composition (spec/16_composition.md) -/

/-- DSP_PLANE_MAP (R452). -/
def execDspPlaneMap (k : Fin 2) (v : Word) (s : State) : Host.Outcome State Fault Refusal :=
  viaHiu (.dspPlaneMap k v) (fun s => liveWrite s Reg.dspPlaneMap0 fun s => planeMapWrite s k.val v) s

/-- DSP_SCALER_MAP (R452). -/
def execDspScalerMap (v : Word) (s : State) : Host.Outcome State Fault Refusal :=
  viaHiu (.dspScalerMap v) (fun s => liveWrite s Reg.dspScalerMap fun s => scalerMapWrite s v) s

/-- COMMIT (R472). -/
def execCommit (m : Fin 4) (s : State) : Host.Outcome State Fault Refusal := clocked s (commitRun s m.val)

/-- COMMIT_LATCH (R473). -/
def execCommitLatch (m : Fin 4) (s : State) : Host.Outcome State Fault Refusal := clocked s (latchDue s m.val)

/-- SCALER_LOAD of the queue of output m, or of unmapped scalers (R475). -/
def execScalerLoad (m : Fin 5) (s : State) : Host.Outcome State Fault Refusal :=
  match if m.val < 4 then outHead s m.val else loadsHead s with
  | some id => clocked s (scalerLoad s m.val id)
  | none => .next s

/-- SCALER_BANK_COPY (R475). -/
def execScalerBankCopy (scaler : Fin 8) (s : State) : Host.Outcome State Fault Refusal := clocked s (bankCopy s scaler.val)

/-! ### Scanout and display ports (spec/17_display_and_camera_ports.md) -/

/-- SCANOUT_LINE_FETCH (R459). -/
def execScanoutLineFetch (m : Fin 4) (plane : Fin 16) (s : State) : Host.Outcome State Fault Refusal :=
  clocked s (scanFetch s m.val plane.val)

/-- TG_LINE_START (R477, R482). -/
def execTgLineStart (m : Fin 4) (s : State) : Host.Outcome State Fault Refusal := clocked s (tgLineStart s m.val)

/-- TG_FRAME_EVENT (R48). -/
def execTgFrameEvent (m : Fin 4) (s : State) : Host.Outcome State Fault Refusal := clocked s (tgFrameEvent s m.val)

/-- TG_ENABLE: a write of TG_m_CTRL with ENABLE 1 (R479). -/
def execTgEnable (m : Fin 4) (v : Word) (s : State) : Host.Outcome State Fault Refusal :=
  viaHiu (.tgEnable m v) (fun s => liveWrite s (Reg.tgCtrl m.val) fun s => tgCtrlWrite s m.val (v ||| 1)) s

/-- TG_DISABLE: a write of TG_m_CTRL with ENABLE 0 (R480). -/
def execTgDisable (m : Fin 4) (v : Word) (s : State) : Host.Outcome State Fault Refusal :=
  viaHiu (.tgDisable m v) (fun s => liveWrite s (Reg.tgCtrl m.val) fun s => tgCtrlWrite s m.val (v &&& ~~~ 1)) s

/-- TG_PLL_LOCK (R480). -/
def execTgPllLock (m : Fin 4) (s : State) : Host.Outcome State Fault Refusal := clocked s (tgPllLock s m.val)

/-! ### Camera ports -/

/-- FRAME_EVENT: a real frame event of source src (R48, R52, R73, R80, R712). -/
def execFrameEvent (src : Fin 11) (s : State) : Host.Outcome State Fault Refusal :=
  clocked s (frameEventEffect s src)

/-- CSI_EVENT_RELEASE (R488). -/
def execCsiEventRelease (port : Fin 4) (s : State) : Host.Outcome State Fault Refusal := clocked s (camRelease s port.val)

/-- FRAME_START (R487, R494). -/
def execFrameStart (port : Fin 4) (h : CsiHdr) (s : State) : Host.Outcome State Fault Refusal :=
  clocked s (frameStartEffect s port h)

/-- LINE_START: a Line Start packet, or the header of the first long packet of a line where the port sends no Line
Start (R487); the errors of a long packet's header are those of its LONG_PACKET. -/
def execLineStart (port : Fin 4) (h : CsiHdr) (long : Bool) (s : State) : Host.Outcome State Fault Refusal :=
  clocked s (lineStartEffect s port h long)

/-- FRAME_END (R492). -/
def execFrameEnd (port : Fin 4) (h : CsiHdr) (s : State) : Host.Outcome State Fault Refusal :=
  clocked s (frameEndEffect s port h)

/-- LONG_PACKET (R486, R489). -/
def execLongPacket (port : Fin 4) (h : CsiHdr) (dt : Fin 64) (crcOk : Bool) (bytes : List Byte) (accepted : Bool)
    (s : State) : Host.Outcome State Fault Refusal :=
  clocked s (longPacketEffect s port h dt crcOk bytes accepted)

/-- CSI_ENABLE: a write of CSI_n_CTRL with ENABLE 1 (R495). -/
def execCsiEnable (port : Fin 4) (v : Word) (s : State) : Host.Outcome State Fault Refusal :=
  viaHiu (.csiEnable port v) (fun s => liveWrite s (Reg.csiCtrl port.val) fun s => csiCtrlWrite s port.val (v ||| 1)) s

/-- CSI_DISABLE: a write of CSI_n_CTRL with ENABLE 0 (R495). -/
def execCsiDisable (port : Fin 4) (v : Word) (s : State) : Host.Outcome State Fault Refusal :=
  viaHiu (.csiDisable port v) (fun s => liveWrite s (Reg.csiCtrl port.val) fun s => csiCtrlWrite s port.val (v &&& ~~~ 1)) s

end Sys2Proof.Machine
end

