-- ==== Sys2Proof/Machine/RowsPower.lean ====
section
/-!
DEFINITION. The rows of start-up, power, health, pins and the groomer: each is the answer to one command.
-/

namespace Sys2Proof.Machine

/-! ### Start-up (spec/24_power_clocks_reset.md) -/

/-- VDD_AON_RISE: the AON scope, and every scope below it, is reset (R617, R639). -/
def execVddAonRise (s : State) : Host.Outcome State Fault Refusal :=
  let s := deviceReset { s with aon := {} }
  .next (onPmu (onHiu s fun h => { h with perstN := false }) fun p => { p with sysRstN := false, rails := false })

/-- SYS_RST_N_ASSERT (R639). -/
def execSysRstNAssert (s : State) : Host.Outcome State Fault Refusal :=
  .next (onPmu (deviceReset s) fun p => { p with sysRstN := false })

/-- MAIN_RAIL_DIP: with SYS_RST_N high, start-up follows from stage 0 (R639). -/
def execMainRailDip (s : State) : Host.Outcome State Fault Refusal :=
  let s := onPmu (deviceReset s) fun p => { p with rails := false }
  aside s (if s.pmu.sysRstN then startUp s else s)

/-- GROOMER_WATCHDOG (R642). -/
def execGroomerWatchdog (s : State) : Host.Outcome State Fault Refusal :=
  aside s (if fwRunning s && s.pmu.sysRstN then pinSettle (startUp (deviceReset s)) else s)

/-- SYS_RST_N_DEASSERT: start-up begins at stage 0 (R643). -/
def execSysRstNDeassert (straps : BitVec 3) (s : State) : Host.Outcome State Fault Refusal :=
  if s.pmu.sysRstN then .next s
  else
    let s := sysRstRise s straps
    aside s (pinSettle (startUp s))

/-- PERST_N_ASSERT (R108, R639). -/
def execPerstNAssert (s : State) : Host.Outcome State Fault Refusal := aside s (functionReset s .perst)

/-- HOT_RESET (R108). -/
def execHotReset (s : State) : Host.Outcome State Fault Refusal :=
  served s (functionReset s .hot)

/-- LINK_DOWN (R108). -/
def execLinkDown (s : State) : Host.Outcome State Fault Refusal :=
  served s (functionReset s .linkDown)

/-- FUNCTION_LEVEL_RESET: a configuration request that begins an FLR (R108). -/
def execFunctionLevelReset (s : State) : Host.Outcome State Fault Refusal :=
  served s (if cfgRetry s then answer s .cfgRetry else functionReset s .flr)

/-- PERST_N_DEASSERT: the link leaves Detect (R106). -/
def execPerstNDeassert (s : State) : Host.Outcome State Fault Refusal :=
  aside s (onHiu s fun h => if h.perstN then h else { h with perstN := true, link := .training })

/-- PCIE_LINK_UP (R102, R106). -/
def execPcieLinkUp (width : Fin 9) (l : LinkStart) (s : State) : Host.Outcome State Fault Refusal :=
  served s (linkCounts (linkUp s width.val l.rate.val) l.replays l.rxErrs)

/-- BOOT_ROM (R644). -/
def execBootRom (pllOk : Bool) (jedec : Option (BitVec 24)) (s : State) : Host.Outcome State Fault Refusal :=
  served s (bootRom s pllOk jedec)

/-- FIRMWARE_CHECK (R633). -/
def execFirmwareCheck (sig0 sig1 : Bool) (s : State) : Host.Outcome State Fault Refusal := served s (firmwareCheck s sig0 sig1)

/-- BOARD_RECORD (R644). -/
def execBoardRecord (pmbus : Bool) (s : State) : Host.Outcome State Fault Refusal := served s (boardRecord s pmbus)

/-- LP5_TRAINING (R644). -/
def execLp5Training (ok : Bool) (s : State) : Host.Outcome State Fault Refusal := served s (lp5Training s ok)

/-- SELF_TEST_AND_MAP (R598). -/
def execSelfTestAndMap (uncore : Bool) (fails : List Nat) (s : State) : Host.Outcome State Fault Refusal :=
  served s (selfTest s uncore fails)

/-- READY (R644). -/
def execReady (s : State) : Host.Outcome State Fault Refusal := served s (readyStep s)

/-- FUNCTION_RESET_END (R641). -/
def execFunctionResetEnd (s : State) : Host.Outcome State Fault Refusal := served s (functionResetEnd s)

/-! ### Power and thermal loops -/

/-- DVFS_REEVALUATE (R648). -/
def execDvfsReevaluate (s : State) : Host.Outcome State Fault Refusal := groomed s (dvfsReevaluate s)

/-- DVFS_CHANGE_COMPLETE (R649). -/
def execDvfsChangeComplete (s : State) : Host.Outcome State Fault Refusal := groomed s (dvfsComplete s)

/-- POWER_SAMPLE (R650). -/
def execPowerSample (r : Option PmbusSample) (s : State) : Host.Outcome State Fault Refusal :=
  groomed s (if loopsRun s then powerSample s r else s)

/-- THERMAL_SAMPLE (R651). -/
def execThermalSample (temps : List (BitVec 16)) (s : State) : Host.Outcome State Fault Refusal :=
  groomed s (if loopsRun s then thermalSample s temps else s)

/-- THERMTRIP (R652). -/
def execThermtrip (_ : Fin 20) (s : State) : Host.Outcome State Fault Refusal := served s (thermTrip s)

/-- PSTATE_ACTIVE (R655). -/
def execPstateActive (s : State) : Host.Outcome State Fault Refusal :=
  viaHiu .pstateActive (fun s => liveWrite s Reg.pmuPstate fun s => pstateWrite s 0) s

/-- PSTATE_STANDBY (R654). -/
def execPstateStandby (s : State) : Host.Outcome State Fault Refusal :=
  viaHiu .pstateStandby (fun s => liveWrite s Reg.pmuPstate fun s => pstateWrite s 1) s

/-- PSTATE_OFF (R654). -/
def execPstateOff (s : State) : Host.Outcome State Fault Refusal :=
  viaHiu .pstateOff (fun s => liveWrite s Reg.pmuPstate fun s => pstateWrite s 2) s

/-- STANDBY_ENTRY (R655). -/
def execStandbyEntry (s : State) : Host.Outcome State Fault Refusal := served s (standbyEntry s)

/-- STANDBY_EXIT (R655). -/
def execStandbyExit (s : State) : Host.Outcome State Fault Refusal := served s (standbyExit s)

/-- OFF_READY (R656). -/
def execOffReady (s : State) : Host.Outcome State Fault Refusal := served s (offReady s)

/-! ### Health (spec/22_silent_errors_and_reproducibility.md) -/

/-- DRAIN_GRACE_EXPIRY (R607). -/
def execDrainGraceExpiry (s : State) : Host.Outcome State Fault Refusal := clocked s (drainGrace s)

/-- CLUSTER_POWER_OFF (R606). -/
def execClusterPowerOff (c : Fin 16) (s : State) : Host.Outcome State Fault Refusal := clocked s (clusterOff s c.val)

/-- KAT_START (R600). -/
def execKatStart (c : Fin 16) (s : State) : Host.Outcome State Fault Refusal := clocked s (katStart s c.val)

/-- LADDER_SETTLE (R603). -/
def execLadderSettle (c : Fin 16) (s : State) : Host.Outcome State Fault Refusal := clocked s (ladderSettle s c.val)

/-- PERIODIC_SWEEP: KAT_PERIOD hours have passed since the last one (R602). -/
def execPeriodicSweep (s : State) : Host.Outcome State Fault Refusal :=
  clocked s (if rdF s Reg.hltPolicy2 0 8 = 0 then s else katSweep s .periodic)

/-- AGING_MEASUREMENT (R619). -/
def execAgingMeasurement (c : Fin 16) (base f : Nat) (s : State) : Host.Outcome State Fault Refusal :=
  clocked s (agingMeasure s c.val base f)

/-! ### Pins (spec/25_pins.md) -/

/-- PIN_CFG_WRITE (R671). -/
def execPinCfgWrite (k : Fin 64) (v : Word) (s : State) : Host.Outcome State Fault Refusal :=
  viaHiu (.pinCfgWrite k v) (fun s => liveWrite s (Reg.pinCfg k.val) fun s => pinCfgWrite s k.val v) s

/-- PIN_SET (R668). -/
def execPinSet (b : Fin 8) (v : Word) (s : State) : Host.Outcome State Fault Refusal :=
  viaHiu (.pinSet b v) (fun s => liveWrite s (Reg.pinSet b.val) fun s => pinOutWrite s b.val (fun o m => o ||| m) v) s

/-- PIN_CLR (R668). -/
def execPinClr (b : Fin 8) (v : Word) (s : State) : Host.Outcome State Fault Refusal :=
  viaHiu (.pinClr b v) (fun s => liveWrite s (Reg.pinClr b.val) fun s => pinOutWrite s b.val (fun o m => o &&& ~~~ m) v) s

/-- PIN_TGL (R668). -/
def execPinTgl (b : Fin 8) (v : Word) (s : State) : Host.Outcome State Fault Refusal :=
  viaHiu (.pinTgl b v) (fun s => liveWrite s (Reg.pinTgl b.val) fun s => pinOutWrite s b.val (fun o m => o ^^^ m) v) s

/-- PIN_EN_SET (R674). -/
def execPinEnSet (v : Word) (s : State) : Host.Outcome State Fault Refusal :=
  viaHiu (.pinEnSet v) (fun s => liveWrite s Reg.pinEnSet fun s => pinEnWrite s (fun o m => o ||| m) v) s

/-- PIN_EN_CLR (R674). -/
def execPinEnClr (v : Word) (s : State) : Host.Outcome State Fault Refusal :=
  viaHiu (.pinEnClr v) (fun s => liveWrite s Reg.pinEnClr fun s => pinEnWrite s (fun o m => o &&& ~~~ m) v) s

/-- PIN_EN_TGL (R674). -/
def execPinEnTgl (v : Word) (s : State) : Host.Outcome State Fault Refusal :=
  viaHiu (.pinEnTgl v) (fun s => liveWrite s Reg.pinEnTgl fun s => pinEnWrite s (fun o m => o ^^^ m) v) s

/-- PIN_INPUT_CHANGE: what the board drives on a pin's net (R669). -/
def execPinInputChange (k : Fin 64) (v : Option Bool) (s : State) : Host.Outcome State Fault Refusal :=
  aside s (pinSettle (onPins s fun p => { p with ext := setAt p.ext k.val v }))

/-- DEBOUNCE_EXPIRY: a level that was held for PERIOD replaces the one shown (R669). -/
def execDebounceExpiry (k : Fin 64) (s : State) : Host.Outcome State Fault Refusal :=
  served s (if rdF s (Reg.pinCfg k.val) 13 1 = 1 then pinShow s k.val else s)

/-- FSYNC_IN_EDGE (R51). -/
def execFsyncInEdge (s : State) : Host.Outcome State Fault Refusal := clocked s (fsyncEdge s)

/-- LSYNC_IN_EDGE: an active edge of LSYNC_IN is a line event of EXT (R48). -/
def execLsyncInEdge (s : State) : Host.Outcome State Fault Refusal :=
  clocked s (if lsyncPending s then sourceLine (onLtb s fun x => { x with lsyncSeen := !lsyncIdle s }) 8 else s)

/-- I2C_XFER (R676). -/
def execI2cXfer (n : Fin 2) (v : Word) (s : State) : Host.Outcome State Fault Refusal :=
  viaHiu (.i2cXfer n v) (fun s => liveWrite s (Reg.i2cXfer n.val) fun s => i2cStart s n.val v) s

/-- I2C_DONE (R676). -/
def execI2cDone (n : Fin 2) (r : I2cReply) (s : State) : Host.Outcome State Fault Refusal := served s (i2cDone s n.val r)

/-- I2C_TIMEOUT: SCL was held low for more than 25 ms (R676). -/
def execI2cTimeout (n : Fin 2) (bytes : List Byte) (s : State) : Host.Outcome State Fault Refusal :=
  served s (i2cTimeoutEffect s n bytes)

/-- TAP_RESET: IDCODE is selected. -/
def execTapReset (s : State) : Host.Outcome State Fault Refusal := aside s (tapSelect s 2)

/-- IDCODE (R679). -/
def execIdcode (s : State) : Host.Outcome State Fault Refusal :=
  aside s (onPins (tapSelect s 2) fun p => { p with tdo := 0x1006478B })

/-- EXTEST: a scan of the boundary register, which then drives the balls; as BYPASS unless STRAP_1 was 1. -/
def execExtest (shift : BitVec 198) (s : State) : Host.Outcome State Fault Refusal :=
  aside s (extestEffect s shift)

/-- SAMPLE_PRELOAD: the cells are captured, and the boundary register is loaded. -/
def execSamplePreload (shift : BitVec 198) (s : State) : Host.Outcome State Fault Refusal :=
  let c := boundaryCapture s
  aside s (tapSelect (onPins s fun p => { p with tdo := c, boundary := shift }) 1)

/-- CLAMP (R679). -/
def execClamp (s : State) : Host.Outcome State Fault Refusal := aside s (tapSelect s 3)

/-- HIGHZ (R679). -/
def execHighz (s : State) : Host.Outcome State Fault Refusal := aside s (tapSelect s 4)

/-- BYPASS (R679). -/
def execBypass (s : State) : Host.Outcome State Fault Refusal := aside s (tapSelect s 15)

/-! ### Groomer (spec/23_lifetime_and_groomer.md) -/

/-- WAKE_IN: a rising edge of the ball (R614). -/
def execWakeIn (s : State) : Host.Outcome State Fault Refusal := aside s (wake s 2)

/-- CALENDAR_TICK (R615). -/
def execCalendarTick (s : State) : Host.Outcome State Fault Refusal := aside s (calendarTick s)

/-- RECORD_COMMIT (R630). -/
def execRecordCommit (fails : Fin 3) (s : State) : Host.Outcome State Fault Refusal := served s (recordCommit s fails.val)

/-- SNAPSHOT_TIMER: four hours of powered time have passed (R629). -/
def execSnapshotTimer (s : State) : Host.Outcome State Fault Refusal := served s (if fwRunning s then snapshotSet s else s)

/-- A row that answers the requests of one OP. -/
def mailbox (s : State) (op : Nat) (f : State → State) : Host.Outcome State Fault Refusal := served s (takeUp s op f)

/-- GET_VERSION (R627). -/
def execGetVersion (s : State) : Host.Outcome State Fault Refusal :=
  mailbox s 1 getVersionEffect

/-- GET_BOOT (R627). -/
def execGetBoot (s : State) : Host.Outcome State Fault Refusal :=
  mailbox s 2 fun s => reply s 0 (rdF s Reg.grmStatus 2 4 + rdF s Reg.grmStatus 8 4 * 2 ^ 8) [s.grm.jedec % 2 ^ 24]

/-- SET_CALENDAR (R616, R627). -/
def execSetCalendar (s : State) : Host.Outcome State Fault Refusal :=
  mailbox s 3 setCalendarEffect

/-- SET_ALARM (R627). -/
def execSetAlarm (s : State) : Host.Outcome State Fault Refusal :=
  mailbox s 4 setAlarmEffect

/-- READ_COUNTERS (R618, R627). -/
def execReadCounters (s : State) : Host.Outcome State Fault Refusal :=
  mailbox s 5 readCountersEffect

/-- READ_LOG (R627). -/
def execReadLog (s : State) : Host.Outcome State Fault Refusal :=
  mailbox s 6 readLogEffect

/-- REQUEST_KAT (R627, R632). -/
def execRequestKat (s : State) : Host.Outcome State Fault Refusal :=
  mailbox s 7 requestKatEffect

/-- REQUEST_DRAIN (R607, R627). -/
def execRequestDrain (s : State) : Host.Outcome State Fault Refusal :=
  mailbox s 8 fun s => if draining s then reply s 3 0 [] else reply (drainBegin s 4) 0 0 []

/-- WRITE_SNAPSHOT (R627, R629). -/
def execWriteSnapshot (s : State) : Host.Outcome State Fault Refusal :=
  mailbox s 9 writeSnapshotEffect

/-- FW_INSTALL (R633). -/
def execFwInstall (sigOk flashOk : Bool) (s : State) : Host.Outcome State Fault Refusal :=
  mailbox s 10 fun s => fwInstall s sigOk flashOk

/-- MAILBOX_RESPONSE (R632). -/
def execMailboxResponse (s : State) : Host.Outcome State Fault Refusal := served s (mailboxResponse s)

end Sys2Proof.Machine
end

