-- ==== Sys2Proof/Machine/Preempt.lean ====
section
/-!
DEFINITION. PREEMPT_SAVE_COMPLETE (spec/08_heats_and_blocks.md R257): stopped blocks are saved and the candidate that
they made room for is placed, whatever its kind.
-/

namespace Sys2Proof.Machine

/-- The top-ranked candidate of a core is placed when it fits, by the unit whose work it is. -/
def placeAny (s : State) (core : Nat) : State :=
  match placeTop s core with
  | (_, some (_, .grid _ _)) => blockPlace s core
  | (_, some (_, .step _ _)) => startBlock s core
  | (_, some (_, .vertex _ _)) => vertexLaunch s core
  | (_, some (_, .tile _ _)) => tilePlace s core
  | (_, some (_, .restore _ _ _)) => blockRestore s core
  | (s, none) => s

/-- Saves the blocks of a core that were told to stop, once all of them have stopped, and places the candidate. -/
def preemptSave (s : State) (core : Nat) : State :=
  match stoppedBlocks s core with
  | [] => s
  | bs => placeAny (saveBlocks s core bs) core

end Sys2Proof.Machine
end

