-- ==== Sys2Proof/Machine/RowsRender.lean ====
section
/-!
DEFINITION. The rows of geometry, tiles and race rendering: each is the answer to one command.
-/

namespace Sys2Proof.Machine

/-! ### Geometry (spec/13_geometry.md) -/

/-- VERTEX_BATCH_LAUNCH (R387). -/
def execVertexBatchLaunch (core : Fin 64) (s : State) : Host.Outcome State Fault Refusal := clocked s (vertexLaunch s core.val)

/-- VERTEX_BATCH_END (R388). -/
def execVertexBatchEnd (core : Fin 64) (s : State) : Host.Outcome State Fault Refusal := clocked s (vertexEnd s core.val)

/-- RENDER_PASS (R380). -/
def execRenderPass (s : State) : Host.Outcome State Fault Refusal := clocked s (geoTurn s)

/-! ### Setup and binning -/

/-- PRIMITIVE_SETUP (R396). -/
def execPrimitiveSetup (s : State) : Host.Outcome State Fault Refusal := clocked s (primitiveSetup s)

/-- BIN_PRIMITIVE (R410). -/
def execBinPrimitive (s : State) : Host.Outcome State Fault Refusal := clocked s (binPrimitive s)

/-! ### Tessellation -/

/-- PATCH_TESSELLATE (R393). -/
def execPatchTessellate (s : State) : Host.Outcome State Fault Refusal := clocked s (patchTessellate s)

/-! ### Tiles (spec/14_tiles_and_bins.md) -/

/-- TILE_JOB_PLACE (R416). -/
def execTileJobPlace (core : Fin 64) (s : State) : Host.Outcome State Fault Refusal := clocked s (tileJobPlace s core.val)

/-- FRAGMENT_HEAT_LAUNCH (R421). -/
def execFragmentHeatLaunch (core : Fin 64) (s : State) : Host.Outcome State Fault Refusal := clocked s (fragmentLaunch s core.val)

/-- FRAGMENT_HEAT_END (R423). -/
def execFragmentHeatEnd (core : Fin 64) (s : State) : Host.Outcome State Fault Refusal := clocked s (fragmentEnd s core.val)

/-- TILE_STORE (R417). -/
def execTileStore (core : Fin 64) (s : State) : Host.Outcome State Fault Refusal := clocked s (tileStore s core.val)

/-- TILE_JOB_END (R417). -/
def execTileJobEnd (core : Fin 64) (s : State) : Host.Outcome State Fault Refusal := clocked s (tileJobEnd s core.val)

/-! ### Race rendering (spec/15_race_rendering.md) -/

/-- SRING_ENABLE: a write of SRING_n_CFG with ENABLE 1 (R437). -/
def execSringEnable (ring : Fin 16) (v : Word) (s : State) : Host.Outcome State Fault Refusal :=
  viaHiu (.sringEnable ring v) (fun s => liveWrite s (Reg.sringCfg ring.val) fun s => sringCfgWrite s ring.val (v ||| 1)) s

/-- SRING_DISABLE: a write of SRING_n_CFG with ENABLE 0 (R438). -/
def execSringDisable (ring : Fin 16) (v : Word) (s : State) : Host.Outcome State Fault Refusal :=
  viaHiu (.sringDisable ring v) (fun s => liveWrite s (Reg.sringCfg ring.val) fun s => sringCfgWrite s ring.val (v &&& ~~~ 1)) s

/-- STRIP_DEADLINE of a ring (R443). -/
def execStripDeadline (ring : Fin 16) (s : State) : Host.Outcome State Fault Refusal :=
  clocked s (ringSettle (stripDeadlines s ring.val) ring.val)

/-! ### Preemption -/

/-- PREEMPT_SAVE_COMPLETE (R257). -/
def execPreemptSaveComplete (core : Fin 64) (s : State) : Host.Outcome State Fault Refusal := clocked s (preemptSave s core.val)

end Sys2Proof.Machine
end

