-- ==== Sys2Proof/Machine/RowsTime.lean ====
section
/-!
DEFINITION. The rows of line time: each is the answer to one command.
-/

namespace Sys2Proof.Machine

/-! ### LTB (spec/02_line_time.md) -/

/-- LINE_EVENT: a real line event of source src (R48, R52); of EXT_F there is none. -/
def execLineEvent (src : Fin 11) (s : State) : Host.Outcome State Fault Refusal :=
  clocked s (if src.val = 9 then s else sourceLine s src.val)

/-- SYNTHESISED_LINE_EVENT of LT, or of one source position (R50, R57). -/
def execSynthesisedLineEvent (pos : Option (Fin 11)) (s : State) : Host.Outcome State Fault Refusal :=
  match pos with
  | none => clocked s (ltSynthLine s)
  | some k => clocked s (posSynthLine s k)

/-- SOURCE_LOST (R78, R79). -/
def execSourceLost (s : State) : Host.Outcome State Fault Refusal := clocked s (if ltbLossDue s then ltbLose s else s)

/-- SOURCE_RECOVERED (R80). -/
def execSourceRecovered (s : State) : Host.Outcome State Fault Refusal := clocked s (ltbRecover s)

/-- LTB_SRC_WRITE (R75). -/
def execLtbSrcWrite (v : Word) (s : State) : Host.Outcome State Fault Refusal :=
  viaHiu (.ltbSrcWrite v) (fun s => liveWrite s Reg.ltbSrc fun s => ltbSrcWrite s v) s

/-- LTB_ENABLE (R712). -/
def execLtbEnable (v : Word) (s : State) : Host.Outcome State Fault Refusal :=
  viaHiu (.ltbEnable v) (fun s => liveWrite s Reg.ltbCtrl fun s => ltbEnableWrite s v) s

/-- LSYNC_OUT_END: LS_WIDTH REF periods after the line start (R77). -/
def execLsyncOutEnd (s : State) : Host.Outcome State Fault Refusal :=
  clocked s (lsyncOutEndEffect s)

/-- FSYNC_OUT_END: FS_WIDTH lines after the frame start (R77). -/
def execFsyncOutEnd (s : State) : Host.Outcome State Fault Refusal :=
  clocked s (fsyncOutEndEffect s)

/-- LOSS_TOLERANCE_EXPIRY (R78, R80). -/
def execLossToleranceExpiry (s : State) : Host.Outcome State Fault Refusal := clocked s (ltbToleranceExpiry s)

end Sys2Proof.Machine
end

