-- ==== Sys2Proof/Machine/RowsTwin.lean ====
section
/-!
DEFINITION. The rows of the twin pair and the Virzel fabric: each is the answer to one command.
-/

namespace Sys2Proof.Machine

/-! ### Twin pair (spec/20_twin_pair.md) -/

/-- A row that applies the records of one kind. -/
def withRec (s : State) (kind : Nat) (f : State → List DWord → State) : Host.Outcome State Fault Refusal :=
  clocked s (recApply s kind f)

/-- HELLO (R531). -/
def execHello (s : State) : Host.Outcome State Fault Refusal := withRec s 1 helloArrive

/-- HELLO_RESEND: while no HELLO has been received (R531). -/
def execHelloResend (s : State) : Host.Outcome State Fault Refusal :=
  clocked s (if portActive s 0 && !bit (rd0 s Reg.hltTwinStatus) 5 then vzlPump (sendHello s) else s)

/-- HLT_TWIN_ENABLE: a write of HLT_TWIN_CTRL (R531). -/
def execHltTwinEnable (v : Word) (s : State) : Host.Outcome State Fault Refusal :=
  viaHiu (.hltTwinEnable v) (fun s => liveWrite s Reg.hltTwinCtrl fun s => twinCtrlWrite s v) s

/-- RESUME (R555). -/
def execResume (v : Word) (s : State) : Host.Outcome State Fault Refusal :=
  viaHiu (.resume v) (fun s => liveWrite s Reg.hltTwinCmd fun s => twinResume s v) s

/-- WRITE (R537). -/
def execWrite (s : State) : Host.Outcome State Fault Refusal := withRec s 3 writeArrive

/-- SYNC (R537). -/
def execSync (s : State) : Host.Outcome State Fault Refusal := withRec s 4 syncArrive

/-- DESC (R538). -/
def execDesc (s : State) : Host.Outcome State Fault Refusal :=
  clocked s (descEffect s)

/-- LOSS (R542). -/
def execLoss (s : State) : Host.Outcome State Fault Refusal := withRec s 9 lossArrive

/-- LT (R543). -/
def execLt (s : State) : Host.Outcome State Fault Refusal := withRec s 5 ltArrive

/-- TWIN_LT_EVENT (R543). -/
def execTwinLtEvent (s : State) : Host.Outcome State Fault Refusal := clocked s (twinLtEvent s)

/-- TGSYNC (R544). -/
def execTgsync (skew : BitVec 16) (s : State) : Host.Outcome State Fault Refusal := withRec s 6 (tgsyncArrive skew)

/-- ECHO_REQUEST (R552). -/
def execEchoRequest (s : State) : Host.Outcome State Fault Refusal := clocked s (vzlPump (echoRequest s))

/-- ECHO (R552). -/
def execEcho (trip : Nat) (s : State) : Host.Outcome State Fault Refusal := withRec s 10 (echoArrive trip)

/-- STRIP (R558). -/
def execStrip (s : State) : Host.Outcome State Fault Refusal := withRec s 11 stripArrive

/-- KAT_END (R599, R602). -/
def execKatEnd (c : Fin 16) (pass : Bool) (s : State) : Host.Outcome State Fault Refusal :=
  clocked s (vzlPump (exchangeTested (katEnd s c.val pass)))

/-- CHECKPOINT (R545). -/
def execCheckpoint (s : State) : Host.Outcome State Fault Refusal :=
  clocked s (checkpointEffect s)

/-- CKPT (R545). -/
def execCkpt (s : State) : Host.Outcome State Fault Refusal := withRec s 7 ckptArrive

/-- VERDICT (R549). -/
def execVerdict (s : State) : Host.Outcome State Fault Refusal := withRec s 8 verdictArrive

/-- REPEAT_END (R547). -/
def execRepeatEnd (ring : Fin 64) (s : State) : Host.Outcome State Fault Refusal := clocked s (vzlPump (repeatEnd s ring.val))

/-- CHECKER_TIMEOUT (R551). -/
def execCheckerTimeout (ring : Fin 64) (s : State) : Host.Outcome State Fault Refusal :=
  clocked s (vzlPump (checkerTimeout s ring.val))

/-! ### Virzel link layer (spec/21_virzel_fabric.md) -/

/-- DATA_FLIT (R574). -/
def execDataFlit (p : Fin 4) (num : BitVec 10) (x : RxSlot) (s : State) : Host.Outcome State Fault Refusal :=
  clocked s (vzlPump (rxData s p.val num.toNat x.gap x.wire))

/-- LINK_FLIT (R566). -/
def execLinkFlit (p : Fin 4) (gap : Nat) (wire : BitVec 256) (s : State) : Host.Outcome State Fault Refusal :=
  clocked s (vzlPump (rxLink s p.val gap wire))

/-- NULL_FLIT (R574). -/
def execNullFlit (p : Fin 4) (x : RxSlot) (s : State) : Host.Outcome State Fault Refusal :=
  clocked s (vzlPump (rxNull s p.val x.gap x.wire))

/-- LINK_FLIT_SEND (R578). -/
def execLinkFlitSend (p : Fin 4) (gap : Nat) (s : State) : Host.Outcome State Fault Refusal :=
  clocked s (linkSend s p.val gap)

/-- NAK_REPEAT (R574). -/
def execNakRepeat (p : Fin 4) (s : State) : Host.Outcome State Fault Refusal :=
  clocked s (if portActive s p.val && (vzlPort s p.val).nak then onPort s p.val fun x => { x with sayNak := true } else s)

/-- REPLAY_TIMEOUT (R574). -/
def execReplayTimeout (p : Fin 4) (s : State) : Host.Outcome State Fault Refusal :=
  clocked s (if portActive s p.val then resend s p.val else s)

/-- LANE_LOCK_LOSS (R575). -/
def execLaneLockLoss (p : Fin 4) (s : State) : Host.Outcome State Fault Refusal := clocked s (portRetrain s p.val)

/-- TRAINING_ADVANCE (R571). -/
def execTrainingAdvance (p : Fin 4) (e : TrainEvent) (s : State) : Host.Outcome State Fault Refusal :=
  clocked s (vzlPump (trainAdvance s p.val e))

/-- TRAINING_TIMEOUT (R571). -/
def execTrainingTimeout (p : Fin 4) (s : State) : Host.Outcome State Fault Refusal :=
  clocked s (trainingTimeoutEffect s p)

/-- VZL_RETRAIN: a write of VZL_p_CTRL with RETRAIN 1 (R575). -/
def execVzlRetrain (p : Fin 4) (v : Word) (s : State) : Host.Outcome State Fault Refusal :=
  viaHiu (.vzlRetrain p v)
    (fun s => liveWrite s (Reg.vzlportCtrl p.val) fun s => portCtrlWrite s p.val (v ||| 1)) s

/-! ### Virzel fabric -/

/-- PACKET_FORWARD (R579). -/
def execPacketForward (s : State) : Host.Outcome State Fault Refusal := clocked s (packetForward s)

/-- VZL_READ (R583). -/
def execVzlRead (s : State) : Host.Outcome State Fault Refusal := clocked s (serve s 1 serveRead)

/-- VZL_WRITE (R583). -/
def execVzlWrite (s : State) : Host.Outcome State Fault Refusal := clocked s (serve s 2 serveWrite)

/-- VZL_ATOMIC (R583). -/
def execVzlAtomic (s : State) : Host.Outcome State Fault Refusal := clocked s (serve s 3 serveAtomic)

/-- VZL_SIGNAL (R583). -/
def execVzlSignal (s : State) : Host.Outcome State Fault Refusal := clocked s (serveSignals s)

/-- RESP (R581). -/
def execResp (s : State) : Host.Outcome State Fault Refusal := clocked s (takeResponse s)

/-- VZL_REQUEST_TIMEOUT (R581). -/
def execVzlRequestTimeout (tag : Fin 1024) (s : State) : Host.Outcome State Fault Refusal := clocked s (requestTimeout s tag.val)

end Sys2Proof.Machine
end

