-- ==== Sys2Proof/Machine/RowsBar0.lean ====
section
/-!
DEFINITION. The rows of BAR0, the SPI target and the requests that waited: each is the answer to one command.
-/

namespace Sys2Proof.Machine

/-! ### BAR0 -/

/-- REGISTER_WRITE (R14 to R21, R42, R43, R91). -/
def execRegisterWrite (off : BitVec 25) (dws : List (BitVec 4 × Word)) (same : Bool) (s : State) :
    Host.Outcome State Fault Refusal :=
  let i : Instr := .registerWrite off dws same
  viaHiu i (ifPayloadFits i fun s => registerWrite s (dwordOff off) dws same) s

/-- BROADCAST_WRITE: an offset of the CLU broadcast range (R39). -/
def execBroadcastWrite (off : BitVec 20) (be : BitVec 4) (data : Word) (s : State) : Host.Outcome State Fault Refusal :=
  viaHiu (.broadcastWrite off be data) (fun s => bar0Write s (0xA00000 + off.toNat / 4 * 4) be.toNat data) s

/-- PAIR_LOW_WRITE: staged on the host's path; the SPI target takes no writes (R19, R20). -/
def execPairLowWrite (path : Path) (off : BitVec 25) (be : BitVec 4) (data : Word) (s : State) :
    Host.Outcome State Fault Refusal :=
  match path with
  | .host => viaHiu (.pairLowWrite .host off be data) (fun s => bar0Write s (dwordOff off) be.toNat data) s
  | .spit => .next s

/-- PAIR_HIGH_WRITE: both halves are stored together (R19, R20). -/
def execPairHighWrite (path : Path) (off : BitVec 25) (be : BitVec 4) (data : Word) (s : State) :
    Host.Outcome State Fault Refusal :=
  match path with
  | .host => viaHiu (.pairHighWrite .host off be data) (fun s => bar0Write s (dwordOff off) be.toNat data) s
  | .spit => .next s

/-- A read in HIU order, under the BAR4 base of its receipt. -/
def barReadVia (base : Nat) (space : Fin 3) (r : ReadTlp) (s : State) : Host.Outcome State Fault Refusal :=
  viaHiuAt base (.notReadyRead space r) (fun s => barRead s base space.val r.off.toNat r.bes) s

/-- NOT_READY_READ (R18, R43, R91, R103). -/
def execNotReadyRead (space : Fin 3) (r : ReadTlp) (s : State) : Host.Outcome State Fault Refusal :=
  barReadVia (bar4Base s) space r s

/-- SPIT_READ (R677). -/
def execSpitRead (a : BitVec 24) (words : Nat) (s : State) : Host.Outcome State Fault Refusal :=
  clocked s (if spitOn s then spitSent (spitRead s (a.toNat / 4 * 4) words) else s)

/-- SPIT_OTHER_COMMAND: zeros until the frame ends (R677); command 0x0B is SPIT_READ's. -/
def execSpitOtherCommand (cmd : Byte) (bytes : Nat) (s : State) : Host.Outcome State Fault Refusal :=
  clocked s (if spitOn s ∧ cmd ≠ 0x0B then spitSent (s, List.replicate bytes 0) else s)

/-- PAIR_LOW_READ: the pair is captured on its path (R20); of the pairs, the SPI target reads AON_CAL. -/
def execPairLowRead (path : Path) (r : DwordRead) (s : State) : Host.Outcome State Fault Refusal :=
  match path with
  | .host => viaHiu (.pairLowRead .host r) (fun s => bar0Read s (dwordOff r.off) r.be) s
  | .spit => clocked s (if spitOn s ∧ dwordOff r.off = Reg.aonCalLo then spitSent (spitRead s 0x024 1) else s)

/-- PAIR_HIGH_READ: the captured high half, else the live one (R19, R20). -/
def execPairHighRead (path : Path) (r : DwordRead) (s : State) : Host.Outcome State Fault Refusal :=
  match path with
  | .host => viaHiu (.pairHighRead .host r) (fun s => bar0Read s (dwordOff r.off) r.be) s
  | .spit => clocked s (if spitOn s ∧ dwordOff r.off = Reg.aonCalHi then spitSent (spitRead s 0x028 1) else s)

/-- The effect of a host request that waited in the posted buffer, received under a BAR4 base. -/
def postedExec (i : Instr) (base : Nat) (s : State) : Host.Outcome State Fault Refusal :=
  match i with
  | .registerWrite off dws _ => execRegisterWrite off dws false s
  | .pairLowRead p r => execPairLowRead p r s
  | .pairHighRead p r => execPairHighRead p r s
  | .pairLowWrite p off be v => execPairLowWrite p off be v s
  | .pairHighWrite p off be v => execPairHighWrite p off be v s
  | .broadcastWrite off be v => execBroadcastWrite off be v s
  | .notReadyRead sp r => barReadVia base sp r s
  | .configurationRequest r => execConfigurationRequest r s
  | .resizableBar k => execResizableBar k s
  | .bar4Write off bs => bar4WriteVia base off bs s
  | .bar4Read off n => bar4ReadVia base off n s
  | .poisonedWrite sp off tlp => execPoisonedWrite sp off tlp s
  | .msixUnmask w => execMsixUnmask w s
  | .hiuIrqAck k v => execHiuIrqAck k v s
  | .hiuSwint v => execHiuSwint v s
  | .ltbSrcWrite v => execLtbSrcWrite v s
  | .ltbEnable v => execLtbEnable v s
  | .sqDoorbell n dw dws => execSqDoorbell n dw dws s
  | .cqRelease n be v => execCqRelease n be v s
  | .ringEnable n v => execRingEnable n v s
  | .ringDisable n v => execRingDisable n v s
  | .ctx0Load v => execCtx0Load v s
  | .syncInit v => execSyncInit v s
  | .mmuInv v => execMmuInv v s
  | .l2cSetway v => execL2cSetway v s
  | .dspPlaneMap k v => execDspPlaneMap k v s
  | .dspScalerMap v => execDspScalerMap v s
  | .tgEnable m v => execTgEnable m v s
  | .tgDisable m v => execTgDisable m v s
  | .sringEnable n v => execSringEnable n v s
  | .sringDisable n v => execSringDisable n v s
  | .csiEnable n v => execCsiEnable n v s
  | .csiDisable n v => execCsiDisable n v s
  | .hltTwinEnable v => execHltTwinEnable v s
  | .resume v => execResume v s
  | .vzlRetrain p v => execVzlRetrain p v s
  | .pstateActive => execPstateActive s
  | .pstateStandby => execPstateStandby s
  | .pstateOff => execPstateOff s
  | .pinCfgWrite k v => execPinCfgWrite k v s
  | .pinSet b v => execPinSet b v s
  | .pinClr b v => execPinClr b v s
  | .pinTgl b v => execPinTgl b v s
  | .pinEnSet v => execPinEnSet v s
  | .pinEnClr v => execPinEnClr v s
  | .pinEnTgl v => execPinEnTgl v s
  | .i2cXfer n v => execI2cXfer n v s
  | _ => .next s

/-- One waiting request in its turn: a BAR4 write that still does not fit waits again, and what follows waits behind it. -/
def postedNext (s : State) (r : Instr × Nat) : State :=
  match postedExec r.1 r.2 s with
  | .next s' => { s' with cycleSets := s.cycleSets ++ s'.cycleSets }
  | _ => s

/-- The sources that wait proceed: sync changes while they fit, then the posted requests in order, and those that the host
held back as credits return (R94). -/
def throttleRelease (s : State) : State :=
  let s := syncDrain (s.ctx.syncQ.length + 1) s
  let s' := s.hiu.posted.foldl postedNext (onHiu s fun h => { h with posted := [], unsent := [] })
  s.hiu.unsent.foldl (fun s i => postedNext s (i, bar4Base s)) s'

/-- MIRROR_THROTTLE_RELEASE (R540). -/
def execMirrorThrottleRelease (s : State) : Host.Outcome State Fault Refusal := clocked s (throttleRelease s)

end Sys2Proof.Machine
end

