-- ==== Sys2Proof/Machine/RowsCfe.lean ====
section
/-!
DEFINITION. The rows of the command front end and the compressors: each is the answer to one command.
-/

namespace Sys2Proof.Machine

/-! ### Fetch (spec/04_uhlulo_protocol.md) -/

/-- CHAIN: the chain of the lowest ring that has one pending becomes active (R135). -/
def execChain (s : State) : Host.Outcome State Fault Refusal :=
  clocked s (chainEffect s)

/-- DESCRIPTOR_FETCH (R128). -/
def execDescriptorFetch (s : State) : Host.Outcome State Fault Refusal := clocked s (fetchStep s)

/-! ### Dispatch and retirement -/

/-- CFE_DISPATCH (R131). -/
def execCfeDispatch (s : State) : Host.Outcome State Fault Refusal := clocked s (dispatchStep s)

/-- NOP: it retires (R119). -/
def execNop (s : State) : Host.Outcome State Fault Refusal :=
  clocked s (cfeNext s 1 fun d s => retireDesc (unitDone s d.id 0) d.id)

/-- SIGNAL (R155). -/
def execSignal (s : State) : Host.Outcome State Fault Refusal := clocked s (cfeNext s 2 signalDesc)

/-- TIMESTAMP (R121). -/
def execTimestamp (s : State) : Host.Outcome State Fault Refusal := clocked s (cfeNext s 4 timestampDesc)

/-- RETIREMENT (R132). -/
def execRetirement (s : State) : Host.Outcome State Fault Refusal := clocked s (retireStep s)

/-- CANCEL_STOP: a cancelled descriptor stops after so many of its units (R165, R714). -/
def execCancelStop (ring : Fin 64) (seq : Word) (units : Nat) (s : State) : Host.Outcome State Fault Refusal :=
  clocked s (cancelStop s (descNamed s ring seq) units)

/-- WATCHDOG (R153). -/
def execWatchdog (ring : Fin 64) (seq : Word) (s : State) : Host.Outcome State Fault Refusal :=
  clocked s (watchdogCheck s (descNamed s ring seq))

/-! ### Compressors (spec/18_compression.md) -/

/-- PACK (R509). -/
def execPack (s : State) : Host.Outcome State Fault Refusal := clocked s (cmpTake s 0x0C)

/-- UNPACK (R509). -/
def execUnpack (s : State) : Host.Outcome State Fault Refusal := clocked s (cmpTake s 0x0D)

/-- CMP_PACK_BLOCK (R504). -/
def execCmpPackBlock (inst : Fin 2) (s : State) : Host.Outcome State Fault Refusal := clocked s (cmpBlock s inst.val true)

/-- CMP_UNPACK_BLOCK (R506). -/
def execCmpUnpackBlock (inst : Fin 2) (s : State) : Host.Outcome State Fault Refusal := clocked s (cmpBlock s inst.val false)

end Sys2Proof.Machine
end

