-- ==== Sys2Proof/Machine/RowsKamir.lean ====
section
/-!
DEFINITION. The rows of the cores: one row for each instruction, the tensor unit and the texture unit: each is the answer to one command.
-/

namespace Sys2Proof.Machine

/-! ### Instructions -/

/-- A row that issues the instructions of one opcode. -/
def kamir (op : Nat) (f : KEnv → KEnv) (core : Fin 64) (age : Nat) (s : State) : Host.Outcome State Fault Refusal :=
  clocked s (kamirStep op f core.val age s)

/-! ### Control, divergence and scalar instructions (spec/10_kamir_semantics.md) -/

/-- NOP (R272). -/
def execNopInstruction (core : Fin 64) (heat : Nat) (s : State) : Host.Outcome State Fault Refusal := kamir 0x00 kNop core heat s

/-- BRA (R309). -/
def execBra (core : Fin 64) (heat : Nat) (s : State) : Host.Outcome State Fault Refusal := kamir 0x01 kBra core heat s

/-- BRX (R309). -/
def execBrx (core : Fin 64) (heat : Nat) (s : State) : Host.Outcome State Fault Refusal := kamir 0x02 kBrx core heat s

/-- CALL (R309). -/
def execCall (core : Fin 64) (heat : Nat) (s : State) : Host.Outcome State Fault Refusal := kamir 0x03 kCall core heat s

/-- RET (R309). -/
def execRet (core : Fin 64) (heat : Nat) (s : State) : Host.Outcome State Fault Refusal := kamir 0x04 kRet core heat s

/-- EXIT (R310). -/
def execExit (core : Fin 64) (heat : Nat) (s : State) : Host.Outcome State Fault Refusal := kamir 0x05 kExit core heat s

/-- BAR (R253). -/
def execBar (core : Fin 64) (heat : Nat) (s : State) : Host.Outcome State Fault Refusal := kamir 0x06 kBar core heat s

/-- DPUSH (R250). -/
def execDpush (core : Fin 64) (heat : Nat) (s : State) : Host.Outcome State Fault Refusal := kamir 0x08 kDpush core heat s

/-- DSPLIT (R250). -/
def execDsplit (core : Fin 64) (heat : Nat) (s : State) : Host.Outcome State Fault Refusal := kamir 0x09 kDsplit core heat s

/-- DNEXT (R250). -/
def execDnext (core : Fin 64) (heat : Nat) (s : State) : Host.Outcome State Fault Refusal := kamir 0x0A kDnext core heat s

/-- DMASK (R250). -/
def execDmask (core : Fin 64) (heat : Nat) (s : State) : Host.Outcome State Fault Refusal := kamir 0x0B kDmask core heat s

/-- DSPILL (R250). -/
def execDspill (core : Fin 64) (heat : Nat) (s : State) : Host.Outcome State Fault Refusal := kamir 0x0C kDspill core heat s

/-- DFILL (R250). -/
def execDfill (core : Fin 64) (heat : Nat) (s : State) : Host.Outcome State Fault Refusal := kamir 0x0D kDfill core heat s

/-- SADD (R288). -/
def execSadd (core : Fin 64) (heat : Nat) (s : State) : Host.Outcome State Fault Refusal := kamir 0x20 (kScalar (fun a b => a + b)) core heat s

/-- SSUB (R288). -/
def execSsub (core : Fin 64) (heat : Nat) (s : State) : Host.Outcome State Fault Refusal := kamir 0x21 (kScalar (fun a b => a - b)) core heat s

/-- SMUL (R288). -/
def execSmul (core : Fin 64) (heat : Nat) (s : State) : Host.Outcome State Fault Refusal := kamir 0x22 (kScalar (fun a b => a * b)) core heat s

/-- SAND (R296). -/
def execSand (core : Fin 64) (heat : Nat) (s : State) : Host.Outcome State Fault Refusal := kamir 0x23 (kScalar (fun a b => a &&& b)) core heat s

/-- SOR (R296). -/
def execSor (core : Fin 64) (heat : Nat) (s : State) : Host.Outcome State Fault Refusal := kamir 0x24 (kScalar (fun a b => a ||| b)) core heat s

/-- SXOR (R296). -/
def execSxor (core : Fin 64) (heat : Nat) (s : State) : Host.Outcome State Fault Refusal := kamir 0x25 (kScalar (fun a b => a ^^^ b)) core heat s

/-- SSHL (R288). -/
def execSshl (core : Fin 64) (heat : Nat) (s : State) : Host.Outcome State Fault Refusal := kamir 0x26 (kScalar shl32) core heat s

/-- SSHR (R288). -/
def execSshr (core : Fin 64) (heat : Nat) (s : State) : Host.Outcome State Fault Refusal := kamir 0x27 (kScalar shr32) core heat s

/-- SSRA (R288). -/
def execSsra (core : Fin 64) (heat : Nat) (s : State) : Host.Outcome State Fault Refusal := kamir 0x28 (kScalar sra32) core heat s

/-- SMIN (R296). -/
def execSmin (core : Fin 64) (heat : Nat) (s : State) : Host.Outcome State Fault Refusal := kamir 0x29 (kScalar smin32) core heat s

/-- SMAX (R296). -/
def execSmax (core : Fin 64) (heat : Nat) (s : State) : Host.Outcome State Fault Refusal := kamir 0x2A (kScalar smax32) core heat s

/-- SMINU (R296). -/
def execSminu (core : Fin 64) (heat : Nat) (s : State) : Host.Outcome State Fault Refusal := kamir 0x2B (kScalar umin32) core heat s

/-- SMAXU (R296). -/
def execSmaxu (core : Fin 64) (heat : Nat) (s : State) : Host.Outcome State Fault Refusal := kamir 0x2C (kScalar umax32) core heat s

/-- SMOV (R296). -/
def execSmov (core : Fin 64) (heat : Nat) (s : State) : Host.Outcome State Fault Refusal := kamir 0x2D (kScalar (fun _ b => b)) core heat s

/-- SADD64 (R288). -/
def execSadd64 (core : Fin 64) (heat : Nat) (s : State) : Host.Outcome State Fault Refusal := kamir 0x2E kSadd64 core heat s

/-- SMOVS (R270). -/
def execSmovs (core : Fin 64) (heat : Nat) (s : State) : Host.Outcome State Fault Refusal := kamir 0x30 kSmovs core heat s

/-- PAND (R296). -/
def execPand (core : Fin 64) (heat : Nat) (s : State) : Host.Outcome State Fault Refusal := kamir 0x32 (kPred (fun a b => a &&& b)) core heat s

/-- POR (R296). -/
def execPor (core : Fin 64) (heat : Nat) (s : State) : Host.Outcome State Fault Refusal := kamir 0x33 (kPred (fun a b => a ||| b)) core heat s

/-- PXOR (R296). -/
def execPxor (core : Fin 64) (heat : Nat) (s : State) : Host.Outcome State Fault Refusal := kamir 0x34 (kPred (fun a b => a ^^^ b)) core heat s

/-- PNOT (R296). -/
def execPnot (core : Fin 64) (heat : Nat) (s : State) : Host.Outcome State Fault Refusal := kamir 0x35 (kPred (fun a _ => ~~~a)) core heat s

/-- SMOVP (R296). -/
def execSmovp (core : Fin 64) (heat : Nat) (s : State) : Host.Outcome State Fault Refusal := kamir 0x36 kSmovp core heat s

/-- PMOVS (R296). -/
def execPmovs (core : Fin 64) (heat : Nat) (s : State) : Host.Outcome State Fault Refusal := kamir 0x37 kPmovs core heat s

/-- ICACHE_FILL (R328, R332). -/
def execIcacheFill (core : Fin 64) (heat : Nat) (s : State) : Host.Outcome State Fault Refusal := clocked s (icacheFill s core.val heat)

/-- ILLEGAL_INSTRUCTION (R285). -/
def execIllegalInstruction (core : Fin 64) (heat : Nat) (s : State) : Host.Outcome State Fault Refusal :=
  clocked s (illegalNext s core.val heat)

/-! ### Vector instructions -/

/-- FADD (R289). -/
def execFadd (core : Fin 64) (heat : Nat) (s : State) : Host.Outcome State Fault Refusal := kamir 0x40 (fun e => kVec2 (fAdd (kRnd e)) e) core heat s

/-- FMUL (R289). -/
def execFmul (core : Fin 64) (heat : Nat) (s : State) : Host.Outcome State Fault Refusal := kamir 0x41 (fun e => kVec2 (fMul (kRnd e)) e) core heat s

/-- FFMA (R290). -/
def execFfma (core : Fin 64) (heat : Nat) (s : State) : Host.Outcome State Fault Refusal := kamir 0x42 (fun e => kVec3 (fFma (kRnd e)) e) core heat s

/-- FMIN (R290). -/
def execFmin (core : Fin 64) (heat : Nat) (s : State) : Host.Outcome State Fault Refusal := kamir 0x43 (kVec2 fMin) core heat s

/-- FMAX (R290). -/
def execFmax (core : Fin 64) (heat : Nat) (s : State) : Host.Outcome State Fault Refusal := kamir 0x44 (kVec2 fMax) core heat s

/-- FSUB (R290). -/
def execFsub (core : Fin 64) (heat : Nat) (s : State) : Host.Outcome State Fault Refusal := kamir 0x45 (fun e => kVec2 (fSub (kRnd e)) e) core heat s

/-- FRND (R290). -/
def execFrnd (core : Fin 64) (heat : Nat) (s : State) : Host.Outcome State Fault Refusal := kamir 0x46 (fun e => kVec1 (fRnd (kRnd e)) e) core heat s

/-- IADD (R288). -/
def execIadd (core : Fin 64) (heat : Nat) (s : State) : Host.Outcome State Fault Refusal := kamir 0x50 (kVec2 fun a b => a + b) core heat s

/-- ISUB (R288). -/
def execIsub (core : Fin 64) (heat : Nat) (s : State) : Host.Outcome State Fault Refusal := kamir 0x51 (kVec2 fun a b => a - b) core heat s

/-- IMUL (R288). -/
def execImul (core : Fin 64) (heat : Nat) (s : State) : Host.Outcome State Fault Refusal := kamir 0x52 (kVec2 fun a b => a * b) core heat s

/-- IMULH (R288). -/
def execImulh (core : Fin 64) (heat : Nat) (s : State) : Host.Outcome State Fault Refusal := kamir 0x53 (fun e => kVec2 (mulHigh (kBit62 e)) e) core heat s

/-- IMAD (R288). -/
def execImad (core : Fin 64) (heat : Nat) (s : State) : Host.Outcome State Fault Refusal := kamir 0x54 (kVec3 fun a b c => a * b + c) core heat s

/-- AND (R288). -/
def execAnd (core : Fin 64) (heat : Nat) (s : State) : Host.Outcome State Fault Refusal := kamir 0x55 (kVec2 fun a b => a &&& b) core heat s

/-- OR (R288). -/
def execOr (core : Fin 64) (heat : Nat) (s : State) : Host.Outcome State Fault Refusal := kamir 0x56 (kVec2 fun a b => a ||| b) core heat s

/-- XOR (R288). -/
def execXor (core : Fin 64) (heat : Nat) (s : State) : Host.Outcome State Fault Refusal := kamir 0x57 (kVec2 fun a b => a ^^^ b) core heat s

/-- SHL (R288). -/
def execShl (core : Fin 64) (heat : Nat) (s : State) : Host.Outcome State Fault Refusal := kamir 0x58 (kVec2 shl32) core heat s

/-- SHR (R288). -/
def execShr (core : Fin 64) (heat : Nat) (s : State) : Host.Outcome State Fault Refusal := kamir 0x59 (kVec2 shr32) core heat s

/-- SRA (R288). -/
def execSra (core : Fin 64) (heat : Nat) (s : State) : Host.Outcome State Fault Refusal := kamir 0x5A (kVec2 sra32) core heat s

/-- IMIN (R288). -/
def execImin (core : Fin 64) (heat : Nat) (s : State) : Host.Outcome State Fault Refusal := kamir 0x5B (fun e => kVec2 (if kBit62 e then smin32 else umin32) e) core heat s

/-- IMAX (R288). -/
def execImax (core : Fin 64) (heat : Nat) (s : State) : Host.Outcome State Fault Refusal := kamir 0x5C (fun e => kVec2 (if kBit62 e then smax32 else umax32) e) core heat s

/-- POPC (R288). -/
def execPopc (core : Fin 64) (heat : Nat) (s : State) : Host.Outcome State Fault Refusal := kamir 0x5D (kVec1 popc32) core heat s

/-- CLZ (R288). -/
def execClz (core : Fin 64) (heat : Nat) (s : State) : Host.Outcome State Fault Refusal := kamir 0x5E (kVec1 clz32) core heat s

/-- BREV (R288). -/
def execBrev (core : Fin 64) (heat : Nat) (s : State) : Host.Outcome State Fault Refusal := kamir 0x5F (kVec1 brev32) core heat s

/-- MOV (R286). -/
def execMov (core : Fin 64) (heat : Nat) (s : State) : Host.Outcome State Fault Refusal := kamir 0x60 (kVec1 fun a => a) core heat s

/-- SEL (R294). -/
def execSel (core : Fin 64) (heat : Nat) (s : State) : Host.Outcome State Fault Refusal := kamir 0x61 kSel core heat s

/-- F2I (R291). -/
def execF2i (core : Fin 64) (heat : Nat) (s : State) : Host.Outcome State Fault Refusal := kamir 0x68 (fun e => kVec1 (f2i (kRnd e)) e) core heat s

/-- F2U (R291). -/
def execF2u (core : Fin 64) (heat : Nat) (s : State) : Host.Outcome State Fault Refusal := kamir 0x69 (fun e => kVec1 (f2u (kRnd e)) e) core heat s

/-- I2F (R291). -/
def execI2f (core : Fin 64) (heat : Nat) (s : State) : Host.Outcome State Fault Refusal := kamir 0x6A (fun e => kVec1 (fun a => intToF (kRnd e) a.toInt) e) core heat s

/-- U2F (R291). -/
def execU2f (core : Fin 64) (heat : Nat) (s : State) : Host.Outcome State Fault Refusal := kamir 0x6B (fun e => kVec1 (fun a => intToF (kRnd e) a.toNat) e) core heat s

/-- F2H (R291). -/
def execF2h (core : Fin 64) (heat : Nat) (s : State) : Host.Outcome State Fault Refusal := kamir 0x6C (fun e => kVec2 (packHalves fp16 (kRnd e)) e) core heat s

/-- H2F (R291). -/
def execH2f (core : Fin 64) (heat : Nat) (s : State) : Host.Outcome State Fault Refusal := kamir 0x6D (fun e => kVec1 (fun a => fWiden fp16 (half (kBit62 e) a)) e) core heat s

/-- F2BF (R291). -/
def execF2bf (core : Fin 64) (heat : Nat) (s : State) : Host.Outcome State Fault Refusal := kamir 0x6E (fun e => kVec2 (packHalves bf16 (kRnd e)) e) core heat s

/-- BF2F (R291). -/
def execBf2f (core : Fin 64) (heat : Nat) (s : State) : Host.Outcome State Fault Refusal := kamir 0x6F (fun e => kVec1 (fun a => fWiden bf16 (half (kBit62 e) a)) e) core heat s

/-- RCP (R292). -/
def execRcp (core : Fin 64) (heat : Nat) (s : State) : Host.Outcome State Fault Refusal := kamir 0x70 (kVec1 fRcp) core heat s

/-- RSQ (R292). -/
def execRsq (core : Fin 64) (heat : Nat) (s : State) : Host.Outcome State Fault Refusal := kamir 0x71 (kVec1 fRsq) core heat s

/-- SQRT (R292). -/
def execSqrt (core : Fin 64) (heat : Nat) (s : State) : Host.Outcome State Fault Refusal := kamir 0x72 (kVec1 fSqrt) core heat s

/-- EXP2 (R292). -/
def execExp2 (core : Fin 64) (heat : Nat) (s : State) : Host.Outcome State Fault Refusal := kamir 0x73 (kVec1 fExp2) core heat s

/-- LOG2 (R292). -/
def execLog2 (core : Fin 64) (heat : Nat) (s : State) : Host.Outcome State Fault Refusal := kamir 0x74 (kVec1 fLog2) core heat s

/-- SIN (R292). -/
def execSin (core : Fin 64) (heat : Nat) (s : State) : Host.Outcome State Fault Refusal := kamir 0x75 (kVec1 (fTrig 0)) core heat s

/-- COS (R292). -/
def execCos (core : Fin 64) (heat : Nat) (s : State) : Host.Outcome State Fault Refusal := kamir 0x76 (kVec1 (fTrig 1)) core heat s

/-- FCMP (R293). -/
def execFcmp (core : Fin 64) (heat : Nat) (s : State) : Host.Outcome State Fault Refusal := kamir 0x80 (kCompare condFloat) core heat s

/-- ICMP (R293). -/
def execIcmp (core : Fin 64) (heat : Nat) (s : State) : Host.Outcome State Fault Refusal := kamir 0x81 (kCompare condSigned) core heat s

/-- UCMP (R293). -/
def execUcmp (core : Fin 64) (heat : Nat) (s : State) : Host.Outcome State Fault Refusal := kamir 0x82 (kCompare condUnsigned) core heat s

/-- SHFL (R294). -/
def execShfl (core : Fin 64) (heat : Nat) (s : State) : Host.Outcome State Fault Refusal := kamir 0x88 kShfl core heat s

/-- VTOS (R294). -/
def execVtos (core : Fin 64) (heat : Nat) (s : State) : Host.Outcome State Fault Refusal := kamir 0x89 kVtos core heat s

/-- FREDADD (R295). -/
def execFredadd (core : Fin 64) (heat : Nat) (s : State) : Host.Outcome State Fault Refusal := kamir 0x8C (kReduce (fAdd 0) 0x80000000) core heat s

/-- IREDADD (R295). -/
def execIredadd (core : Fin 64) (heat : Nat) (s : State) : Host.Outcome State Fault Refusal := kamir 0x8D (kReduce (fun a b => a + b) 0) core heat s

/-! ### Memory instructions -/

/-- LD (R297). -/
def execLd (core : Fin 64) (heat : Nat) (s : State) : Host.Outcome State Fault Refusal := kamir 0xA0 kMemory core heat s

/-- ST (R297). -/
def execSt (core : Fin 64) (heat : Nat) (s : State) : Host.Outcome State Fault Refusal := kamir 0xA1 kMemory core heat s

/-- LDS (R299). -/
def execLds (core : Fin 64) (heat : Nat) (s : State) : Host.Outcome State Fault Refusal := kamir 0xA2 kMemory core heat s

/-- AADD (R301). -/
def execAadd (core : Fin 64) (heat : Nat) (s : State) : Host.Outcome State Fault Refusal := kamir 0xA8 kMemory core heat s

/-- AMIN (R301). -/
def execAmin (core : Fin 64) (heat : Nat) (s : State) : Host.Outcome State Fault Refusal := kamir 0xA9 kMemory core heat s

/-- AMAX (R301). -/
def execAmax (core : Fin 64) (heat : Nat) (s : State) : Host.Outcome State Fault Refusal := kamir 0xAA kMemory core heat s

/-- AMINU (R301). -/
def execAminu (core : Fin 64) (heat : Nat) (s : State) : Host.Outcome State Fault Refusal := kamir 0xAB kMemory core heat s

/-- AMAXU (R301). -/
def execAmaxu (core : Fin 64) (heat : Nat) (s : State) : Host.Outcome State Fault Refusal := kamir 0xAC kMemory core heat s

/-- AAND (R301). -/
def execAand (core : Fin 64) (heat : Nat) (s : State) : Host.Outcome State Fault Refusal := kamir 0xAD kMemory core heat s

/-- AOR (R301). -/
def execAor (core : Fin 64) (heat : Nat) (s : State) : Host.Outcome State Fault Refusal := kamir 0xAE kMemory core heat s

/-- AXOR (R301). -/
def execAxor (core : Fin 64) (heat : Nat) (s : State) : Host.Outcome State Fault Refusal := kamir 0xAF kMemory core heat s

/-- AXCHG (R301). -/
def execAxchg (core : Fin 64) (heat : Nat) (s : State) : Host.Outcome State Fault Refusal := kamir 0xB0 kMemory core heat s

/-- ACAS (R301). -/
def execAcas (core : Fin 64) (heat : Nat) (s : State) : Host.Outcome State Fault Refusal := kamir 0xB1 kMemory core heat s

/-- AFADD (R301). -/
def execAfadd (core : Fin 64) (heat : Nat) (s : State) : Host.Outcome State Fault Refusal := kamir 0xB2 kMemory core heat s

/-- FENCE (R304). -/
def execFence (core : Fin 64) (heat : Nat) (s : State) : Host.Outcome State Fault Refusal := kamir 0xB8 kFence core heat s

/-- SIG (R306). -/
def execSig (core : Fin 64) (heat : Nat) (s : State) : Host.Outcome State Fault Refusal := kamir 0xC0 kSig core heat s

/-- SWAIT (R307). -/
def execSwait (core : Fin 64) (heat : Nat) (s : State) : Host.Outcome State Fault Refusal := kamir 0xC1 kSwait core heat s

/-- SWAIT_SATISFIED (R307). -/
def execSwaitSatisfied (core : Fin 64) (heat : Nat) (s : State) : Host.Outcome State Fault Refusal :=
  clocked s (swaitCheck s core.val heat)

/-- ALLOC (R217). -/
def execAlloc (core : Fin 64) (heat : Nat) (s : State) : Host.Outcome State Fault Refusal := kamir 0xC8 kAlloc core heat s

/-- FREE (R219). -/
def execFree (core : Fin 64) (heat : Nat) (s : State) : Host.Outcome State Fault Refusal := kamir 0xC9 kFree core heat s

/-! ### Texture instructions -/

/-- TEX (R312). -/
def execTex (core : Fin 64) (heat : Nat) (s : State) : Host.Outcome State Fault Refusal := kamir 0xE0 kTexture core heat s

/-- TLD (R318). -/
def execTld (core : Fin 64) (heat : Nat) (s : State) : Host.Outcome State Fault Refusal := kamir 0xE1 kTexture core heat s

/-- VARIABLE_RESULT_WRITE (R280). -/
def execVariableResultWrite (core : Fin 64) (heat num : Nat) (s : State) : Host.Outcome State Fault Refusal :=
  clocked s (varResult s core.val heat num)

/-! ### Tensor unit (spec/11_tensor_arithmetic.md) -/

/-- TMMA (R320). -/
def execTmma (core : Fin 64) (heat : Nat) (s : State) : Host.Outcome State Fault Refusal :=
  kamir 0xE8 (fun e => tnsIssue .tmma (tmmaParams (lPar e 0) (lPar e 1) (lPar e 2) (lPar e 3) (lPar e 4)) e) core heat s

/-- TOUT (R322, R349). -/
def execTout (core : Fin 64) (heat : Nat) (s : State) : Host.Outcome State Fault Refusal :=
  kamir 0xE9 (fun e => tnsIssue .tout (toutParams (lPar e 0) (lPar e 1) (lPar e 2)) e) core heat s

/-- TCLR (R322). -/
def execTclr (core : Fin 64) (heat : Nat) (s : State) : Host.Outcome State Fault Refusal :=
  kamir 0xEA (fun e => tnsIssue .tclr (tclrParams (lPar e 0)) e) core heat s

/-- TNS_BEGIN (R319). -/
def execTnsBegin (core : Fin 64) (s : State) : Host.Outcome State Fault Refusal := clocked s (tnsBegin s core.val)

/-- TMMA_COMPLETE (R321). -/
def execTmmaComplete (core : Fin 64) (s : State) : Host.Outcome State Fault Refusal := clocked s (tmmaComplete s core.val)

/-- TMMA_STOP (R325): groups is the number of whole groups of 64 K-steps done. -/
def execTmmaStop (core : Fin 64) (groups : Nat) (s : State) : Host.Outcome State Fault Refusal := clocked s (tmmaStop s core.val groups)

/-- TOUT_COMPLETE (R355). -/
def execToutComplete (core : Fin 64) (s : State) : Host.Outcome State Fault Refusal := clocked s (toutComplete s core.val)

/-- TCLR_COMPLETE (R322). -/
def execTclrComplete (core : Fin 64) (s : State) : Host.Outcome State Fault Refusal := clocked s (tclrComplete s core.val)

end Sys2Proof.Machine
end

