-- ==== Sys2Proof/Machine/RowsWork.lean ====
section
/-!
DEFINITION. The rows of placement, layer programs and lifts: each is the answer to one command.
-/

namespace Sys2Proof.Machine

/-! ### Placement (spec/08_heats_and_blocks.md) -/

/-- DISPATCH (R234). -/
def execDispatch (s : State) : Host.Outcome State Fault Refusal := clocked s (dispatchBegin s)

/-- BLOCK_PLACE (R244). -/
def execBlockPlace (core : Fin 64) (s : State) : Host.Outcome State Fault Refusal := clocked s (blockPlace s core.val)

/-- BLOCK_END (R245). -/
def execBlockEnd (core : Fin 64) (s : State) : Host.Outcome State Fault Refusal := clocked s (blockEnd s core.val)

/-- PREEMPTION (R256). -/
def execPreemption (core : Fin 64) (s : State) : Host.Outcome State Fault Refusal := clocked s (preempt s core.val)

/-- BLOCK_RESTORE (R258). -/
def execBlockRestore (core : Fin 64) (s : State) : Host.Outcome State Fault Refusal := clocked s (blockRestore s core.val)

/-- CLU_CONFIG_APPLY (R262). -/
def execCluConfigApply (c : Fin 16) (s : State) : Host.Outcome State Fault Refusal := clocked s (cluConfigApply s c.val)

/-! ### Layer programs (spec/12_layer_programs.md) -/

/-- SHEET_STREAM_APPLY (R212); a work area that has shrunk below what a waiting LAYER needs refuses it (R369). -/
def execSheetStreamApply (c : Fin 16) (s : State) : Host.Outcome State Fault Refusal :=
  clocked s (layerRecheck (streamApply s c.val))

/-- LAYER (R357). -/
def execLayer (s : State) : Host.Outcome State Fault Refusal := clocked s (layerBegin s)

/-- WINDOW_ALLOCATE (R370). -/
def execWindowAllocate (s : State) : Host.Outcome State Fault Refusal := clocked s (windowAllocate s)

/-- STEP_START (R372). -/
def execStepStart (c : Fin 16) (queue : Fin 5) (s : State) : Host.Outcome State Fault Refusal :=
  clocked s (stepStart s c.val queue.val)

/-- STEP_COMPLETE (R364). -/
def execStepComplete (s : State) : Host.Outcome State Fault Refusal := clocked s (stepComplete s)

/-! ### Lift engines -/

/-- LIFT_COMPLETE (R200). -/
def execLiftComplete (c : Fin 16) (s : State) : Host.Outcome State Fault Refusal := clocked s (liftEngine c.val (liftFuel s c.val) s)

/-- LIFT_STOP (R325). -/
def execLiftStop (c : Fin 16) (s : State) : Host.Outcome State Fault Refusal := clocked s (liftStop s c.val)

/-- LIFT (R201). -/
def execLift (s : State) : Host.Outcome State Fault Refusal := clocked s (liftBegin s)

/-- LIFT_INSTRUCTION (R323). -/
def execLiftInstruction (core : Fin 64) (heat : Nat) (s : State) : Host.Outcome State Fault Refusal :=
  kamir 0xF0 kLift core heat s

end Sys2Proof.Machine
end

