-- ==== Sys2Proof/Machine/Dispatch.lean ====
section
/-!
DEFINITION. exec: one arm per command of the opcode table, each a direct call of its meaning.
-/

namespace Sys2Proof.Machine

open Host

def exec (i : Instr) (s : State) : Host.Outcome State Fault Refusal :=
  match i with
  | .registerWrite off dws same => Sys2Proof.Machine.execRegisterWrite off dws same s
  | .pairLowRead path r => Sys2Proof.Machine.execPairLowRead path r s
  | .pairHighRead path r => Sys2Proof.Machine.execPairHighRead path r s
  | .pairLowWrite path off be data => Sys2Proof.Machine.execPairLowWrite path off be data s
  | .pairHighWrite path off be data => Sys2Proof.Machine.execPairHighWrite path off be data s
  | .broadcastWrite off be data => Sys2Proof.Machine.execBroadcastWrite off be data s
  | .bar4Write off bytes => Sys2Proof.Machine.execBar4Write off bytes s
  | .bar4Read off len => Sys2Proof.Machine.execBar4Read off len s
  | .poisonedWrite space off tlp => Sys2Proof.Machine.execPoisonedWrite space off tlp s
  | .cplError r => Sys2Proof.Machine.execCplError r s
  | .cplTimeout r => Sys2Proof.Machine.execCplTimeout r s
  | .msixUnmask what => Sys2Proof.Machine.execMsixUnmask what s
  | .hiuIrqAck k v => Sys2Proof.Machine.execHiuIrqAck k v s
  | .hiuSwint v => Sys2Proof.Machine.execHiuSwint v s
  | .resizableBar log2 => Sys2Proof.Machine.execResizableBar log2 s
  | .lineEvent src => Sys2Proof.Machine.execLineEvent src s
  | .frameEvent src => Sys2Proof.Machine.execFrameEvent src s
  | .fsyncInEdge => Sys2Proof.Machine.execFsyncInEdge s
  | .lsyncInEdge => Sys2Proof.Machine.execLsyncInEdge s
  | .synthesisedLineEvent pos => Sys2Proof.Machine.execSynthesisedLineEvent pos s
  | .sourceLost => Sys2Proof.Machine.execSourceLost s
  | .sourceRecovered => Sys2Proof.Machine.execSourceRecovered s
  | .ltbSrcWrite v => Sys2Proof.Machine.execLtbSrcWrite v s
  | .ltbEnable v => Sys2Proof.Machine.execLtbEnable v s
  | .lsyncOutEnd => Sys2Proof.Machine.execLsyncOutEnd s
  | .fsyncOutEnd => Sys2Proof.Machine.execFsyncOutEnd s
  | .sqDoorbell ring dw dws => Sys2Proof.Machine.execSqDoorbell ring dw dws s
  | .cqRelease ring be v => Sys2Proof.Machine.execCqRelease ring be v s
  | .descriptorFetch => Sys2Proof.Machine.execDescriptorFetch s
  | .cfeDispatch => Sys2Proof.Machine.execCfeDispatch s
  | .retirement => Sys2Proof.Machine.execRetirement s
  | .ringEnable ring v => Sys2Proof.Machine.execRingEnable ring v s
  | .ringDisable ring v => Sys2Proof.Machine.execRingDisable ring v s
  | .nop => Sys2Proof.Machine.execNop s
  | .signal => Sys2Proof.Machine.execSignal s
  | .wait ring seq => Sys2Proof.Machine.execWait ring seq s
  | .timestamp => Sys2Proof.Machine.execTimestamp s
  | .checkpoint => Sys2Proof.Machine.execCheckpoint s
  | .renderPass => Sys2Proof.Machine.execRenderPass s
  | .dispatch => Sys2Proof.Machine.execDispatch s
  | .layer => Sys2Proof.Machine.execLayer s
  | .lift => Sys2Proof.Machine.execLift s
  | .pack => Sys2Proof.Machine.execPack s
  | .unpack => Sys2Proof.Machine.execUnpack s
  | .commit m => Sys2Proof.Machine.execCommit m s
  | .scalerLoad m => Sys2Proof.Machine.execScalerLoad m s
  | .cacheRangeClean => Sys2Proof.Machine.execCacheRangeClean s
  | .cacheRangeInvalidate => Sys2Proof.Machine.execCacheRangeInvalidate s
  | .cacheRangeCleanInvalidate => Sys2Proof.Machine.execCacheRangeCleanInvalidate s
  | .heapGrantBinChunk => Sys2Proof.Machine.execHeapGrantBinChunk s
  | .heapGrantReserve => Sys2Proof.Machine.execHeapGrantReserve s
  | .heapGrantDeny => Sys2Proof.Machine.execHeapGrantDeny s
  | .load => Sys2Proof.Machine.execLoad s
  | .teardown => Sys2Proof.Machine.execTeardown s
  | .markLost => Sys2Proof.Machine.execMarkLost s
  | .query => Sys2Proof.Machine.execQuery s
  | .chain => Sys2Proof.Machine.execChain s
  | .contextUpdate => Sys2Proof.Machine.execContextUpdate s
  | .teardownRelease => Sys2Proof.Machine.execTeardownRelease s
  | .poisonWalk c => Sys2Proof.Machine.execPoisonWalk c s
  | .cancelStop ring seq units => Sys2Proof.Machine.execCancelStop ring seq units s
  | .watchdog ring seq => Sys2Proof.Machine.execWatchdog ring seq s
  | .ctx0Load v => Sys2Proof.Machine.execCtx0Load v s
  | .syncInit v => Sys2Proof.Machine.execSyncInit v s
  | .waitSatisfied obj => Sys2Proof.Machine.execWaitSatisfied obj s
  | .l2cSetway v => Sys2Proof.Machine.execL2cSetway v s
  | .setwayDone => Sys2Proof.Machine.execSetwayDone s
  | .mmuInv v => Sys2Proof.Machine.execMmuInv v s
  | .mmuInvDone => Sys2Proof.Machine.execMmuInvDone s
  | .windowAllocate => Sys2Proof.Machine.execWindowAllocate s
  | .sheetStreamApply c => Sys2Proof.Machine.execSheetStreamApply c s
  | .liftComplete c => Sys2Proof.Machine.execLiftComplete c s
  | .liftStop c => Sys2Proof.Machine.execLiftStop c s
  | .lp5Burst ch ready => Sys2Proof.Machine.execLp5Burst ch ready s
  | .refresh ch derate => Sys2Proof.Machine.execRefresh ch derate s
  | .blockPlace core => Sys2Proof.Machine.execBlockPlace core s
  | .blockEnd core => Sys2Proof.Machine.execBlockEnd core s
  | .preemption core => Sys2Proof.Machine.execPreemption core s
  | .preemptSaveComplete core => Sys2Proof.Machine.execPreemptSaveComplete core s
  | .blockRestore core => Sys2Proof.Machine.execBlockRestore core s
  | .cluConfigApply c => Sys2Proof.Machine.execCluConfigApply c s
  | .variableResultWrite core heat num => Sys2Proof.Machine.execVariableResultWrite core heat num s
  | .illegalInstruction core heat => Sys2Proof.Machine.execIllegalInstruction core heat s
  | .icacheFill core heat => Sys2Proof.Machine.execIcacheFill core heat s
  | .nopInstruction core heat => Sys2Proof.Machine.execNopInstruction core heat s
  | .bra core heat => Sys2Proof.Machine.execBra core heat s
  | .brx core heat => Sys2Proof.Machine.execBrx core heat s
  | .call core heat => Sys2Proof.Machine.execCall core heat s
  | .ret core heat => Sys2Proof.Machine.execRet core heat s
  | .exit core heat => Sys2Proof.Machine.execExit core heat s
  | .bar core heat => Sys2Proof.Machine.execBar core heat s
  | .dpush core heat => Sys2Proof.Machine.execDpush core heat s
  | .dsplit core heat => Sys2Proof.Machine.execDsplit core heat s
  | .dnext core heat => Sys2Proof.Machine.execDnext core heat s
  | .dmask core heat => Sys2Proof.Machine.execDmask core heat s
  | .dspill core heat => Sys2Proof.Machine.execDspill core heat s
  | .dfill core heat => Sys2Proof.Machine.execDfill core heat s
  | .sadd core heat => Sys2Proof.Machine.execSadd core heat s
  | .ssub core heat => Sys2Proof.Machine.execSsub core heat s
  | .smul core heat => Sys2Proof.Machine.execSmul core heat s
  | .sand core heat => Sys2Proof.Machine.execSand core heat s
  | .sor core heat => Sys2Proof.Machine.execSor core heat s
  | .sxor core heat => Sys2Proof.Machine.execSxor core heat s
  | .sshl core heat => Sys2Proof.Machine.execSshl core heat s
  | .sshr core heat => Sys2Proof.Machine.execSshr core heat s
  | .ssra core heat => Sys2Proof.Machine.execSsra core heat s
  | .smin core heat => Sys2Proof.Machine.execSmin core heat s
  | .smax core heat => Sys2Proof.Machine.execSmax core heat s
  | .sminu core heat => Sys2Proof.Machine.execSminu core heat s
  | .smaxu core heat => Sys2Proof.Machine.execSmaxu core heat s
  | .smov core heat => Sys2Proof.Machine.execSmov core heat s
  | .sadd64 core heat => Sys2Proof.Machine.execSadd64 core heat s
  | .smovs core heat => Sys2Proof.Machine.execSmovs core heat s
  | .pand core heat => Sys2Proof.Machine.execPand core heat s
  | .por core heat => Sys2Proof.Machine.execPor core heat s
  | .pxor core heat => Sys2Proof.Machine.execPxor core heat s
  | .pnot core heat => Sys2Proof.Machine.execPnot core heat s
  | .smovp core heat => Sys2Proof.Machine.execSmovp core heat s
  | .pmovs core heat => Sys2Proof.Machine.execPmovs core heat s
  | .fadd core heat => Sys2Proof.Machine.execFadd core heat s
  | .fmul core heat => Sys2Proof.Machine.execFmul core heat s
  | .ffma core heat => Sys2Proof.Machine.execFfma core heat s
  | .fmin core heat => Sys2Proof.Machine.execFmin core heat s
  | .fmax core heat => Sys2Proof.Machine.execFmax core heat s
  | .fsub core heat => Sys2Proof.Machine.execFsub core heat s
  | .frnd core heat => Sys2Proof.Machine.execFrnd core heat s
  | .iadd core heat => Sys2Proof.Machine.execIadd core heat s
  | .isub core heat => Sys2Proof.Machine.execIsub core heat s
  | .imul core heat => Sys2Proof.Machine.execImul core heat s
  | .imulh core heat => Sys2Proof.Machine.execImulh core heat s
  | .imad core heat => Sys2Proof.Machine.execImad core heat s
  | .and core heat => Sys2Proof.Machine.execAnd core heat s
  | .or core heat => Sys2Proof.Machine.execOr core heat s
  | .xor core heat => Sys2Proof.Machine.execXor core heat s
  | .shl core heat => Sys2Proof.Machine.execShl core heat s
  | .shr core heat => Sys2Proof.Machine.execShr core heat s
  | .sra core heat => Sys2Proof.Machine.execSra core heat s
  | .imin core heat => Sys2Proof.Machine.execImin core heat s
  | .imax core heat => Sys2Proof.Machine.execImax core heat s
  | .popc core heat => Sys2Proof.Machine.execPopc core heat s
  | .clz core heat => Sys2Proof.Machine.execClz core heat s
  | .brev core heat => Sys2Proof.Machine.execBrev core heat s
  | .mov core heat => Sys2Proof.Machine.execMov core heat s
  | .sel core heat => Sys2Proof.Machine.execSel core heat s
  | .f2i core heat => Sys2Proof.Machine.execF2i core heat s
  | .f2u core heat => Sys2Proof.Machine.execF2u core heat s
  | .i2f core heat => Sys2Proof.Machine.execI2f core heat s
  | .u2f core heat => Sys2Proof.Machine.execU2f core heat s
  | .f2h core heat => Sys2Proof.Machine.execF2h core heat s
  | .h2f core heat => Sys2Proof.Machine.execH2f core heat s
  | .f2bf core heat => Sys2Proof.Machine.execF2bf core heat s
  | .bf2f core heat => Sys2Proof.Machine.execBf2f core heat s
  | .rcp core heat => Sys2Proof.Machine.execRcp core heat s
  | .rsq core heat => Sys2Proof.Machine.execRsq core heat s
  | .sqrt core heat => Sys2Proof.Machine.execSqrt core heat s
  | .exp2 core heat => Sys2Proof.Machine.execExp2 core heat s
  | .log2 core heat => Sys2Proof.Machine.execLog2 core heat s
  | .sin core heat => Sys2Proof.Machine.execSin core heat s
  | .cos core heat => Sys2Proof.Machine.execCos core heat s
  | .fcmp core heat => Sys2Proof.Machine.execFcmp core heat s
  | .icmp core heat => Sys2Proof.Machine.execIcmp core heat s
  | .ucmp core heat => Sys2Proof.Machine.execUcmp core heat s
  | .shfl core heat => Sys2Proof.Machine.execShfl core heat s
  | .vtos core heat => Sys2Proof.Machine.execVtos core heat s
  | .fredadd core heat => Sys2Proof.Machine.execFredadd core heat s
  | .iredadd core heat => Sys2Proof.Machine.execIredadd core heat s
  | .ld core heat => Sys2Proof.Machine.execLd core heat s
  | .st core heat => Sys2Proof.Machine.execSt core heat s
  | .lds core heat => Sys2Proof.Machine.execLds core heat s
  | .aadd core heat => Sys2Proof.Machine.execAadd core heat s
  | .amin core heat => Sys2Proof.Machine.execAmin core heat s
  | .amax core heat => Sys2Proof.Machine.execAmax core heat s
  | .aminu core heat => Sys2Proof.Machine.execAminu core heat s
  | .amaxu core heat => Sys2Proof.Machine.execAmaxu core heat s
  | .aand core heat => Sys2Proof.Machine.execAand core heat s
  | .aor core heat => Sys2Proof.Machine.execAor core heat s
  | .axor core heat => Sys2Proof.Machine.execAxor core heat s
  | .axchg core heat => Sys2Proof.Machine.execAxchg core heat s
  | .acas core heat => Sys2Proof.Machine.execAcas core heat s
  | .afadd core heat => Sys2Proof.Machine.execAfadd core heat s
  | .fence core heat => Sys2Proof.Machine.execFence core heat s
  | .sig core heat => Sys2Proof.Machine.execSig core heat s
  | .swait core heat => Sys2Proof.Machine.execSwait core heat s
  | .swaitSatisfied core heat => Sys2Proof.Machine.execSwaitSatisfied core heat s
  | .alloc core heat => Sys2Proof.Machine.execAlloc core heat s
  | .free core heat => Sys2Proof.Machine.execFree core heat s
  | .tex core heat => Sys2Proof.Machine.execTex core heat s
  | .tld core heat => Sys2Proof.Machine.execTld core heat s
  | .tmma core heat => Sys2Proof.Machine.execTmma core heat s
  | .tout core heat => Sys2Proof.Machine.execTout core heat s
  | .tclr core heat => Sys2Proof.Machine.execTclr core heat s
  | .liftInstruction core heat => Sys2Proof.Machine.execLiftInstruction core heat s
  | .tnsBegin core => Sys2Proof.Machine.execTnsBegin core s
  | .tmmaComplete core => Sys2Proof.Machine.execTmmaComplete core s
  | .tmmaStop core groups => Sys2Proof.Machine.execTmmaStop core groups s
  | .toutComplete core => Sys2Proof.Machine.execToutComplete core s
  | .tclrComplete core => Sys2Proof.Machine.execTclrComplete core s
  | .stepStart c queue => Sys2Proof.Machine.execStepStart c queue s
  | .stepComplete => Sys2Proof.Machine.execStepComplete s
  | .vertexBatchLaunch core => Sys2Proof.Machine.execVertexBatchLaunch core s
  | .vertexBatchEnd core => Sys2Proof.Machine.execVertexBatchEnd core s
  | .patchTessellate => Sys2Proof.Machine.execPatchTessellate s
  | .primitiveSetup => Sys2Proof.Machine.execPrimitiveSetup s
  | .binPrimitive => Sys2Proof.Machine.execBinPrimitive s
  | .tileJobPlace core => Sys2Proof.Machine.execTileJobPlace core s
  | .fragmentHeatLaunch core => Sys2Proof.Machine.execFragmentHeatLaunch core s
  | .fragmentHeatEnd core => Sys2Proof.Machine.execFragmentHeatEnd core s
  | .tileStore core => Sys2Proof.Machine.execTileStore core s
  | .tileJobEnd core => Sys2Proof.Machine.execTileJobEnd core s
  | .sringEnable ring v => Sys2Proof.Machine.execSringEnable ring v s
  | .sringDisable ring v => Sys2Proof.Machine.execSringDisable ring v s
  | .stripDeadline ring => Sys2Proof.Machine.execStripDeadline ring s
  | .dspPlaneMap k v => Sys2Proof.Machine.execDspPlaneMap k v s
  | .dspScalerMap v => Sys2Proof.Machine.execDspScalerMap v s
  | .commitLatch m => Sys2Proof.Machine.execCommitLatch m s
  | .scalerBankCopy scaler => Sys2Proof.Machine.execScalerBankCopy scaler s
  | .scanoutLineFetch m plane => Sys2Proof.Machine.execScanoutLineFetch m plane s
  | .tgEnable m v => Sys2Proof.Machine.execTgEnable m v s
  | .tgPllLock m => Sys2Proof.Machine.execTgPllLock m s
  | .tgDisable m v => Sys2Proof.Machine.execTgDisable m v s
  | .tgLineStart m => Sys2Proof.Machine.execTgLineStart m s
  | .tgFrameEvent m => Sys2Proof.Machine.execTgFrameEvent m s
  | .csiEnable port v => Sys2Proof.Machine.execCsiEnable port v s
  | .csiDisable port v => Sys2Proof.Machine.execCsiDisable port v s
  | .frameStart port h => Sys2Proof.Machine.execFrameStart port h s
  | .lineStart port h long => Sys2Proof.Machine.execLineStart port h long s
  | .frameEnd port h => Sys2Proof.Machine.execFrameEnd port h s
  | .longPacket port h dt crcOk bytes accepted => Sys2Proof.Machine.execLongPacket port h dt crcOk bytes accepted s
  | .csiEventRelease port => Sys2Proof.Machine.execCsiEventRelease port s
  | .cmpPackBlock inst => Sys2Proof.Machine.execCmpPackBlock inst s
  | .cmpUnpackBlock inst => Sys2Proof.Machine.execCmpUnpackBlock inst s
  | .hltTwinEnable v => Sys2Proof.Machine.execHltTwinEnable v s
  | .hello => Sys2Proof.Machine.execHello s
  | .helloResend => Sys2Proof.Machine.execHelloResend s
  | .desc => Sys2Proof.Machine.execDesc s
  | .write => Sys2Proof.Machine.execWrite s
  | .sync => Sys2Proof.Machine.execSync s
  | .lt => Sys2Proof.Machine.execLt s
  | .twinLtEvent => Sys2Proof.Machine.execTwinLtEvent s
  | .tgsync skew => Sys2Proof.Machine.execTgsync skew s
  | .ckpt => Sys2Proof.Machine.execCkpt s
  | .verdict => Sys2Proof.Machine.execVerdict s
  | .repeatEnd ring => Sys2Proof.Machine.execRepeatEnd ring s
  | .loss => Sys2Proof.Machine.execLoss s
  | .echoRequest => Sys2Proof.Machine.execEchoRequest s
  | .echo trip => Sys2Proof.Machine.execEcho trip s
  | .strip => Sys2Proof.Machine.execStrip s
  | .checkerTimeout ring => Sys2Proof.Machine.execCheckerTimeout ring s
  | .resume v => Sys2Proof.Machine.execResume v s
  | .mirrorThrottleRelease => Sys2Proof.Machine.execMirrorThrottleRelease s
  | .vzlRetrain p v => Sys2Proof.Machine.execVzlRetrain p v s
  | .trainingAdvance p e => Sys2Proof.Machine.execTrainingAdvance p e s
  | .trainingTimeout p => Sys2Proof.Machine.execTrainingTimeout p s
  | .dataFlit p num x => Sys2Proof.Machine.execDataFlit p num x s
  | .linkFlit p gap wire => Sys2Proof.Machine.execLinkFlit p gap wire s
  | .nullFlit p x => Sys2Proof.Machine.execNullFlit p x s
  | .linkFlitSend p gap => Sys2Proof.Machine.execLinkFlitSend p gap s
  | .nakRepeat p => Sys2Proof.Machine.execNakRepeat p s
  | .replayTimeout p => Sys2Proof.Machine.execReplayTimeout p s
  | .packetForward => Sys2Proof.Machine.execPacketForward s
  | .vzlRead => Sys2Proof.Machine.execVzlRead s
  | .vzlWrite => Sys2Proof.Machine.execVzlWrite s
  | .vzlAtomic => Sys2Proof.Machine.execVzlAtomic s
  | .vzlSignal => Sys2Proof.Machine.execVzlSignal s
  | .resp => Sys2Proof.Machine.execResp s
  | .vzlRequestTimeout tag => Sys2Proof.Machine.execVzlRequestTimeout tag s
  | .katStart c => Sys2Proof.Machine.execKatStart c s
  | .katEnd c pass => Sys2Proof.Machine.execKatEnd c pass s
  | .ladderSettle c => Sys2Proof.Machine.execLadderSettle c s
  | .clusterPowerOff c => Sys2Proof.Machine.execClusterPowerOff c s
  | .periodicSweep => Sys2Proof.Machine.execPeriodicSweep s
  | .drainGraceExpiry => Sys2Proof.Machine.execDrainGraceExpiry s
  | .calendarTick => Sys2Proof.Machine.execCalendarTick s
  | .wakeIn => Sys2Proof.Machine.execWakeIn s
  | .vddAonRise => Sys2Proof.Machine.execVddAonRise s
  | .agingMeasurement c base f => Sys2Proof.Machine.execAgingMeasurement c base f s
  | .getVersion => Sys2Proof.Machine.execGetVersion s
  | .getBoot => Sys2Proof.Machine.execGetBoot s
  | .setCalendar => Sys2Proof.Machine.execSetCalendar s
  | .setAlarm => Sys2Proof.Machine.execSetAlarm s
  | .readCounters => Sys2Proof.Machine.execReadCounters s
  | .readLog => Sys2Proof.Machine.execReadLog s
  | .requestKat => Sys2Proof.Machine.execRequestKat s
  | .requestDrain => Sys2Proof.Machine.execRequestDrain s
  | .writeSnapshot => Sys2Proof.Machine.execWriteSnapshot s
  | .fwInstall sigOk flashOk => Sys2Proof.Machine.execFwInstall sigOk flashOk s
  | .recordCommit fails => Sys2Proof.Machine.execRecordCommit fails s
  | .snapshotTimer => Sys2Proof.Machine.execSnapshotTimer s
  | .groomerWatchdog => Sys2Proof.Machine.execGroomerWatchdog s
  | .sysRstNAssert => Sys2Proof.Machine.execSysRstNAssert s
  | .sysRstNDeassert straps => Sys2Proof.Machine.execSysRstNDeassert straps s
  | .mainRailDip => Sys2Proof.Machine.execMainRailDip s
  | .perstNAssert => Sys2Proof.Machine.execPerstNAssert s
  | .hotReset => Sys2Proof.Machine.execHotReset s
  | .linkDown => Sys2Proof.Machine.execLinkDown s
  | .functionLevelReset => Sys2Proof.Machine.execFunctionLevelReset s
  | .functionResetEnd => Sys2Proof.Machine.execFunctionResetEnd s
  | .bootRom pllOk jedec => Sys2Proof.Machine.execBootRom pllOk jedec s
  | .firmwareCheck sig0 sig1 => Sys2Proof.Machine.execFirmwareCheck sig0 sig1 s
  | .boardRecord pmbus => Sys2Proof.Machine.execBoardRecord pmbus s
  | .lp5Training ok => Sys2Proof.Machine.execLp5Training ok s
  | .selfTestAndMap uncore fails => Sys2Proof.Machine.execSelfTestAndMap uncore fails s
  | .ready => Sys2Proof.Machine.execReady s
  | .dvfsReevaluate => Sys2Proof.Machine.execDvfsReevaluate s
  | .dvfsChangeComplete => Sys2Proof.Machine.execDvfsChangeComplete s
  | .powerSample r => Sys2Proof.Machine.execPowerSample r s
  | .thermalSample temps => Sys2Proof.Machine.execThermalSample temps s
  | .thermtrip sensor => Sys2Proof.Machine.execThermtrip sensor s
  | .pstateActive => Sys2Proof.Machine.execPstateActive s
  | .pstateStandby => Sys2Proof.Machine.execPstateStandby s
  | .pstateOff => Sys2Proof.Machine.execPstateOff s
  | .standbyEntry => Sys2Proof.Machine.execStandbyEntry s
  | .standbyExit => Sys2Proof.Machine.execStandbyExit s
  | .offReady => Sys2Proof.Machine.execOffReady s
  | .pinCfgWrite k v => Sys2Proof.Machine.execPinCfgWrite k v s
  | .pinSet b v => Sys2Proof.Machine.execPinSet b v s
  | .pinClr b v => Sys2Proof.Machine.execPinClr b v s
  | .pinTgl b v => Sys2Proof.Machine.execPinTgl b v s
  | .pinEnSet v => Sys2Proof.Machine.execPinEnSet v s
  | .pinEnClr v => Sys2Proof.Machine.execPinEnClr v s
  | .pinEnTgl v => Sys2Proof.Machine.execPinEnTgl v s
  | .pinInputChange k v => Sys2Proof.Machine.execPinInputChange k v s
  | .debounceExpiry k => Sys2Proof.Machine.execDebounceExpiry k s
  | .i2cXfer n v => Sys2Proof.Machine.execI2cXfer n v s
  | .i2cDone n r => Sys2Proof.Machine.execI2cDone n r s
  | .i2cTimeout n bytes => Sys2Proof.Machine.execI2cTimeout n bytes s
  | .spitRead a words => Sys2Proof.Machine.execSpitRead a words s
  | .spitOtherCommand cmd bytes => Sys2Proof.Machine.execSpitOtherCommand cmd bytes s
  | .tapReset => Sys2Proof.Machine.execTapReset s
  | .extest shift => Sys2Proof.Machine.execExtest shift s
  | .samplePreload shift => Sys2Proof.Machine.execSamplePreload shift s
  | .idcode => Sys2Proof.Machine.execIdcode s
  | .clamp => Sys2Proof.Machine.execClamp s
  | .highz => Sys2Proof.Machine.execHighz s
  | .bypass => Sys2Proof.Machine.execBypass s
  | .laneLockLoss p => Sys2Proof.Machine.execLaneLockLoss p s
  | .lossToleranceExpiry => Sys2Proof.Machine.execLossToleranceExpiry s
  | .perstNDeassert => Sys2Proof.Machine.execPerstNDeassert s
  | .pcieLinkUp width l => Sys2Proof.Machine.execPcieLinkUp width l s
  | .configurationRequest r => Sys2Proof.Machine.execConfigurationRequest r s
  | .notReadyRead space r => Sys2Proof.Machine.execNotReadyRead space r s
  | .mailboxResponse => Sys2Proof.Machine.execMailboxResponse s

end Sys2Proof.Machine
end

