-- ==== Sys2Proof/Machine/Tick.lean ====
section
/-!
DEFINITION. One CORE cycle in which no command acts (log entry 5): time passes for the LTB, held camera events and idle
cores, virzel ports send what they can, and the pads are evaluated.
-/

namespace Sys2Proof.Machine

/-- A core's cluster cycle ends: one with a resident heat and no issue counts as idle (CORE_IDLE, R261). -/
def coreCycle (s : State) (k : Nat) : State :=
  let s := if coreHeats s k ≠ 0 ∧ (coreOf s k).issues = 0 then inc64 s (Reg.coreIdleLo (k / 4) (k % 4)) 1 else s
  onCore s k fun x => { x with cycle := x.cycle + 1, issues := 0 }

/-- One CORE cycle of a cluster: a cluster cycle of its cores each time its clock divider comes round (R35, R603). -/
def clusterTick (s : State) (c : Nat) : State :=
  let n := (cluOf s c).phase + 1
  if 2 ^ hltClu s c 7 2 ≤ n then (List.range 4).foldl (fun s k => coreCycle s (4 * c + k)) (onCluster s c fun x => { x with phase := 0 })
  else onCluster s c fun x => { x with phase := n }

/-- One CORE cycle (R56, R488, R578, R669). -/
def coreTick (s : State) : State :=
  let d := cyclePeriod s
  let s := bankServe { ltbTick s d with cam := s.cam.map (camTick d) }
  pinSettle (vzlPump ((List.range 16).foldl clusterTick s))

/-- What the block does while no command waits: a CORE cycle, or nothing while its units do not run. -/
def idle (s : State) : Host.Outcome State Fault Refusal := clocked s (coreTick s)

end Sys2Proof.Machine
end

