-- ==== Sys2Proof/Safety.lean ====
section
/-!
DEFINITION. What a safe run of the block is, in the terms that the statements use: how a command is answered, which
commands need running units, what reset holds, and which kamir instruction each kamir row issues.
-/

namespace Sys2Proof.Machine

/-- The state that follows s when a command's effect is s': its cycle ends (the pads follow, interrupts are evaluated, the
schedulers see their candidates), and what no command of a unit
reaches keeps its value. -/
def after (s s' : State) : State := confine s (cycleEnd s s')

/-- The state that follows s where a command acts in every state, with effect s': its cycle ends while the HIU runs. -/
def afterAside (s s' : State) : State := confine s (if hiuRunning s then cycleEnd s s' else s')

/-- A command completes in a state. -/
def Completes (c : Instr) (s : State) : Prop := ∃ t, exec c s = .next t

/-- What SYS_RST_N holds while it is low (R639, R640): every unit of the FUNCTION scope in its reset state, and the memory
system's state and DRAM as after a reset of the DEVICE scope. -/
def UnitsReset (s : State) : Prop :=
  s.ltb = {} ∧ s.cfe = {} ∧ s.ctx = {} ∧ s.con = {} ∧ s.twin = {} ∧ s.mem = {} ∧ s.vzl = {} ∧ s.hlt = {} ∧ s.clu = {} ∧
    s.work = {} ∧ s.dsp = {} ∧ s.heap = List.replicate 128 {} ∧ s.cam = List.replicate 4 {} ∧ s.dram = []

/-- The invariant of reset: with SYS_RST_N low, the units are in their reset state. -/
def HeldInReset (s : State) : Prop := s.pmu.sysRstN = false → UnitsReset s

/-- Two states agree in every unit but the host interface and the pins; of the schedulers, in their settings and turns,
since what they note of their candidates goes on each cycle. -/
def SameUnits (s t : State) : Prop :=
  t.ltb = s.ltb ∧ t.cfe = s.cfe ∧ t.ctx = s.ctx ∧
    (t.con.ctrl = s.con.ctrl ∧ t.con.weight0 = s.con.weight0 ∧ t.con.weight1 = s.con.weight1 ∧ t.con.fetchLast = s.con.fetchLast) ∧
    t.twin = s.twin ∧ t.mem = s.mem ∧ t.vzl = s.vzl ∧
    t.hlt = s.hlt ∧ t.clu = s.clu ∧ t.work = s.work ∧ t.dsp = s.dsp ∧ t.heap = s.heap ∧ t.cam = s.cam ∧ t.dram = s.dram ∧
    t.aon = s.aon ∧ t.fuse = s.fuse ∧ t.grm = s.grm ∧ t.pmu = s.pmu

/-- Every register but those of a list, and but the outstanding bits of vectors, reads as before. -/
def RegsKept (s t : State) (offs : List Nat) : Prop :=
  ∀ off, (∀ i < 4, off ≠ Reg.hiuIrqAck i) → off ∉ offs → rd t off = rd s off

/-- The commands of the units outside the groomer's domain that run only while the device is out of reset, in ACTIVE and not tripped. -/
def unitCommand (i : Instr) : Bool :=
  match i with
  | .registerWrite _ _ _ => false
  | .pairLowRead _ _ => false
  | .pairHighRead _ _ => false
  | .pairLowWrite _ _ _ _ => false
  | .pairHighWrite _ _ _ _ => false
  | .broadcastWrite _ _ _ => false
  | .bar4Write _ _ => false
  | .bar4Read _ _ => false
  | .poisonedWrite _ _ _ => false
  | .cplError _ => true
  | .cplTimeout _ => true
  | .msixUnmask _ => false
  | .hiuIrqAck _ _ => false
  | .hiuSwint _ => false
  | .resizableBar _ => false
  | .lineEvent _ => true
  | .frameEvent _ => true
  | .fsyncInEdge => true
  | .lsyncInEdge => true
  | .synthesisedLineEvent _ => true
  | .sourceLost => true
  | .sourceRecovered => true
  | .ltbSrcWrite _ => false
  | .ltbEnable _ => false
  | .lsyncOutEnd => true
  | .fsyncOutEnd => true
  | .sqDoorbell _ _ _ => false
  | .cqRelease _ _ _ => false
  | .descriptorFetch => true
  | .cfeDispatch => true
  | .retirement => true
  | .ringEnable _ _ => false
  | .ringDisable _ _ => false
  | .nop => true
  | .signal => true
  | .wait _ _ => true
  | .timestamp => true
  | .checkpoint => true
  | .renderPass => true
  | .dispatch => true
  | .layer => true
  | .lift => true
  | .pack => true
  | .unpack => true
  | .commit _ => true
  | .scalerLoad _ => true
  | .cacheRangeClean => true
  | .cacheRangeInvalidate => true
  | .cacheRangeCleanInvalidate => true
  | .heapGrantBinChunk => true
  | .heapGrantReserve => true
  | .heapGrantDeny => true
  | .load => true
  | .teardown => true
  | .markLost => true
  | .query => true
  | .chain => true
  | .contextUpdate => true
  | .teardownRelease => true
  | .poisonWalk _ => true
  | .cancelStop _ _ _ => true
  | .watchdog _ _ => true
  | .ctx0Load _ => false
  | .syncInit _ => false
  | .waitSatisfied _ => true
  | .l2cSetway _ => false
  | .setwayDone => true
  | .mmuInv _ => false
  | .mmuInvDone => true
  | .windowAllocate => true
  | .sheetStreamApply _ => true
  | .liftComplete _ => true
  | .liftStop _ => true
  | .lp5Burst _ _ => true
  | .refresh _ _ => true
  | .blockPlace _ => true
  | .blockEnd _ => true
  | .preemption _ => true
  | .preemptSaveComplete _ => true
  | .blockRestore _ => true
  | .cluConfigApply _ => true
  | .variableResultWrite _ _ _ => true
  | .illegalInstruction _ _ => true
  | .icacheFill _ _ => true
  | .nopInstruction _ _ => true
  | .bra _ _ => true
  | .brx _ _ => true
  | .call _ _ => true
  | .ret _ _ => true
  | .exit _ _ => true
  | .bar _ _ => true
  | .dpush _ _ => true
  | .dsplit _ _ => true
  | .dnext _ _ => true
  | .dmask _ _ => true
  | .dspill _ _ => true
  | .dfill _ _ => true
  | .sadd _ _ => true
  | .ssub _ _ => true
  | .smul _ _ => true
  | .sand _ _ => true
  | .sor _ _ => true
  | .sxor _ _ => true
  | .sshl _ _ => true
  | .sshr _ _ => true
  | .ssra _ _ => true
  | .smin _ _ => true
  | .smax _ _ => true
  | .sminu _ _ => true
  | .smaxu _ _ => true
  | .smov _ _ => true
  | .sadd64 _ _ => true
  | .smovs _ _ => true
  | .pand _ _ => true
  | .por _ _ => true
  | .pxor _ _ => true
  | .pnot _ _ => true
  | .smovp _ _ => true
  | .pmovs _ _ => true
  | .fadd _ _ => true
  | .fmul _ _ => true
  | .ffma _ _ => true
  | .fmin _ _ => true
  | .fmax _ _ => true
  | .fsub _ _ => true
  | .frnd _ _ => true
  | .iadd _ _ => true
  | .isub _ _ => true
  | .imul _ _ => true
  | .imulh _ _ => true
  | .imad _ _ => true
  | .and _ _ => true
  | .or _ _ => true
  | .xor _ _ => true
  | .shl _ _ => true
  | .shr _ _ => true
  | .sra _ _ => true
  | .imin _ _ => true
  | .imax _ _ => true
  | .popc _ _ => true
  | .clz _ _ => true
  | .brev _ _ => true
  | .mov _ _ => true
  | .sel _ _ => true
  | .f2i _ _ => true
  | .f2u _ _ => true
  | .i2f _ _ => true
  | .u2f _ _ => true
  | .f2h _ _ => true
  | .h2f _ _ => true
  | .f2bf _ _ => true
  | .bf2f _ _ => true
  | .rcp _ _ => true
  | .rsq _ _ => true
  | .sqrt _ _ => true
  | .exp2 _ _ => true
  | .log2 _ _ => true
  | .sin _ _ => true
  | .cos _ _ => true
  | .fcmp _ _ => true
  | .icmp _ _ => true
  | .ucmp _ _ => true
  | .shfl _ _ => true
  | .vtos _ _ => true
  | .fredadd _ _ => true
  | .iredadd _ _ => true
  | .ld _ _ => true
  | .st _ _ => true
  | .lds _ _ => true
  | .aadd _ _ => true
  | .amin _ _ => true
  | .amax _ _ => true
  | .aminu _ _ => true
  | .amaxu _ _ => true
  | .aand _ _ => true
  | .aor _ _ => true
  | .axor _ _ => true
  | .axchg _ _ => true
  | .acas _ _ => true
  | .afadd _ _ => true
  | .fence _ _ => true
  | .sig _ _ => true
  | .swait _ _ => true
  | .swaitSatisfied _ _ => true
  | .alloc _ _ => true
  | .free _ _ => true
  | .tex _ _ => true
  | .tld _ _ => true
  | .tmma _ _ => true
  | .tout _ _ => true
  | .tclr _ _ => true
  | .liftInstruction _ _ => true
  | .tnsBegin _ => true
  | .tmmaComplete _ => true
  | .tmmaStop _ _ => true
  | .toutComplete _ => true
  | .tclrComplete _ => true
  | .stepStart _ _ => true
  | .stepComplete => true
  | .vertexBatchLaunch _ => true
  | .vertexBatchEnd _ => true
  | .patchTessellate => true
  | .primitiveSetup => true
  | .binPrimitive => true
  | .tileJobPlace _ => true
  | .fragmentHeatLaunch _ => true
  | .fragmentHeatEnd _ => true
  | .tileStore _ => true
  | .tileJobEnd _ => true
  | .sringEnable _ _ => false
  | .sringDisable _ _ => false
  | .stripDeadline _ => true
  | .dspPlaneMap _ _ => false
  | .dspScalerMap _ => false
  | .commitLatch _ => true
  | .scalerBankCopy _ => true
  | .scanoutLineFetch _ _ => true
  | .tgEnable _ _ => false
  | .tgPllLock _ => true
  | .tgDisable _ _ => false
  | .tgLineStart _ => true
  | .tgFrameEvent _ => true
  | .csiEnable _ _ => false
  | .csiDisable _ _ => false
  | .frameStart _ _ => true
  | .lineStart _ _ _ => true
  | .frameEnd _ _ => true
  | .longPacket _ _ _ _ _ _ => true
  | .csiEventRelease _ => true
  | .cmpPackBlock _ => true
  | .cmpUnpackBlock _ => true
  | .hltTwinEnable _ => false
  | .hello => true
  | .helloResend => true
  | .desc => true
  | .write => true
  | .sync => true
  | .lt => true
  | .twinLtEvent => true
  | .tgsync _ => true
  | .ckpt => true
  | .verdict => true
  | .repeatEnd _ => true
  | .loss => true
  | .echoRequest => true
  | .echo _ => true
  | .strip => true
  | .checkerTimeout _ => true
  | .resume _ => false
  | .mirrorThrottleRelease => true
  | .vzlRetrain _ _ => false
  | .trainingAdvance _ _ => true
  | .trainingTimeout _ => true
  | .dataFlit _ _ _ => true
  | .linkFlit _ _ _ => true
  | .nullFlit _ _ => true
  | .linkFlitSend _ _ => true
  | .nakRepeat _ => true
  | .replayTimeout _ => true
  | .packetForward => true
  | .vzlRead => true
  | .vzlWrite => true
  | .vzlAtomic => true
  | .vzlSignal => true
  | .resp => true
  | .vzlRequestTimeout _ => true
  | .katStart _ => true
  | .katEnd _ _ => true
  | .ladderSettle _ => true
  | .clusterPowerOff _ => true
  | .periodicSweep => true
  | .drainGraceExpiry => true
  | .calendarTick => false
  | .wakeIn => false
  | .vddAonRise => false
  | .agingMeasurement _ _ _ => true
  | .getVersion => false
  | .getBoot => false
  | .setCalendar => false
  | .setAlarm => false
  | .readCounters => false
  | .readLog => false
  | .requestKat => false
  | .requestDrain => false
  | .writeSnapshot => false
  | .fwInstall _ _ => false
  | .recordCommit _ => false
  | .snapshotTimer => false
  | .groomerWatchdog => false
  | .sysRstNAssert => false
  | .sysRstNDeassert _ => false
  | .mainRailDip => false
  | .perstNAssert => false
  | .hotReset => false
  | .linkDown => false
  | .functionLevelReset => false
  | .functionResetEnd => false
  | .bootRom _ _ => false
  | .firmwareCheck _ _ => false
  | .boardRecord _ => false
  | .lp5Training _ => false
  | .selfTestAndMap _ _ => false
  | .ready => false
  | .dvfsReevaluate => false
  | .dvfsChangeComplete => false
  | .powerSample _ => false
  | .thermalSample _ => false
  | .thermtrip _ => false
  | .pstateActive => false
  | .pstateStandby => false
  | .pstateOff => false
  | .standbyEntry => false
  | .standbyExit => false
  | .offReady => false
  | .pinCfgWrite _ _ => false
  | .pinSet _ _ => false
  | .pinClr _ _ => false
  | .pinTgl _ _ => false
  | .pinEnSet _ => false
  | .pinEnClr _ => false
  | .pinEnTgl _ => false
  | .pinInputChange _ _ => false
  | .debounceExpiry _ => false
  | .i2cXfer _ _ => false
  | .i2cDone _ _ => false
  | .i2cTimeout _ _ => false
  | .spitRead _ _ => true
  | .spitOtherCommand _ _ => true
  | .tapReset => false
  | .extest _ => false
  | .samplePreload _ => false
  | .idcode => false
  | .clamp => false
  | .highz => false
  | .bypass => false
  | .laneLockLoss _ => true
  | .lossToleranceExpiry => true
  | .perstNDeassert => false
  | .pcieLinkUp _ _ => false
  | .configurationRequest _ => false
  | .notReadyRead _ _ => false
  | .mailboxResponse => false

/-- A kamir row: its constructor, the opcode it issues (R272) and the effect. -/
structure KamirRow where
  instr : Fin 64 → Nat → Instr
  op : Nat
  effect : KEnv → KEnv

/-- Kamir rows, opcodes 0x00 to 0x0D. -/
def kamirControl : List KamirRow := [
  ⟨.nopInstruction, 0x00, kNop⟩,
  ⟨.bra, 0x01, kBra⟩,
  ⟨.brx, 0x02, kBrx⟩,
  ⟨.call, 0x03, kCall⟩,
  ⟨.ret, 0x04, kRet⟩,
  ⟨.exit, 0x05, kExit⟩,
  ⟨.bar, 0x06, kBar⟩,
  ⟨.dpush, 0x08, kDpush⟩,
  ⟨.dsplit, 0x09, kDsplit⟩,
  ⟨.dnext, 0x0A, kDnext⟩,
  ⟨.dmask, 0x0B, kDmask⟩,
  ⟨.dspill, 0x0C, kDspill⟩,
  ⟨.dfill, 0x0D, kDfill⟩]

/-- Kamir rows, opcodes 0x20 to 0x37. -/
def kamirScalar : List KamirRow := [
  ⟨.sadd, 0x20, (kScalar (fun a b => a + b))⟩,
  ⟨.ssub, 0x21, (kScalar (fun a b => a - b))⟩,
  ⟨.smul, 0x22, (kScalar (fun a b => a * b))⟩,
  ⟨.sand, 0x23, (kScalar (fun a b => a &&& b))⟩,
  ⟨.sor, 0x24, (kScalar (fun a b => a ||| b))⟩,
  ⟨.sxor, 0x25, (kScalar (fun a b => a ^^^ b))⟩,
  ⟨.sshl, 0x26, (kScalar shl32)⟩,
  ⟨.sshr, 0x27, (kScalar shr32)⟩,
  ⟨.ssra, 0x28, (kScalar sra32)⟩,
  ⟨.smin, 0x29, (kScalar smin32)⟩,
  ⟨.smax, 0x2A, (kScalar smax32)⟩,
  ⟨.sminu, 0x2B, (kScalar umin32)⟩,
  ⟨.smaxu, 0x2C, (kScalar umax32)⟩,
  ⟨.smov, 0x2D, (kScalar (fun _ b => b))⟩,
  ⟨.sadd64, 0x2E, kSadd64⟩,
  ⟨.smovs, 0x30, kSmovs⟩,
  ⟨.pand, 0x32, (kPred (fun a b => a &&& b))⟩,
  ⟨.por, 0x33, (kPred (fun a b => a ||| b))⟩,
  ⟨.pxor, 0x34, (kPred (fun a b => a ^^^ b))⟩,
  ⟨.pnot, 0x35, (kPred (fun a _ => ~~~a))⟩,
  ⟨.smovp, 0x36, kSmovp⟩,
  ⟨.pmovs, 0x37, kPmovs⟩]

/-- Kamir rows, opcodes 0x40 to 0x46. -/
def kamirFloat : List KamirRow := [
  ⟨.fadd, 0x40, (fun e => kVec2 (fAdd (kRnd e)) e)⟩,
  ⟨.fmul, 0x41, (fun e => kVec2 (fMul (kRnd e)) e)⟩,
  ⟨.ffma, 0x42, (fun e => kVec3 (fFma (kRnd e)) e)⟩,
  ⟨.fmin, 0x43, (kVec2 fMin)⟩,
  ⟨.fmax, 0x44, (kVec2 fMax)⟩,
  ⟨.fsub, 0x45, (fun e => kVec2 (fSub (kRnd e)) e)⟩,
  ⟨.frnd, 0x46, (fun e => kVec1 (fRnd (kRnd e)) e)⟩]

/-- Kamir rows, opcodes 0x50 to 0x61. -/
def kamirInteger : List KamirRow := [
  ⟨.iadd, 0x50, (kVec2 fun a b => a + b)⟩,
  ⟨.isub, 0x51, (kVec2 fun a b => a - b)⟩,
  ⟨.imul, 0x52, (kVec2 fun a b => a * b)⟩,
  ⟨.imulh, 0x53, (fun e => kVec2 (mulHigh (kBit62 e)) e)⟩,
  ⟨.imad, 0x54, (kVec3 fun a b c => a * b + c)⟩,
  ⟨.and, 0x55, (kVec2 fun a b => a &&& b)⟩,
  ⟨.or, 0x56, (kVec2 fun a b => a ||| b)⟩,
  ⟨.xor, 0x57, (kVec2 fun a b => a ^^^ b)⟩,
  ⟨.shl, 0x58, (kVec2 shl32)⟩,
  ⟨.shr, 0x59, (kVec2 shr32)⟩,
  ⟨.sra, 0x5A, (kVec2 sra32)⟩,
  ⟨.imin, 0x5B, (fun e => kVec2 (if kBit62 e then smin32 else umin32) e)⟩,
  ⟨.imax, 0x5C, (fun e => kVec2 (if kBit62 e then smax32 else umax32) e)⟩,
  ⟨.popc, 0x5D, (kVec1 popc32)⟩,
  ⟨.clz, 0x5E, (kVec1 clz32)⟩,
  ⟨.brev, 0x5F, (kVec1 brev32)⟩,
  ⟨.mov, 0x60, (kVec1 fun a => a)⟩,
  ⟨.sel, 0x61, kSel⟩]

/-- Kamir rows, opcodes 0x68 to 0x76. -/
def kamirConvert : List KamirRow := [
  ⟨.f2i, 0x68, (fun e => kVec1 (f2i (kRnd e)) e)⟩,
  ⟨.f2u, 0x69, (fun e => kVec1 (f2u (kRnd e)) e)⟩,
  ⟨.i2f, 0x6A, (fun e => kVec1 (fun a => intToF (kRnd e) a.toInt) e)⟩,
  ⟨.u2f, 0x6B, (fun e => kVec1 (fun a => intToF (kRnd e) a.toNat) e)⟩,
  ⟨.f2h, 0x6C, (fun e => kVec2 (packHalves fp16 (kRnd e)) e)⟩,
  ⟨.h2f, 0x6D, (fun e => kVec1 (fun a => fWiden fp16 (half (kBit62 e) a)) e)⟩,
  ⟨.f2bf, 0x6E, (fun e => kVec2 (packHalves bf16 (kRnd e)) e)⟩,
  ⟨.bf2f, 0x6F, (fun e => kVec1 (fun a => fWiden bf16 (half (kBit62 e) a)) e)⟩,
  ⟨.rcp, 0x70, (kVec1 fRcp)⟩,
  ⟨.rsq, 0x71, (kVec1 fRsq)⟩,
  ⟨.sqrt, 0x72, (kVec1 fSqrt)⟩,
  ⟨.exp2, 0x73, (kVec1 fExp2)⟩,
  ⟨.log2, 0x74, (kVec1 fLog2)⟩,
  ⟨.sin, 0x75, (kVec1 (fTrig 0))⟩,
  ⟨.cos, 0x76, (kVec1 (fTrig 1))⟩]

/-- Kamir rows, opcodes 0x80 to 0x8D. -/
def kamirCross : List KamirRow := [
  ⟨.fcmp, 0x80, (kCompare condFloat)⟩,
  ⟨.icmp, 0x81, (kCompare condSigned)⟩,
  ⟨.ucmp, 0x82, (kCompare condUnsigned)⟩,
  ⟨.shfl, 0x88, kShfl⟩,
  ⟨.vtos, 0x89, kVtos⟩,
  ⟨.fredadd, 0x8C, (kReduce (fAdd 0) 0x80000000)⟩,
  ⟨.iredadd, 0x8D, (kReduce (fun a b => a + b) 0)⟩]

/-- Kamir rows, opcodes 0xA0 to 0xC9. -/
def kamirMemory : List KamirRow := [
  ⟨.ld, 0xA0, kMemory⟩,
  ⟨.st, 0xA1, kMemory⟩,
  ⟨.lds, 0xA2, kMemory⟩,
  ⟨.aadd, 0xA8, kMemory⟩,
  ⟨.amin, 0xA9, kMemory⟩,
  ⟨.amax, 0xAA, kMemory⟩,
  ⟨.aminu, 0xAB, kMemory⟩,
  ⟨.amaxu, 0xAC, kMemory⟩,
  ⟨.aand, 0xAD, kMemory⟩,
  ⟨.aor, 0xAE, kMemory⟩,
  ⟨.axor, 0xAF, kMemory⟩,
  ⟨.axchg, 0xB0, kMemory⟩,
  ⟨.acas, 0xB1, kMemory⟩,
  ⟨.afadd, 0xB2, kMemory⟩,
  ⟨.fence, 0xB8, kFence⟩,
  ⟨.sig, 0xC0, kSig⟩,
  ⟨.swait, 0xC1, kSwait⟩,
  ⟨.alloc, 0xC8, kAlloc⟩,
  ⟨.free, 0xC9, kFree⟩]

/-- Kamir rows, opcodes 0xE0 to 0xF0. -/
def kamirEngine : List KamirRow := [
  ⟨.tex, 0xE0, kTexture⟩,
  ⟨.tld, 0xE1, kTexture⟩,
  ⟨.tmma, 0xE8, (fun e => tnsIssue .tmma (tmmaParams (lPar e 0) (lPar e 1) (lPar e 2) (lPar e 3) (lPar e 4)) e)⟩,
  ⟨.tout, 0xE9, (fun e => tnsIssue .tout (toutParams (lPar e 0) (lPar e 1) (lPar e 2)) e)⟩,
  ⟨.tclr, 0xEA, (fun e => tnsIssue .tclr (tclrParams (lPar e 0)) e)⟩,
  ⟨.liftInstruction, 0xF0, kLift⟩]

/-- Every kamir row. -/
def kamirRows : List KamirRow :=
  kamirControl ++ kamirScalar ++ kamirFloat ++ kamirInteger ++ kamirConvert ++ kamirCross ++ kamirMemory ++ kamirEngine

/-- A host request received now acts at once: the HIU serves requests, and no throttled write is ahead of it (R96, R540). -/
def HostServes (s : State) : Prop := hiuRunning s = true ∧ s.hiu.posted = []

/-- The next instruction of a resident heat: its block, the heat, the state after its fetch, and the instruction, which has
the opcode given, is legal and may issue (R247, R272, R285). -/
def KamirReady (s : State) (core age op : Nat) (b : Blk) (h : Heat) (s' : State) (i : KIns) : Prop :=
  running s = true ∧ findHeat s core age = some (b, h) ∧ fetchIns s b h = (s', .ins i) ∧ kOp i = op ∧
    nextIllegal b h i = false ∧ mayIssue s' b h i = true

/-- The byte that a read through the L2 finds at a PA: that of the L2 line that holds it, else that of DRAM. -/
def l2View (s : State) (a : Nat) : Byte :=
  match cacheFind (l2Set s (l2Key a)) (a / 128) with
  | some w => (((cacheWay (l2Set s (l2Key a)) w).map fun l => (l.data[a % 128]?).getD 0)).getD 0
  | none => memByte s.dram a

/-- The invariant of one L2 set: sixteen ways, whole lines of its own addresses, none twice, whose clean bytes are
those of DRAM. -/
def L2SetOk (s : State) (key : Nat) : Prop :=
  (l2Set s key).ways.length = 16 ∧
    ∀ (w : Nat) (l : Line), (l2Set s key).ways[w]? = some (some l) →
      l2Key (l.tag * 128) = key ∧ l.data.length = 128 ∧ l.dirty.length = 128 ∧
        (∀ o < 128, l.dirty[o]? = some false → l.data[o]? = some (memByte s.dram (l.tag * 128 + o))) ∧
        ∀ (w' : Nat) (l' : Line), (l2Set s key).ways[w']? = some (some l') → l'.tag = l.tag → w' = w

/-- The invariant of the L2. -/
def L2Ok (s : State) : Prop := ∀ key, L2SetOk s key

/-- Whether a BAR4 write is taken in now: served, within Max Payload Size, with room for its mirror records, in READY, and not a discarded host
write of a secondary (R103, R536, R540). -/
def bar4Taken (s : State) (off : BitVec 32) (bytes : List (Option Byte)) : Bool :=
  hiuRunning s && s.hiu.posted.isEmpty && decide (payloadBytes (.bar4Write off bytes) ≤ maxPayload s) &&
    bar4Fits s (bar4Base s) off.toNat bytes && ready s && !hostDropped s

/-- The PA at which a BAR4 write stores (R89). -/
def bar4Target (s : State) (off : BitVec 32) : Nat := bar4Addr s (bar4Base s) off.toNat

/-- The byte that a BAR4 write stores at a PA, if it stores one there (R89, R93). -/
def bar4Stored (s : State) (off : BitVec 32) (bytes : List (Option Byte)) (a : Nat) : Option Byte :=
  if bar4Taken s off bytes = true ∧ bar4Target s off ≤ a ∧ a < usable s then (bytes[a - bar4Target s off]?).getD none else none

/-- Writes of BAR0 registers that leave a state as it is, at an offset that is not half of a pair. -/
def WriteLeaves (s : State) (off : BitVec 25) : Prop :=
  ∀ v, exec (.registerWrite off [(15, v)] false) s = .next (after s s)

end Sys2Proof.Machine
end

