-- ==== Sys2Proof/Certificates/Slice0/Obligations.lean ====
section
/-!
DEFINITION. The statements for the provers. after, HostServes, KamirReady, UnitsReset, L2Ok and the other terms they use
stand in Sys2Proof/Safety.lean.
-/

open Sys2Proof Sys2Proof.Machine

/-- Every command of the host interface completes: exec answers the state that its effect gives. -/
def Obligations.HostAccessCommandsComplete : Prop :=
  (∀ s, HostServes s → ∀ (off : BitVec 25) (dws : List (BitVec 4 × Word)) (same : Bool),
      4 * dws.length ≤ maxPayload s → exec (.registerWrite off dws same) s =
      .next (after s (registerWrite s (dwordOff off) dws same))) ∧
  (∀ s, HostServes s → ∀ (off : BitVec 25) (be : BitVec 4), exec (.pairLowRead .host ⟨off, be⟩) s =
      .next (after s (bar0Read s (dwordOff off) be))) ∧
  (∀ s, running s = true → ∀ (off : BitVec 25) (be : BitVec 4), exec (.pairLowRead .spit ⟨off, be⟩) s =
      .next (after s (if spitOn s ∧ dwordOff off = Reg.aonCalLo then spitSent (spitRead s 0x024 1) else s))) ∧
  (∀ s, HostServes s → ∀ (off : BitVec 25) (be : BitVec 4), exec (.pairHighRead .host ⟨off, be⟩) s =
      .next (after s (bar0Read s (dwordOff off) be))) ∧
  (∀ s, running s = true → ∀ (off : BitVec 25) (be : BitVec 4), exec (.pairHighRead .spit ⟨off, be⟩) s =
      .next (after s (if spitOn s ∧ dwordOff off = Reg.aonCalHi then spitSent (spitRead s 0x028 1) else s))) ∧
  (∀ s, HostServes s → ∀ (off : BitVec 25) (be : BitVec 4) (data : Word),
      exec (.pairLowWrite .host off be data) s =
      .next (after s (bar0Write s (dwordOff off) be.toNat data))) ∧
  (∀ s, HostServes s → ∀ (off : BitVec 25) (be : BitVec 4) (data : Word),
      exec (.pairHighWrite .host off be data) s =
      .next (after s (bar0Write s (dwordOff off) be.toNat data))) ∧
  (∀ s, HostServes s → ∀ (off : BitVec 20) (be : BitVec 4) (data : Word), exec (.broadcastWrite off be data) s =
      .next (after s (bar0Write s (0xA00000 + off.toNat / 4 * 4) be.toNat data))) ∧
  (∀ s, HostServes s → ∀ (off : BitVec 32) (bytes : List (Option Byte)), bar4Fits s (bar4Base s) off.toNat bytes = true →
      payloadBytes (.bar4Write off bytes) ≤ maxPayload s → exec (.bar4Write off bytes) s =
      .next (after s (bar4Write s (bar4Base s) off.toNat bytes))) ∧
  (∀ s, HostServes s → ∀ (off : BitVec 32) (len : Fin 4097), exec (.bar4Read off len) s =
      .next (after s (bar4Read s (bar4Base s) off.toNat len.val))) ∧
  (∀ s, HostServes s → ∀ (space : Fin 3) (off : BitVec 32) (be : BitVec 4) (hdr : BitVec 128),
      exec (.poisonedWrite space off ⟨be, hdr⟩) s =
      .next (after s (poisonedWrite s space.val off.toNat be.toNat hdr))) ∧
  (∀ s, HostServes s → ∀ (w : MsixUnmask), exec (.msixUnmask w) s = .next (after s (msixUnmaskEffect s w))) ∧
  (∀ s, HostServes s → ∀ (k : Fin 4) (v : Word), exec (.hiuIrqAck k v) s = .next (after s (irqAck s k.val v))) ∧
  (∀ s, HostServes s → ∀ (v : Word), exec (.hiuSwint v) s = .next (after s (swInt s v))) ∧
  (∀ s, HostServes s → ∀ (log2 : Fin 64), exec (.resizableBar log2) s =
      .next (after s (resizableBarEffect s log2))) ∧
  (∀ s, HostServes s → ∀ (ring : Fin 64) (dw : Fin 1024) (dws : List (BitVec 4 × Word)),
      4 * dws.length ≤ maxPayload s → exec (.sqDoorbell ring dw dws) s =
      .next (after s (pageWrites s ring.val dw.val dws))) ∧
  (∀ s, HostServes s → ∀ (ring : Fin 64) (be : BitVec 4) (v : Word), exec (.cqRelease ring be v) s =
      .next (after s (cqRelease s ring.val be.toNat v))) ∧
  (∀ s, HostServes s → ∀ (ring : Fin 64) (v : Word), liveAt s (Reg.ringCfg ring.val) = true →
      exec (.ringEnable ring v) s =
      .next (after s (ringCfgWrite s ring.val (v ||| 1)))) ∧
  (∀ s, HostServes s → ∀ (ring : Fin 64) (v : Word), liveAt s (Reg.ringCfg ring.val) = true →
      exec (.ringDisable ring v) s =
      .next (after s (ringCfgWrite s ring.val (v &&& ~~~ 1)))) ∧
  (∀ s, running s = true → exec .mirrorThrottleRelease s = .next (after s (throttleRelease s))) ∧
  (∀ s, running s = true → ∀ (a : BitVec 24) (words : Nat), exec (.spitRead a words) s =
      .next (after s (if spitOn s then spitSent (spitRead s (a.toNat / 4 * 4) words) else s))) ∧
  (∀ s, running s = true → ∀ (cmd : Byte) (bytes : Nat), exec (.spitOtherCommand cmd bytes) s =
      .next (after s (if spitOn s ∧ cmd ≠ 0x0B then spitSent (s, List.replicate bytes 0) else s))) ∧
  (∀ s, HostServes s → ∀ (r : CfgReq), exec (.configurationRequest r) s = .next (after s (cfgRequest s r))) ∧
  (∀ s, HostServes s → ∀ (space : Fin 3) (off : BitVec 32) (bes : List (BitVec 4)), exec (.notReadyRead space ⟨off, bes⟩) s =
      .next (after s (barRead s (bar4Base s) space.val off.toNat bes)))

/-- Every command of the line timebase completes: exec answers the state that its effect gives. -/
def Obligations.LineTimeCommandsComplete : Prop :=
  (∀ s, running s = true → ∀ (src : Fin 11), exec (.lineEvent src) s =
      .next (after s (if src.val = 9 then s else sourceLine s src.val))) ∧
  (∀ s, running s = true → ∀ (src : Fin 11), exec (.frameEvent src) s = .next (after s (frameEventEffect s src))) ∧
  (∀ s, running s = true → exec (.synthesisedLineEvent none) s = .next (after s (ltSynthLine s))) ∧
  (∀ s, running s = true → ∀ (k : Fin 11), exec (.synthesisedLineEvent (some k)) s =
      .next (after s (posSynthLine s k))) ∧
  (∀ s, running s = true → exec .sourceLost s = .next (after s (if ltbLossDue s then ltbLose s else s))) ∧
  (∀ s, running s = true → exec .sourceRecovered s = .next (after s (ltbRecover s))) ∧
  (∀ s, HostServes s → ∀ (v : Word), liveAt s Reg.ltbSrc = true → exec (.ltbSrcWrite v) s =
      .next (after s (ltbSrcWrite s v))) ∧
  (∀ s, HostServes s → ∀ (v : Word), liveAt s Reg.ltbCtrl = true → exec (.ltbEnable v) s =
      .next (after s (ltbEnableWrite s v))) ∧
  (∀ s, running s = true → exec .lsyncOutEnd s = .next (after s (lsyncOutEndEffect s))) ∧
  (∀ s, running s = true → exec .fsyncOutEnd s = .next (after s (fsyncOutEndEffect s))) ∧
  (∀ s, running s = true → exec .lossToleranceExpiry s = .next (after s (ltbToleranceExpiry s)))

/-- Every command of the command engine and outbound reads completes: exec answers the state that its effect gives. -/
def Obligations.CommandEngineCommandsComplete : Prop :=
  (∀ s, running s = true → ∀ (r : OutReq), exec (.cplError r) s = .next (after s (cplFail s 5 r))) ∧
  (∀ s, running s = true → ∀ (r : OutReq), exec (.cplTimeout r) s =
      .next (after s (cplTimeout s r))) ∧
  (∀ s, running s = true → exec .descriptorFetch s = .next (after s (fetchStep s))) ∧
  (∀ s, running s = true → exec .cfeDispatch s = .next (after s (dispatchStep s))) ∧
  (∀ s, running s = true → exec .retirement s = .next (after s (retireStep s))) ∧
  (∀ s, running s = true → exec .nop s =
      .next (after s (cfeNext s 1 fun d s => retireDesc (unitDone s d.id 0) d.id))) ∧
  (∀ s, running s = true → exec .signal s = .next (after s (cfeNext s 2 signalDesc))) ∧
  (∀ s, running s = true → exec .timestamp s = .next (after s (cfeNext s 4 timestampDesc))) ∧
  (∀ s, running s = true → exec .chain s = .next (after s (chainEffect s))) ∧
  (∀ s, running s = true → ∀ (ring : Fin 64) (seq : Word) (units : Nat), exec (.cancelStop ring seq units) s =
      .next (after s (cancelStop s (descNamed s ring seq) units))) ∧
  (∀ s, running s = true → ∀ (ring : Fin 64) (seq : Word), exec (.watchdog ring seq) s =
      .next (after s (watchdogCheck s (descNamed s ring seq))))

/-- Every command of contexts and sync objects completes: exec answers the state that its effect gives. -/
def Obligations.ContextCommandsComplete : Prop :=
  (∀ s, running s = true → ∀ (ring : Fin 64) (seq : Word), exec (.wait ring seq) s =
      .next (after s (waitEffect s ring seq))) ∧
  (∀ s, running s = true → exec .load s = .next (after s (ctxStep s 1 ctxLoad))) ∧
  (∀ s, running s = true → exec .teardown s = .next (after s (ctxStep s 2 ctxTeardown))) ∧
  (∀ s, running s = true → exec .markLost s = .next (after s (markLostEffect s))) ∧
  (∀ s, running s = true → exec .query s = .next (after s (ctxStep s 4 ctxQuery))) ∧
  (∀ s, running s = true → exec .contextUpdate s = .next (after s (contextUpdateEffect s))) ∧
  (∀ s, running s = true → exec .teardownRelease s = .next (after s (teardownReleaseEffect s))) ∧
  (∀ s, running s = true → ∀ (c : Fin 128), exec (.poisonWalk c) s =
      .next (after s (walkOne c.val (walkOne c.val (walkOne c.val (walkOne c.val s)))))) ∧
  (∀ s, HostServes s → ∀ (v : Word), liveAt s Reg.ctx0Ctrl = true → exec (.ctx0Load v) s =
      .next (after s (ctx0Load s v))) ∧
  (∀ s, HostServes s → ∀ (v : Word), liveAt s Reg.ctxSyncInit = true → exec (.syncInit v) s =
      .next (after s (syncInit s v))) ∧
  (∀ s, running s = true → ∀ (obj : BitVec 16), exec (.waitSatisfied obj) s =
      .next (after s (waitSatisfiedEffect s obj)))

/-- Every command of the memory system, maintenance and bin grants completes: exec answers the state that its effect gives. -/
def Obligations.MemoryCommandsComplete : Prop :=
  (∀ s, running s = true → exec .cacheRangeClean s = .next (after s (cacheRange s 1))) ∧
  (∀ s, running s = true → exec .cacheRangeInvalidate s = .next (after s (cacheRange s 2))) ∧
  (∀ s, running s = true → exec .cacheRangeCleanInvalidate s = .next (after s (cacheRange s 3))) ∧
  (∀ s, running s = true → exec .heapGrantBinChunk s =
      .next (after s (grantStep s (fun d => decide (grantKind d = 0) && !grantDeny d) grantChunk))) ∧
  (∀ s, running s = true → exec .heapGrantReserve s =
      .next (after s (grantStep s (fun d => decide (grantKind d = 1)) grantReserve))) ∧
  (∀ s, running s = true → exec .heapGrantDeny s =
      .next (after s (grantStep s (fun d => decide (grantKind d = 0) && grantDeny d) grantDenial))) ∧
  (∀ s, HostServes s → ∀ (v : Word), liveAt s Reg.l2cSetway = true → exec (.l2cSetway v) s =
      .next (after s (setwayWrite s v))) ∧
  (∀ s, running s = true → exec .setwayDone s = .next (after s (setwayDoneEffect s))) ∧
  (∀ s, HostServes s → ∀ (v : Word), liveAt s Reg.mmuInv = true → exec (.mmuInv v) s =
      .next (after s (mmuInvWrite s v))) ∧
  (∀ s, running s = true → exec .mmuInvDone s = .next (after s (clrReg s Reg.mmuStatus 1))) ∧
  (∀ s, running s = true → ∀ (c : Fin 16), exec (.sheetStreamApply c) s = .next (after s (streamApply s c.val))) ∧
  (∀ s, running s = true → ∀ (ch : Fin 16) (ready : List Nat), exec (.lp5Burst ch ready) s =
      .next (after s (lpBurst s ch.val ready))) ∧
  (∀ s, running s = true → ∀ (ch : Fin 16) (derate : Bool), exec (.refresh ch derate) s =
      .next (after s (lpRefresh s ch.val derate)))

/-- Every command of blocks, heats in flight and instruction fetch completes: exec answers the state that its effect gives. -/
def Obligations.BlockCommandsComplete : Prop :=
  (∀ s, running s = true → exec .dispatch s = .next (after s (dispatchBegin s))) ∧
  (∀ s, running s = true → ∀ (core : Fin 64), exec (.blockPlace core) s = .next (after s (blockPlace s core.val))) ∧
  (∀ s, running s = true → ∀ (core : Fin 64), exec (.blockEnd core) s = .next (after s (blockEnd s core.val))) ∧
  (∀ s, running s = true → ∀ (core : Fin 64), exec (.preemption core) s = .next (after s (preempt s core.val))) ∧
  (∀ s, running s = true → ∀ (core : Fin 64), exec (.preemptSaveComplete core) s =
      .next (after s (preemptSave s core.val))) ∧
  (∀ s, running s = true → ∀ (core : Fin 64), exec (.blockRestore core) s =
      .next (after s (blockRestore s core.val))) ∧
  (∀ s, running s = true → ∀ (c : Fin 16), exec (.cluConfigApply c) s = .next (after s (cluConfigApply s c.val))) ∧
  (∀ s, running s = true → ∀ (core : Fin 64) (heat : Nat) (num : Nat),
      exec (.variableResultWrite core heat num) s =
      .next (after s (varResult s core.val heat num))) ∧
  (∀ s, running s = true → ∀ (core : Fin 64) (heat : Nat), exec (.illegalInstruction core heat) s =
      .next (after s (illegalNext s core.val heat))) ∧
  (∀ s, running s = true → ∀ (core : Fin 64) (heat : Nat), exec (.icacheFill core heat) s =
      .next (after s (icacheFill s core.val heat))) ∧
  (∀ s, running s = true → ∀ (core : Fin 64) (heat : Nat), exec (.swaitSatisfied core heat) s =
      .next (after s (swaitCheck s core.val heat)))

/-- Every command of TNS units, layer programs and lift moves completes: exec answers the state that its effect gives. -/
def Obligations.TensorAndLayerCommandsComplete : Prop :=
  (∀ s, running s = true → exec .layer s = .next (after s (layerBegin s))) ∧
  (∀ s, running s = true → exec .lift s = .next (after s (liftBegin s))) ∧
  (∀ s, running s = true → exec .windowAllocate s = .next (after s (windowAllocate s))) ∧
  (∀ s, running s = true → ∀ (c : Fin 16), exec (.liftComplete c) s =
      .next (after s (liftEngine c.val (liftFuel s c.val) s))) ∧
  (∀ s, running s = true → ∀ (c : Fin 16), exec (.liftStop c) s = .next (after s (liftStop s c.val))) ∧
  (∀ s, running s = true → ∀ (core : Fin 64), exec (.tnsBegin core) s = .next (after s (tnsBegin s core.val))) ∧
  (∀ s, running s = true → ∀ (core : Fin 64), exec (.tmmaComplete core) s =
      .next (after s (tmmaComplete s core.val))) ∧
  (∀ s, running s = true → ∀ (core : Fin 64) (groups : Nat), exec (.tmmaStop core groups) s =
      .next (after s (tmmaStop s core.val groups))) ∧
  (∀ s, running s = true → ∀ (core : Fin 64), exec (.toutComplete core) s =
      .next (after s (toutComplete s core.val))) ∧
  (∀ s, running s = true → ∀ (core : Fin 64), exec (.tclrComplete core) s =
      .next (after s (tclrComplete s core.val))) ∧
  (∀ s, running s = true → ∀ (c : Fin 16) (queue : Fin 5), exec (.stepStart c queue) s =
      .next (after s (stepStart s c.val queue.val))) ∧
  (∀ s, running s = true → exec .stepComplete s = .next (after s (stepComplete s)))

/-- Every command of geometry, tiles and strip rings completes: exec answers the state that its effect gives. -/
def Obligations.GeometryAndTileCommandsComplete : Prop :=
  (∀ s, running s = true → exec .renderPass s = .next (after s (geoTurn s))) ∧
  (∀ s, running s = true → ∀ (core : Fin 64), exec (.vertexBatchLaunch core) s =
      .next (after s (vertexLaunch s core.val))) ∧
  (∀ s, running s = true → ∀ (core : Fin 64), exec (.vertexBatchEnd core) s =
      .next (after s (vertexEnd s core.val))) ∧
  (∀ s, running s = true → exec .patchTessellate s = .next (after s (patchTessellate s))) ∧
  (∀ s, running s = true → exec .primitiveSetup s = .next (after s (primitiveSetup s))) ∧
  (∀ s, running s = true → exec .binPrimitive s = .next (after s (binPrimitive s))) ∧
  (∀ s, running s = true → ∀ (core : Fin 64), exec (.tileJobPlace core) s =
      .next (after s (tileJobPlace s core.val))) ∧
  (∀ s, running s = true → ∀ (core : Fin 64), exec (.fragmentHeatLaunch core) s =
      .next (after s (fragmentLaunch s core.val))) ∧
  (∀ s, running s = true → ∀ (core : Fin 64), exec (.fragmentHeatEnd core) s =
      .next (after s (fragmentEnd s core.val))) ∧
  (∀ s, running s = true → ∀ (core : Fin 64), exec (.tileStore core) s = .next (after s (tileStore s core.val))) ∧
  (∀ s, running s = true → ∀ (core : Fin 64), exec (.tileJobEnd core) s = .next (after s (tileJobEnd s core.val))) ∧
  (∀ s, HostServes s → ∀ (ring : Fin 16) (v : Word), liveAt s (Reg.sringCfg ring.val) = true →
      exec (.sringEnable ring v) s =
      .next (after s (sringCfgWrite s ring.val (v ||| 1)))) ∧
  (∀ s, HostServes s → ∀ (ring : Fin 16) (v : Word), liveAt s (Reg.sringCfg ring.val) = true →
      exec (.sringDisable ring v) s =
      .next (after s (sringCfgWrite s ring.val (v &&& ~~~ 1)))) ∧
  (∀ s, running s = true → ∀ (ring : Fin 16), exec (.stripDeadline ring) s =
      .next (after s (ringSettle (stripDeadlines s ring.val) ring.val)))

/-- Every command of the compression engine completes: exec answers the state that its effect gives. -/
def Obligations.CompressionCommandsComplete : Prop :=
  (∀ s, running s = true → exec .pack s = .next (after s (cmpTake s 0x0C))) ∧
  (∀ s, running s = true → exec .unpack s = .next (after s (cmpTake s 0x0D))) ∧
  (∀ s, running s = true → ∀ (inst : Fin 2), exec (.cmpPackBlock inst) s =
      .next (after s (cmpBlock s inst.val true))) ∧
  (∀ s, running s = true → ∀ (inst : Fin 2), exec (.cmpUnpackBlock inst) s =
      .next (after s (cmpBlock s inst.val false)))

/-- Every command of displays and cameras completes: exec answers the state that its effect gives. -/
def Obligations.DisplayAndCameraCommandsComplete : Prop :=
  (∀ s, running s = true → ∀ (m : Fin 4), exec (.commit m) s = .next (after s (commitRun s m.val))) ∧
  (∀ s, running s = true → ∀ (m : Fin 5) (id : DescId), (if m.val < 4 then outHead s m.val else loadsHead s) = some id →
      exec (.scalerLoad m) s =
      .next (after s (scalerLoad s m.val id))) ∧
  (∀ s, HostServes s → ∀ (k : Fin 2) (v : Word), liveAt s Reg.dspPlaneMap0 = true → exec (.dspPlaneMap k v) s =
      .next (after s (planeMapWrite s k.val v))) ∧
  (∀ s, HostServes s → ∀ (v : Word), liveAt s Reg.dspScalerMap = true → exec (.dspScalerMap v) s =
      .next (after s (scalerMapWrite s v))) ∧
  (∀ s, running s = true → ∀ (m : Fin 4), exec (.commitLatch m) s = .next (after s (latchDue s m.val))) ∧
  (∀ s, running s = true → ∀ (scaler : Fin 8), exec (.scalerBankCopy scaler) s =
      .next (after s (bankCopy s scaler.val))) ∧
  (∀ s, running s = true → ∀ (m : Fin 4) (plane : Fin 16), exec (.scanoutLineFetch m plane) s =
      .next (after s (scanFetch s m.val plane.val))) ∧
  (∀ s, HostServes s → ∀ (m : Fin 4) (v : Word), liveAt s (Reg.tgCtrl m.val) = true → exec (.tgEnable m v) s =
      .next (after s (tgCtrlWrite s m.val (v ||| 1)))) ∧
  (∀ s, running s = true → ∀ (m : Fin 4), exec (.tgPllLock m) s = .next (after s (tgPllLock s m.val))) ∧
  (∀ s, HostServes s → ∀ (m : Fin 4) (v : Word), liveAt s (Reg.tgCtrl m.val) = true → exec (.tgDisable m v) s =
      .next (after s (tgCtrlWrite s m.val (v &&& ~~~ 1)))) ∧
  (∀ s, running s = true → ∀ (m : Fin 4), exec (.tgLineStart m) s = .next (after s (tgLineStart s m.val))) ∧
  (∀ s, running s = true → ∀ (m : Fin 4), exec (.tgFrameEvent m) s = .next (after s (tgFrameEvent s m.val))) ∧
  (∀ s, HostServes s → ∀ (port : Fin 4) (v : Word), liveAt s (Reg.csiCtrl port.val) = true →
      exec (.csiEnable port v) s =
      .next (after s (csiCtrlWrite s port.val (v ||| 1)))) ∧
  (∀ s, HostServes s → ∀ (port : Fin 4) (v : Word), liveAt s (Reg.csiCtrl port.val) = true →
      exec (.csiDisable port v) s =
      .next (after s (csiCtrlWrite s port.val (v &&& ~~~ 1)))) ∧
  (∀ s, running s = true → ∀ (port : Fin 4) (h : CsiHdr), exec (.frameStart port h) s =
      .next (after s (frameStartEffect s port h))) ∧
  (∀ s, running s = true → ∀ (port : Fin 4) (h : CsiHdr) (long : Bool), exec (.lineStart port h long) s =
      .next (after s (lineStartEffect s port h long))) ∧
  (∀ s, running s = true → ∀ (port : Fin 4) (h : CsiHdr), exec (.frameEnd port h) s =
      .next (after s (frameEndEffect s port h))) ∧
  (∀ s, running s = true → ∀ (port : Fin 4) (h : CsiHdr) (dt : Fin 64) (crcOk : Bool) (bytes : List Byte) (accepted : Bool),
      exec (.longPacket port h dt crcOk bytes accepted) s =
      .next (after s (longPacketEffect s port h dt crcOk bytes accepted))) ∧
  (∀ s, running s = true → ∀ (port : Fin 4), exec (.csiEventRelease port) s =
      .next (after s (camDrain s port.val)))

/-- Every command of twin pairs completes: exec answers the state that its effect gives. -/
def Obligations.TwinCommandsComplete : Prop :=
  (∀ s, running s = true → exec .checkpoint s = .next (after s (checkpointEffect s))) ∧
  (∀ s, HostServes s → ∀ (v : Word), liveAt s Reg.hltTwinCtrl = true → exec (.hltTwinEnable v) s =
      .next (after s (twinCtrlWrite s v))) ∧
  (∀ s, running s = true → exec .hello s = .next (after s (recApply s 1 helloArrive))) ∧
  (∀ s, running s = true → exec .helloResend s =
      .next (after s (if portActive s 0 && !bit (rd0 s Reg.hltTwinStatus) 5 then vzlPump (sendHello s) else s))) ∧
  (∀ s, running s = true → exec .desc s = .next (after s (descEffect s))) ∧
  (∀ s, running s = true → exec .write s = .next (after s (recApply s 3 writeArrive))) ∧
  (∀ s, running s = true → exec .sync s = .next (after s (recApply s 4 syncArrive))) ∧
  (∀ s, running s = true → exec .lt s = .next (after s (recApply s 5 ltArrive))) ∧
  (∀ s, running s = true → exec .twinLtEvent s = .next (after s (twinLtEvent s))) ∧
  (∀ s, running s = true → ∀ (skew : BitVec 16), exec (.tgsync skew) s =
      .next (after s (recApply s 6 (tgsyncArrive skew)))) ∧
  (∀ s, running s = true → exec .ckpt s = .next (after s (recApply s 7 ckptArrive))) ∧
  (∀ s, running s = true → exec .verdict s = .next (after s (recApply s 8 verdictArrive))) ∧
  (∀ s, running s = true → ∀ (ring : Fin 64), exec (.repeatEnd ring) s =
      .next (after s (vzlPump (repeatEnd s ring.val)))) ∧
  (∀ s, running s = true → exec .loss s = .next (after s (recApply s 9 lossArrive))) ∧
  (∀ s, running s = true → exec .echoRequest s = .next (after s (vzlPump (echoRequest s)))) ∧
  (∀ s, running s = true → ∀ (trip : Nat), exec (.echo trip) s =
      .next (after s (recApply s 10 (echoArrive trip)))) ∧
  (∀ s, running s = true → exec .strip s = .next (after s (recApply s 11 stripArrive))) ∧
  (∀ s, running s = true → ∀ (ring : Fin 64), exec (.checkerTimeout ring) s =
      .next (after s (vzlPump (checkerTimeout s ring.val)))) ∧
  (∀ s, HostServes s → ∀ (v : Word), liveAt s Reg.hltTwinCmd = true → exec (.resume v) s =
      .next (after s (twinResume s v))) ∧
  (∀ s, running s = true → ∀ (c : Fin 16) (pass : Bool), exec (.katEnd c pass) s =
      .next (after s (vzlPump (exchangeTested (katEnd s c.val pass)))))

/-- Every command of the virzel fabric completes: exec answers the state that its effect gives. -/
def Obligations.FabricCommandsComplete : Prop :=
  (∀ s, HostServes s → ∀ (p : Fin 4) (v : Word), liveAt s (Reg.vzlportCtrl p.val) = true →
      exec (.vzlRetrain p v) s =
      .next (after s (portCtrlWrite s p.val (v ||| 1)))) ∧
  (∀ s, running s = true → ∀ (p : Fin 4) (e : TrainEvent), exec (.trainingAdvance p e) s =
      .next (after s (vzlPump (trainAdvance s p.val e)))) ∧
  (∀ s, running s = true → ∀ (p : Fin 4), exec (.trainingTimeout p) s =
      .next (after s (trainingTimeoutEffect s p))) ∧
  (∀ s, running s = true → ∀ (p : Fin 4) (num : BitVec 10) (gap : Nat) (wire : BitVec 256),
      exec (.dataFlit p num ⟨gap, wire⟩) s =
      .next (after s (vzlPump (rxData s p.val num.toNat gap wire)))) ∧
  (∀ s, running s = true → ∀ (p : Fin 4) (gap : Nat) (wire : BitVec 256), exec (.linkFlit p gap wire) s =
      .next (after s (vzlPump (rxLink s p.val gap wire)))) ∧
  (∀ s, running s = true → ∀ (p : Fin 4) (gap : Nat) (wire : BitVec 256), exec (.nullFlit p ⟨gap, wire⟩) s =
      .next (after s (vzlPump (rxNull s p.val gap wire)))) ∧
  (∀ s, running s = true → ∀ (p : Fin 4) (gap : Nat), exec (.linkFlitSend p gap) s =
      .next (after s (linkSend s p.val gap))) ∧
  (∀ s, running s = true → ∀ (p : Fin 4), exec (.nakRepeat p) s =
      .next (after s (if portActive s p.val && (vzlPort s p.val).nak then onPort s p.val fun x => { x with sayNak := true } else s))) ∧
  (∀ s, running s = true → ∀ (p : Fin 4), exec (.replayTimeout p) s =
      .next (after s (if portActive s p.val then resend s p.val else s))) ∧
  (∀ s, running s = true → exec .packetForward s = .next (after s (packetForward s))) ∧
  (∀ s, running s = true → exec .vzlRead s = .next (after s (serve s 1 serveRead))) ∧
  (∀ s, running s = true → exec .vzlWrite s = .next (after s (serve s 2 serveWrite))) ∧
  (∀ s, running s = true → exec .vzlAtomic s = .next (after s (serve s 3 serveAtomic))) ∧
  (∀ s, running s = true → exec .vzlSignal s = .next (after s (serve s 4 serveSignal))) ∧
  (∀ s, running s = true → exec .resp s = .next (after s (takeResponse s))) ∧
  (∀ s, running s = true → ∀ (tag : Fin 1024), exec (.vzlRequestTimeout tag) s =
      .next (after s (requestTimeout s tag.val))) ∧
  (∀ s, running s = true → ∀ (p : Fin 4), exec (.laneLockLoss p) s = .next (after s (portRetrain s p.val)))

/-- Every command of device health, the calendar and the groomer completes: exec answers the state that its effect gives. -/
def Obligations.HealthAndGroomerCommandsComplete : Prop :=
  (∀ s, running s = true → ∀ (c : Fin 16), exec (.katStart c) s = .next (after s (katStart s c.val))) ∧
  (∀ s, running s = true → ∀ (c : Fin 16), exec (.ladderSettle c) s = .next (after s (ladderSettle s c.val))) ∧
  (∀ s, running s = true → ∀ (c : Fin 16), exec (.clusterPowerOff c) s = .next (after s (clusterOff s c.val))) ∧
  (∀ s, running s = true → exec .periodicSweep s =
      .next (after s (if rdF s Reg.hltPolicy2 0 8 = 0 then s else katSweep s .periodic))) ∧
  (∀ s, running s = true → exec .drainGraceExpiry s = .next (after s (drainGrace s))) ∧
  (∀ s, exec .calendarTick s =
      .next (afterAside s (calendarTick s))) ∧
  (∀ s, exec .wakeIn s = .next (afterAside s (wake s 2))) ∧
  (∀ s, running s = true → ∀ (c : Fin 16) (base : Nat) (f : Nat), exec (.agingMeasurement c base f) s =
      .next (after s (agingMeasure s c.val base f))) ∧
  (∀ s, hiuRunning s = true → exec .getVersion s = .next (after s (takeUp s 1 getVersionEffect))) ∧
  (∀ s, hiuRunning s = true → exec .getBoot s =
      .next (after s (takeUp s 2 (fun s => reply s 0 (rdF s Reg.grmStatus 2 4 + rdF s Reg.grmStatus 8 4 * 2 ^ 8) [s.grm.jedec % 2 ^ 24])))) ∧
  (∀ s, hiuRunning s = true → exec .setCalendar s = .next (after s (takeUp s 3 setCalendarEffect))) ∧
  (∀ s, hiuRunning s = true → exec .setAlarm s = .next (after s (takeUp s 4 setAlarmEffect))) ∧
  (∀ s, hiuRunning s = true → exec .readCounters s = .next (after s (takeUp s 5 readCountersEffect))) ∧
  (∀ s, hiuRunning s = true → exec .readLog s = .next (after s (takeUp s 6 readLogEffect))) ∧
  (∀ s, hiuRunning s = true → exec .requestKat s = .next (after s (takeUp s 7 requestKatEffect))) ∧
  (∀ s, hiuRunning s = true → exec .requestDrain s =
      .next (after s (takeUp s 8 (fun s => if draining s then reply s 3 0 [] else reply (drainBegin s 4) 0 0 [])))) ∧
  (∀ s, hiuRunning s = true → exec .writeSnapshot s = .next (after s (takeUp s 9 writeSnapshotEffect))) ∧
  (∀ s, hiuRunning s = true → ∀ (sigOk : Bool) (flashOk : Bool), exec (.fwInstall sigOk flashOk) s =
      .next (after s (takeUp s 10 (fun s => fwInstall s sigOk flashOk)))) ∧
  (∀ s, hiuRunning s = true → ∀ (fails : Fin 3), exec (.recordCommit fails) s =
      .next (after s (recordCommit s fails.val))) ∧
  (∀ s, hiuRunning s = true → exec .snapshotTimer s = .next (after s (if fwRunning s then snapshotSet s else s))) ∧
  (∀ s, hiuRunning s = true → exec .mailboxResponse s = .next (after s (mailboxResponse s)))

/-- Every command of resets and start-up completes: exec answers the state that its effect gives. -/
def Obligations.ResetAndStartUpCommandsComplete : Prop :=
  (∀ s, exec .vddAonRise s =
      .next (onPmu (onHiu (deviceReset { s with aon := {} }) fun h => { h with perstN := false })
        fun p => { p with sysRstN := false, rails := false })) ∧
  (∀ s, exec .groomerWatchdog s =
      .next (afterAside s (if fwRunning s && s.pmu.sysRstN then pinSettle (startUp (deviceReset s)) else s))) ∧
  (∀ s, exec .sysRstNAssert s = .next (onPmu (deviceReset s) fun p => { p with sysRstN := false })) ∧
  (∀ s (straps : BitVec 3), s.pmu.sysRstN = false →
      ∃ t, exec (.sysRstNDeassert straps) s =
      .next t ∧ t = afterAside (sysRstRise s straps) (pinSettle (startUp (sysRstRise s straps)))) ∧
  (∀ s, ∃ t, exec .mainRailDip s =
      .next t ∧ t.pmu.rails = false ∧ t.pmu.sysRstN = s.pmu.sysRstN ∧ t.dram = [] ∧
      (s.pmu.sysRstN = true → t.pmu.stage = some 0)) ∧
  (∀ s, exec .perstNAssert s =
      .next (afterAside s (functionReset s .perst))) ∧
  (∀ s, hiuRunning s = true → exec .hotReset s = .next (after s (functionReset s .hot))) ∧
  (∀ s, hiuRunning s = true → exec .linkDown s = .next (after s (functionReset s .linkDown))) ∧
  (∀ s, hiuRunning s = true → exec .functionLevelReset s =
      .next (after s (if cfgRetry s then answer s .cfgRetry else functionReset s .flr))) ∧
  (∀ s, hiuRunning s = true → exec .functionResetEnd s = .next (after s (functionResetEnd s))) ∧
  (∀ s, hiuRunning s = true → ∀ (pllOk : Bool) (jedec : Option (BitVec 24)), exec (.bootRom pllOk jedec) s =
      .next (after s (bootRom s pllOk jedec))) ∧
  (∀ s, hiuRunning s = true → ∀ (sig0 : Bool) (sig1 : Bool), exec (.firmwareCheck sig0 sig1) s =
      .next (after s (firmwareCheck s sig0 sig1))) ∧
  (∀ s, hiuRunning s = true → ∀ (pmbus : Bool), exec (.boardRecord pmbus) s =
      .next (after s (boardRecord s pmbus))) ∧
  (∀ s, hiuRunning s = true → ∀ (ok : Bool), exec (.lp5Training ok) s = .next (after s (lp5Training s ok))) ∧
  (∀ s, hiuRunning s = true → ∀ (uncore : Bool) (fails : List Nat), exec (.selfTestAndMap uncore fails) s =
      .next (after s (selfTest s uncore fails))) ∧
  (∀ s, hiuRunning s = true → exec .ready s = .next (after s (readyStep s))) ∧
  (∀ s, exec .perstNDeassert s =
      .next (afterAside s (onHiu s fun h => if h.perstN then h else { h with perstN := true, link := .training }))) ∧
  (∀ s, hiuRunning s = true → ∀ (width : Fin 9) (rate : Fin 5) (replays rxErrs : Nat),
      exec (.pcieLinkUp width ⟨rate, replays, rxErrs⟩) s =
      .next (after s (linkCounts (linkUp s width.val rate.val) replays rxErrs)))

/-- Every command of power, clocks and power states completes: exec answers the state that its effect gives. -/
def Obligations.PowerCommandsComplete : Prop :=
  (∀ s, grmRunning s = true → exec .dvfsReevaluate s = .next (after s (dvfsReevaluate s))) ∧
  (∀ s, grmRunning s = true → exec .dvfsChangeComplete s = .next (after s (dvfsComplete s))) ∧
  (∀ s, grmRunning s = true → ∀ (r : Option PmbusSample), exec (.powerSample r) s =
      .next (after s (if loopsRun s then powerSample s r else s))) ∧
  (∀ s, grmRunning s = true → ∀ (temps : List (BitVec 16)), exec (.thermalSample temps) s =
      .next (after s (if loopsRun s then thermalSample s temps else s))) ∧
  (∀ s, hiuRunning s = true → ∀ (sensor : Fin 20), exec (.thermtrip sensor) s = .next (after s (thermTrip s))) ∧
  (∀ s, HostServes s → liveAt s Reg.pmuPstate = true → exec .pstateActive s = .next (after s (pstateWrite s 0))) ∧
  (∀ s, HostServes s → liveAt s Reg.pmuPstate = true → exec .pstateStandby s = .next (after s (pstateWrite s 1))) ∧
  (∀ s, HostServes s → liveAt s Reg.pmuPstate = true → exec .pstateOff s = .next (after s (pstateWrite s 2))) ∧
  (∀ s, hiuRunning s = true → exec .standbyEntry s = .next (after s (standbyEntry s))) ∧
  (∀ s, hiuRunning s = true → exec .standbyExit s = .next (after s (standbyExit s))) ∧
  (∀ s, hiuRunning s = true → exec .offReady s = .next (after s (offReady s)))

/-- Every command of pins, I2C and the test access port completes: exec answers the state that its effect gives. -/
def Obligations.PinCommandsComplete : Prop :=
  (∀ s, running s = true → exec .fsyncInEdge s = .next (after s (fsyncEdge s))) ∧
  (∀ s, running s = true → exec .lsyncInEdge s =
      .next (after s (if lsyncPending s then sourceLine (onLtb s fun x => { x with lsyncSeen := !lsyncIdle s }) 8 else s))) ∧
  (∀ s, HostServes s → ∀ (k : Fin 64) (v : Word), liveAt s (Reg.pinCfg k.val) = true → exec (.pinCfgWrite k v) s =
      .next (after s (pinCfgWrite s k.val v))) ∧
  (∀ s, HostServes s → ∀ (b : Fin 8) (v : Word), liveAt s (Reg.pinSet b.val) = true → exec (.pinSet b v) s =
      .next (after s (pinOutWrite s b.val (fun o m => o ||| m) v))) ∧
  (∀ s, HostServes s → ∀ (b : Fin 8) (v : Word), liveAt s (Reg.pinClr b.val) = true → exec (.pinClr b v) s =
      .next (after s (pinOutWrite s b.val (fun o m => o &&& ~~~ m) v))) ∧
  (∀ s, HostServes s → ∀ (b : Fin 8) (v : Word), liveAt s (Reg.pinTgl b.val) = true → exec (.pinTgl b v) s =
      .next (after s (pinOutWrite s b.val (fun o m => o ^^^ m) v))) ∧
  (∀ s, HostServes s → ∀ (v : Word), liveAt s Reg.pinEnSet = true → exec (.pinEnSet v) s =
      .next (after s (pinEnWrite s (fun o m => o ||| m) v))) ∧
  (∀ s, HostServes s → ∀ (v : Word), liveAt s Reg.pinEnClr = true → exec (.pinEnClr v) s =
      .next (after s (pinEnWrite s (fun o m => o &&& ~~~ m) v))) ∧
  (∀ s, HostServes s → ∀ (v : Word), liveAt s Reg.pinEnTgl = true → exec (.pinEnTgl v) s =
      .next (after s (pinEnWrite s (fun o m => o ^^^ m) v))) ∧
  (∀ s, ∀ (k : Fin 64) (v : Option Bool), exec (.pinInputChange k v) s =
      .next (afterAside s (pinSettle (onPins s fun p => { p with ext := setAt p.ext k.val v })))) ∧
  (∀ s, hiuRunning s = true → ∀ (k : Fin 64), exec (.debounceExpiry k) s =
      .next (after s (if rdF s (Reg.pinCfg k.val) 13 1 = 1 then pinShow s k.val else s))) ∧
  (∀ s, HostServes s → ∀ (n : Fin 2) (v : Word), liveAt s (Reg.i2cXfer n.val) = true → exec (.i2cXfer n v) s =
      .next (after s (i2cStart s n.val v))) ∧
  (∀ s, hiuRunning s = true → ∀ (n : Fin 2) (r : I2cReply), exec (.i2cDone n r) s =
      .next (after s (i2cDone s n.val r))) ∧
  (∀ s, hiuRunning s = true → ∀ (n : Fin 2) (bytes : List Byte), exec (.i2cTimeout n bytes) s =
      .next (after s (i2cTimeoutEffect s n bytes))) ∧
  (∀ s, exec .tapReset s =
      .next (afterAside s (tapSelect s 2))) ∧
  (∀ s, ∀ (shift : BitVec 198), exec (.extest shift) s =
      .next (afterAside s (extestEffect s shift))) ∧
  (∀ (s : State) (shift : BitVec 198), exec (.samplePreload shift) s =
      .next (afterAside s (tapSelect (onPins s fun p => { p with tdo := boundaryCapture s, boundary := shift }) 1))) ∧
  (∀ s, exec .idcode s =
      .next (afterAside s (onPins (tapSelect s 2) fun p => { p with tdo := 0x1006478B }))) ∧
  (∀ s, exec .clamp s = .next (afterAside s (tapSelect s 3))) ∧
  (∀ s, exec .highz s = .next (afterAside s (tapSelect s 4))) ∧
  (∀ s, exec .bypass s =
      .next (afterAside s (tapSelect s 15)))

/-- Every kamir row issues the next instruction of its opcode. -/
def Obligations.KamirRowsIssue : Prop :=
  ∀ r ∈ kamirRows, ∀ (core : Fin 64) (age : Nat) (s : State) (b : Blk) (h : Heat) (s' : State) (i : KIns),
    KamirReady s core.val age r.op b h s' i → exec (r.instr core age) s = .next (after s (heatIssue s' b h i r.effect))

/-- A step is the execution of the queue's front command on the state with the queue's rest (the form of the model, log entry 4). -/
def Obligations.StepRunsTheFrontCommand : Prop :=
  ∀ (c : Instr) (s : State), step { s with pending := c :: s.pending } = exec c s

/-- With no command waiting, one CORE cycle passes if the units run (the model's choice, log entry 5). -/
def Obligations.EmptyQueuePassesOneCycle : Prop :=
  ∀ s : State, s.pending = [] → step s = if running s then .next (after s (coreTick s)) else .next s

/-- No command faults or is refused; the queue is never touched, and SYS_RST_N moves only by its own commands and VDD_AON_RISE. -/
def Obligations.EveryCommandAnswersANextState : Prop :=
  ∀ (c : Instr) (s : State), ∃ t, exec c s = .next t ∧ t.pending = s.pending ∧
    ((c = .vddAonRise ∨ c = .sysRstNAssert ∨ ∃ straps, c = .sysRstNDeassert straps) ∨ t.pmu.sysRstN = s.pmu.sysRstN)

/-- While the units do not run (reset, STANDBY, a trip), a command of theirs changes nothing (log entry 6). -/
def Obligations.StoppedUnitsIgnoreCommands : Prop :=
  ∀ (c : Instr) (s : State), unitCommand c = true → running s = false → exec c s = .next s

/-- Invariant: with SYS_RST_N low, the units stand in their reset state, whatever commands come (DRAM empty: log entry 21). -/
def Obligations.StepKeepsUnitsHeldInReset : Prop :=
  ∀ s t : State, HeldInReset s → step s = .next t → HeldInReset t

/-- State.reset meets the invariants of the other statements. -/
def Obligations.ResetHoldsTheUnits : Prop :=
  State.reset.pmu.sysRstN = false ∧ running State.reset = false ∧ HeldInReset State.reset ∧ State.reset.pending = [] ∧
    L2Ok State.reset ∧ memWf State.reset.dram = true ∧ storeWf regReset State.reset.regs = true

/-- Reset values of registers of several units. -/
def Obligations.ResetRegisterValues : Prop :=
  rd State.reset Reg.ltbCtrl = 1 ∧ rd State.reset Reg.ltbSrc = 0xFF ∧ rd State.reset Reg.ltbNominal = 0x2EE ∧
    rd State.reset Reg.ltbNomPeriod = 0xD555 ∧ (∀ n : Fin 64, rd State.reset (Reg.ringLimit n.val) = 0x40) ∧
    rd State.reset Reg.l2cCtrl = 0x30 ∧ rd State.reset Reg.conCtrl = 4 ∧ rd State.reset Reg.vzlCtrl = 0x8800 ∧
    rd State.reset Reg.hltEcho = 0x400010 ∧ rd State.reset Reg.hiuStatus = 0 ∧ rd State.reset Reg.hiuErr = 0 ∧
    rd State.reset Reg.cfeErr = 0 ∧ rd State.reset Reg.ltbEvents = 0 ∧ ∀ k : Fin 4, rd State.reset (Reg.hiuIrqAck k.val) = 0

/-- R17: an unassigned offset reads 0 and ignores writes. -/
def Obligations.UnassignedOffsetsReadZero : Prop :=
  ∀ (s : State) (off : BitVec 25), HostServes s → off.toNat % 4 = 0 → inBroadcast off.toNat = false →
    liveAt s off.toNat = true → assigned off.toNat = false →
    (∀ v, exec (.registerWrite off [(15, v)] false) s = .next (after s s)) ∧
      exec (.notReadyRead 0 ⟨off.setWidth 32, [15]⟩) s = .next (after s (answer s (.data 0)))

/-- R39 to R41: a broadcast write is a write of each cluster in service, and a removed cluster's range reads 0. -/
def Obligations.ClusterRangesFollowTheMap : Prop :=
  (∀ (s : State) (off : BitVec 20) (v : Word), HostServes s → ready s = true →
    exec (.broadcastWrite off 15 v) s = .next (after s ((clustersInService s).foldl
        (fun u c => dwordWrite u (0x1000000 + c * 0x100000 + off.toNat / 4 * 4) v) s)) ∧
      (clustersInService s = [] → exec (.broadcastWrite off 15 v) s = .next (after s s))) ∧
  ∀ (s : State) (off : BitVec 25), HostServes s → off.toNat % 4 = 0 → liveAt s off.toNat = true →
    inRemovedCluster s off.toNat = true →
    (∀ v, exec (.registerWrite off [(15, v)] false) s = .next (after s s)) ∧
      exec (.notReadyRead 0 ⟨off.setWidth 32, [15]⟩) s = .next (after s (answer s (.data 0)))

/-- R14 to R16: what a write of a register without an effect of its own stores, and its frame. -/
def Obligations.PlainRegisterWriteStoresItsFields : Prop :=
  ∀ (s : State) (off : BitVec 25) (v : Word) (r : RegRow) (i j : Nat), HostServes s → off.toNat % 4 = 0 →
    liveAt s off.toNat = true → inBroadcast off.toNat = false → regFind off.toNat = some (r, i, j) → r.pair = .single →
    writeIgnored s off.toNat = false → actWrite0 s off.toNat v = none → actWrite1 s off.toNat v = none →
    actWrite2 s off.toNat v = none → (∀ k < 4, off.toNat ≠ Reg.hiuIrqAck k) →
    ∃ t, exec (.registerWrite off [(15, v)] false) s = .next t ∧ RegsKept s t [off.toNat] ∧ SameUnits s t ∧ t.pins = s.pins ∧
      ∀ k < 32, bit (rd t off.toNat) k =
        if r.w1s.testBit k && bit v k then true
        else if r.w1c.testBit k && bit v k then false
        else if r.rw.testBit k || (r.rwl.testBit k && !(decide (r.lock ≠ 0) && bit (rd0 s (r.lock + r.lockStep * i)) 0))
          then bit v k
        else bit (rd s off.toNat) k

/-- R15: a lock bit is W1S. -/
def Obligations.LockBitsStaySet : Prop :=
  ∀ off ∈ [Reg.ltbLock, Reg.ctxLock, Reg.l2cLock, Reg.memLock, Reg.heapLock, Reg.conLock, Reg.hltTwinLock, Reg.vzlLock,
      Reg.hltLock, Reg.pmuLock],
    ∀ (s : State) (v : Word), HostServes s → ready s = true →
      ∃ t, exec (.registerWrite (BitVec.ofNat 25 off) [(15, v)] false) s = .next t ∧ bit (rd t off) 0 = (bit (rd s off) 0 || bit v 0)

/-- Registers that ignore writes while their unit fixes them. -/
def Obligations.WritesThatAreIgnored : Prop :=
  ∀ (s : State) (off : BitVec 25) (v : Word), HostServes s → ready s = true → off.toNat % 4 = 0 →
    inBroadcast off.toNat = false → pairHalf off.toNat = .single →
    ((shadowHome off.toNat).isSome = true ∨
      (∃ m < 4, tgEnabled s m = true ∧ Reg.tgCtrl m < off.toNat ∧ off.toNat ≤ Reg.dsiPktDelay m) ∨
      (∃ n < 4, csiEnabled s n = true ∧ Reg.csiCtrl n < off.toNat ∧ off.toNat < Reg.csiFeSignal n) ∨
      (∃ n < 16, sringOn s n = true ∧ (off.toNat = Reg.sringSize n ∨ off.toNat = Reg.sringY0 n)) ∨
      (∃ k < 64, off.toNat = Reg.grmReq k ∧ grmBusy s = true) ∨
      (∃ n < 2, i2cHost s n = false ∧ Reg.i2cCfg n ≤ off.toNat ∧ off.toNat < Reg.i2cCfg (n + 1))) →
    exec (.registerWrite off [(15, v)] false) s = .next (after s s)

/-- R233 and R139: base registers in use ignore writes. -/
def Obligations.FixedPairsIgnoreWrites : Prop :=
  ∀ (s : State) (v : Word), HostServes s → ready s = true →
    (∀ c : Fin 128, rd0 s (Reg.heapUnits c.val) ≠ 0 → ∃ t,
      exec (.pairHighWrite .host (BitVec.ofNat 25 (Reg.heapVaBaseHi c.val)) 15 v) s = .next t ∧
        RegsKept s t [] ∧ SameUnits s t ∧ t.pins = s.pins) ∧
    ∀ n : Fin 64, ringEnabled s n.val = true → ∀ off ∈ [Reg.ringSqBaseHi n.val, Reg.ringCqBaseHi n.val], ∃ t,
      exec (.pairHighWrite .host (BitVec.ofNat 25 off) 15 v) s = .next t ∧ RegsKept s t [] ∧ SameUnits s t ∧ t.pins = s.pins

/-- R19 and R20: captures of pairs on the host's path, by a read of any width. -/
def Obligations.PairReadIsConsistent : Prop :=
  ∀ (s : State) (off : BitVec 25) (be : BitVec 4), be ≠ 0 → HostServes s → off.toNat % 4 = 0 → inBroadcast off.toNat = false →
    liveAt s off.toNat = true → inRemovedCluster s off.toNat = false → inGroomerI2c s off.toNat = false →
    (pairHalf off.toNat = .lo → ∃ t, exec (.pairLowRead .host ⟨off, be⟩) s = .next t ∧
      t.hiu.reply = wordReply be (regShow s off.toNat) ∧ captureOf t .host off.toNat = some (regShow s (off.toNat + 4)) ∧
      RegsKept s t [] ∧ SameUnits s t ∧ t.pins = s.pins) ∧
    (pairHalf off.toNat = .hi → ∃ t, exec (.pairHighRead .host ⟨off, be⟩) s = .next t ∧
      t.hiu.reply = wordReply be ((captureOf s .host (off.toNat - 4)).getD (regShow s off.toNat)) ∧
      captureOf t .host (off.toNat - 4) = none ∧ RegsKept s t [] ∧ SameUnits s t ∧ t.pins = s.pins)

/-- R19 and R20 on the pair HIU_BAR4_BASE. -/
def Obligations.Bar4BaseIsWrittenAsAPair : Prop :=
  ∀ (s : State) (v : Word), HostServes s →
    (∃ t, exec (.pairLowWrite .host (BitVec.ofNat 25 Reg.hiuBar4BaseLo) 15 v) s = .next t ∧ RegsKept s t [] ∧
      SameUnits s t ∧ t.pins = s.pins ∧ stagedHalf t .host Reg.hiuBar4BaseLo = some v) ∧
    (∃ t, exec (.pairHighWrite .host (BitVec.ofNat 25 Reg.hiuBar4BaseHi) 15 v) s = .next t ∧
      rd t Reg.hiuBar4BaseHi = v ∧
      rd t Reg.hiuBar4BaseLo = (stagedHalf s .host Reg.hiuBar4BaseLo).getD (rd s Reg.hiuBar4BaseLo) ∧
      RegsKept s t [Reg.hiuBar4BaseLo, Reg.hiuBar4BaseHi] ∧ SameUnits s t ∧ t.pins = s.pins ∧
      stagedHalf t .host Reg.hiuBar4BaseLo = none)

/-- R18, R103, R104: narrow writes. -/
def Obligations.NarrowWritesAreDiscarded : Prop :=
  ∀ (s : State) (be : BitVec 4) (v : Word), HostServes s → ready s = true → be ≠ 15 →
    (∀ (off : BitVec 25) (c : Instr) (o b space : Nat),
      ((c = .registerWrite off [(be, v)] false ∧ o = off.toNat / 4 * 4 ∧ b = 0 ∧ space = 0) ∨
       (c = .broadcastWrite (off.setWidth 20) be v ∧ o = 0xA00000 + (off.setWidth 20).toNat / 4 * 4 ∧ b = 0 ∧ space = 0) ∨
       (hostDropped s = false ∧ b = 1 ∧ space = 1 ∧ ∃ ring : Fin 64,
         (∃ dw : Fin 1024, c = .sqDoorbell ring dw [(be, v)] ∧ o = ring.val * 0x1000 + 4 * dw.val) ∨
         (c = .cqRelease ring be v ∧ o = ring.val * 0x1000 + 4))) →
      ∃ t, exec c s = .next t ∧ rd t Reg.hiuErr = rd s Reg.hiuErr ||| BitVec.ofNat 32 (2 ^ b) ∧
        (rd s Reg.hiuErr = 0 → rd t Reg.hiuErrAddrLo = BitVec.ofNat 32 o ∧
          rd t Reg.hiuErrAddrHi = BitVec.ofNat 32 (be.toNat * 16 + space)) ∧
        (rd s Reg.hiuErr ≠ 0 → rd t Reg.hiuErrAddrLo = rd s Reg.hiuErrAddrLo ∧ rd t Reg.hiuErrAddrHi = rd s Reg.hiuErrAddrHi) ∧
        RegsKept s t [Reg.hiuErr, Reg.hiuErrAddrLo, Reg.hiuErrAddrHi] ∧ SameUnits s t ∧ t.pins = s.pins)

/-- R103 and R107: accesses before READY. -/
def Obligations.AccessBeforeReadyIsDiscarded : Prop :=
  ∀ (s : State) (c : Instr), HostServes s →
    ((∃ (off : BitVec 25) (be : BitVec 4) (v : Word), c = .registerWrite off [(be, v)] false ∧
        liveAt s (dwordOff off) = false) ∨
      (ready s = false ∧ ((∃ (ring : Fin 64) (be : BitVec 4) (v : Word),
          (∃ dw : Fin 1024, c = .sqDoorbell ring dw [(be, v)]) ∨ c = .cqRelease ring be v) ∨
        (∃ (off : BitVec 32) (bytes : List (Option Byte)), c = .bar4Write off bytes ∧
          payloadBytes c ≤ maxPayload s ∧ bar4Fits s (bar4Base s) off.toNat bytes = true) ∨
        ∃ (off : BitVec 32) (n : Fin 4097), c = .bar4Read off n))) →
    ∃ t, exec c s = .next t ∧ rd t Reg.hiuErr = rd s Reg.hiuErr ||| 64 ∧
      RegsKept s t [Reg.hiuErr, Reg.hiuErrAddrLo, Reg.hiuErrAddrHi] ∧ SameUnits s t ∧ t.pins = s.pins ∧
      ∀ (off : BitVec 32) (n : Fin 4097), c = .bar4Read off n → t.hiu.reply = .bytes (List.replicate n.val 0)

/-- R115: SQ doorbells. -/
def Obligations.SqDoorbellMovesTheTail : Prop :=
  ∀ (s : State) (ring : Fin 64) (v : Word), HostServes s → ready s = true → hostDropped s = false →
    ringEnabled s ring.val = true →
    ∃ t, exec (.sqDoorbell ring 0 [(15, v)]) s = .next t ∧ SameUnits s { t with cfe := s.cfe } ∧ t.pins = s.pins ∧
      if v = rd s (Reg.ringSqTail ring.val) then t = after s s
      else if (cntSub v (rd s (Reg.ringSqTail ring.val)) : Int) ≤
          2 ^ ringLog2 s ring.val - cntSub (rd s (Reg.ringSqTail ring.val)) (rd s (Reg.ringSqHead ring.val)) then
        rd t (Reg.ringSqTail ring.val) = v ∧ RegsKept s t [Reg.ringSqTail ring.val]
      else bit (rd t Reg.cfeErr) 1 = true ∧ RegsKept s t [Reg.cfeErr, Reg.cfeErrCapture]

/-- R116: CQ releases. -/
def Obligations.CqReleaseMovesTheHead : Prop :=
  ∀ (s : State) (ring : Fin 64) (v : Word), HostServes s → ready s = true → hostDropped s = false →
    ringEnabled s ring.val = true →
    ∃ t, exec (.cqRelease ring 15 v) s = .next t ∧ SameUnits s t ∧ t.pins = s.pins ∧
      if cntSub v (rd s (Reg.ringCqHead ring.val)) ≤ cntSub (rd s (Reg.ringCqTail ring.val)) (rd s (Reg.ringCqHead ring.val)) then
        rd t (Reg.ringCqHead ring.val) = v ∧ RegsKept s t [Reg.ringCqHead ring.val]
      else bit (rd t Reg.cfeErr) 1 = true ∧ RegsKept s t [Reg.cfeErr, Reg.cfeErrCapture]

/-- R117: doorbells of a disabled ring. -/
def Obligations.DisabledRingDiscardsDoorbells : Prop :=
  ∀ (s : State) (ring : Fin 64) (v : Word), HostServes s → ready s = true → hostDropped s = false →
    ringEnabled s ring.val = false →
    ∀ c kind, ((c = Instr.sqDoorbell ring 0 [(15, v)] ∧ kind = 0) ∨ (c = Instr.cqRelease ring 15 v ∧ kind = 1)) →
    ∃ t, exec c s = .next t ∧ rd t Reg.cfeErr = rd s Reg.cfeErr ||| 1 ∧
      rd t Reg.cfeErrCapture = (if rd s Reg.cfeErr = 0
        then BitVec.ofNat 32 (v.toNat % 2 ^ 16 * 2 ^ 16 + kind * 2 ^ 8 + ring.val) else rd s Reg.cfeErrCapture) ∧
      RegsKept s t [Reg.cfeErr, Reg.cfeErrCapture] ∧ SameUnits s t ∧ t.pins = s.pins

/-- R139 and R110: enabling a ring. -/
def Obligations.RingEnableChecksItsConfiguration : Prop :=
  ∀ (s : State) (ring : Fin 64) (v : Word), HostServes s → ready s = true → ringEnabled s ring.val = false →
    (ringConfigOk s ring.val ((v ||| 1) &&& 0xFFFF0FF1) = true → ∃ t, exec (.ringEnable ring v) s = .next t ∧
      ringEnabled t ring.val = true ∧ rd t (Reg.ringSqTail ring.val) = 0 ∧ rd t (Reg.ringSqHead ring.val) = 0 ∧
      rd t (Reg.ringCqTail ring.val) = 0 ∧ rd t (Reg.ringCqHead ring.val) = 0 ∧ rd t (Reg.ringSeq ring.val) = 0 ∧
      RegsKept s t [Reg.ringCfg ring.val, Reg.ringSqTail ring.val, Reg.ringSqHead ring.val, Reg.ringCqTail ring.val,
        Reg.ringCqHead ring.val, Reg.ringSeq ring.val]) ∧
    (ringConfigOk s ring.val ((v ||| 1) &&& 0xFFFF0FF1) = false → ∃ t, exec (.ringEnable ring v) s = .next t ∧
      ringEnabled t ring.val = false ∧ bit (rd t Reg.cfeErr) 2 = true ∧
      RegsKept s t [Reg.ringCfg ring.val, Reg.cfeErr, Reg.cfeErrCapture])

/-- R100, R536: what holds of the vectors after the interrupt rule. -/
def Obligations.EveryCauseBecomesOutstanding : Prop :=
  ∀ (s : State) (v : Nat), v < 128 →
    irqCause (irqSettle s) v = irqCause s v ∧
    irqOutstanding (irqSettle s) v = (irqOutstanding s v || (irqCause s v && !(decide (v < 64) && hostDropped s))) ∧
    (bit (irqSettle s).hiu.pba v = true → irqMasked (irqSettle s) v = true)

/-- R102: software vectors. -/
def Obligations.SoftwareVectorsAreRaised : Prop :=
  ∀ (s : State) (v : Word), HostServes s →
    (fld v 0 7 < 80 → exec (.hiuSwint v) s = .next (after s s)) ∧
    (80 ≤ fld v 0 7 → ∃ t, exec (.hiuSwint v) s = .next t ∧ irqCause t (fld v 0 7) = true ∧
      irqOutstanding t (fld v 0 7) = true ∧ RegsKept s t [] ∧ SameUnits s t ∧ t.pins = s.pins ∧
      (irqOutstanding s (fld v 0 7) = false → irqMasked s (fld v 0 7) = false → ∃ m ∈ t.hiu.msgs,
        m.2 = msixWord s (4 * fld v 0 7 + 2)))

/-- R100: acknowledgement re-arms a vector. -/
def Obligations.AcknowledgeRearmsTheVector : Prop :=
  ∀ (s : State) (k : Fin 4) (v : Word), HostServes s → ∃ t, exec (.hiuIrqAck k v) s = .next t ∧
    RegsKept s t [] ∧ SameUnits s t ∧ t.pins = s.pins ∧
    ∀ j < 32, bit v j = true →
      irqOutstanding t (32 * k.val + j) =
        (irqCause t (32 * k.val + j) && !(decide (32 * k.val + j < 64) && hostDropped s)) ∧
      (80 ≤ 32 * k.val + j → irqCause t (32 * k.val + j) = false)

/-- R88: resizing BAR4. -/
def Obligations.Bar4SizeFollowsMemorySpaceEnable : Prop :=
  ∀ s : State, HostServes s → cfgRetry s = false →
    (∀ log2 : Fin 64, exec (.resizableBar log2) s = .next (after s
      (if 28 ≤ log2.val ∧ log2.val ≤ 32 then { s with hiu := { s.hiu with rbarLog2 := log2.val } } else s))) ∧
    (∀ (log2 : Fin 64) (t : State), exec (.resizableBar log2) s = .next t → t.hiu.bar4Log2 = s.hiu.bar4Log2) ∧
    (∀ b : Bool, s.hiu.memSpaceEn = false →
      ∃ t, exec (.configurationRequest (.command true b)) s = .next t ∧ t.hiu.bar4Log2 = s.hiu.rbarLog2 ∧
        t.hiu.memSpaceEn = true)

/-- R88, R639, R640: resets of the FUNCTION scope. -/
def Obligations.FunctionResetsAndBar4Size : Prop :=
  ∀ (s : State) (c : Instr) (size rbar : Nat), hiuRunning s = true →
    ((c = .functionLevelReset ∧ cfgRetry s = false ∧ size = s.hiu.bar4Log2 ∧ rbar = s.hiu.rbarLog2) ∨
      ((c = .hotReset ∨ c = .linkDown ∨ c = .perstNAssert) ∧ size = 28 ∧ rbar = 28)) →
    ∃ t, exec c s = .next t ∧ t.hiu.bar4Log2 = size ∧ t.hiu.rbarLog2 = rbar ∧ rd64 t Reg.hiuBar4BaseLo = 0 ∧
      t.cfe = {} ∧ t.ctx = {} ∧ t.con = {} ∧ t.work = {} ∧ t.clu = {} ∧ t.dsp = {} ∧ t.cam = List.replicate 4 {} ∧
      t.dram = s.dram

/-- R639, R640: SYS_RST_N (DRAM empty: log entry 21; PMU_STRAPS kept: log entry 22). -/
def Obligations.SysRstNResetsTheDevice : Prop :=
  ∀ s : State, ∃ t, exec .sysRstNAssert s = .next t ∧ t.pmu.sysRstN = false ∧ UnitsReset t ∧ t.aon = s.aon ∧
    t.fuse = s.fuse ∧ t.grm.flash = s.grm.flash ∧
    (∀ off, keptByDevice off = false → rd t off = regReset off) ∧ ∀ off, keptByDevice off = true → rd t off = rd s off

/-- R52: line and frame events of the source that LT follows. -/
def Obligations.LineEventAdvancesLt : Prop :=
  ∀ (s : State) (src : Fin 11), running s = true → s.ltb.active = src.val → ltFollows s = true →
    (src.val ≠ 9 → s.ltb.line < 0xFFFF → ∃ t, exec (.lineEvent src) s = .next t ∧ t.ltb.line = s.ltb.line + 1 ∧
      t.ltb.frame = s.ltb.frame ∧ ltFrac t = 0) ∧
    (s.ltb.pendingSrc ≠ some src.val → (∀ x ∈ s.ltb.losts, x.src ≠ src.val) → ∃ t, exec (.frameEvent src) s = .next t ∧
      t.ltb.line = 0 ∧ t.ltb.frame = (s.ltb.frame + 1) % 2 ^ 32 ∧ ltFrac t = 0)

/-- R712: LT holds its value while ENABLE is 0. -/
def Obligations.LtHoldsWhileDisabled : Prop :=
  ∀ (s : State) (c : Instr), running s = true → ltbEnabled s = false →
    ((∃ src, c = .lineEvent src) ∨ (∃ src, c = .frameEvent src) ∨ (∃ pos, c = .synthesisedLineEvent pos) ∨
      c = .sourceLost ∨ c = .sourceRecovered ∨ c = .lossToleranceExpiry) →
    ∃ t, exec c s = .next t ∧ ltNow t = ltNow s

/-- R89, R93: what a BAR4 write changes in memory, through fills and evictions of the L2. -/
def Obligations.Bar4WriteChangesOnlyItsBytes : Prop :=
  ∀ (s : State) (off : BitVec 32) (bytes : List (Option Byte)), L2Ok s →
    ∃ t, exec (.bar4Write off bytes) s = .next t ∧ L2Ok t ∧ (memWf s.dram = true → memWf t.dram = true) ∧
      ∀ a, l2View t a = (bar4Stored s off bytes a).getD (l2View s a)

/-- A BAR4 read leaves memory as it was. -/
def Obligations.Bar4ReadLeavesMemory : Prop :=
  ∀ (s : State) (off : BitVec 32) (len : Fin 4097), L2Ok s →
    ∃ t, exec (.bar4Read off len) s = .next t ∧ L2Ok t ∧ (memWf s.dram = true → memWf t.dram = true) ∧
      ∀ a, l2View t a = l2View s a

/-- R205, R206, R632: commands while their engine is busy; R15: locked controls. -/
def Obligations.BusyAndLockedCommandsDoNothing : Prop :=
  ∀ (s : State) (v : Word), HostServes s → ready s = true →
    (bit v 31 = true → bit (rd0 s Reg.mmuStatus) 0 = true →
      exec (.mmuInv v) s = .next (after s (setEv s Reg.mmuEvents 1))) ∧
    (setwayValid v = true → bit (rd0 s Reg.l2cStatus) 0 = true →
      exec (.l2cSetway v) s = .next (after s (setEv s Reg.l2cEvents 2))) ∧
    (bit v 0 = true → (grmBusy s || !fwRunning s) = true →
      exec (.registerWrite (BitVec.ofNat 25 Reg.grmDoorbell) [(15, v)] false) s = .next (after s (setEv s Reg.grmEvents 1))) ∧
    (bit (rd0 s Reg.ltbLock) 0 = true → exec (.ltbSrcWrite v) s = .next (after s s)) ∧
    (bit (rd0 s Reg.hltTwinLock) 0 = true → exec (.hltTwinEnable v) s = .next (after s s))

/-- R287: with EM = 0 an instruction writes nothing. -/
def Obligations.IdleInstructionsWriteNothing : Prop :=
  ∀ (s : State) (b : Blk) (h : Heat) (i : KIns) (f : KEnv → KEnv), execMask (heatFor h i) i = 0 →
    heatIssue s b h i f = heatIssue s b h i (fun e => e)

/-- What the arithmetic rows form: one result, for VD in the lanes of EM or for SD. -/
def Obligations.ArithmeticRowsWriteOnlyTheirRegister : Prop :=
  (∀ r ∈ kamirFloat ++ kamirInteger ++ kamirConvert, ∀ e : KEnv, ∃ f : Nat → Word,
      r.effect e = { e with writes := [{ reg := .v (kVD e.i), mask := e.em, vals := (List.range 32).map f }] }) ∧
  ∀ r ∈ kamirScalar.take 14, ∀ e : KEnv, ∃ w : Word, r.effect e = { e with writes := [{ reg := .s (kSD e.i), vals := [w] }] }

/-- R276: a write affects only the lanes of its EM. -/
def Obligations.RegisterWritesAffectOnlyTheirLanes : Prop :=
  ∀ (h : Heat) (w : RegWrite) (r l : Nat), l < 32 →
    (∀ n, w.reg = .v n →
      hv (regApply h w) r l = (if r = n ∧ w.mask.testBit l = true then (w.vals[l]?).getD 0 else hv h r l) ∧
      hs (regApply h w) r = hs h r ∧ hp (regApply h w) r = hp h r) ∧
    (∀ n, w.reg = .s n →
      hs (regApply h w) r = (if r % 64 = n % 64 then (w.vals[0]?).getD 0 else hs h r) ∧
      hv (regApply h w) r l = hv h r l ∧ hp (regApply h w) r = hp h r) ∧
    (∀ n, w.reg = .p n →
      bit (hp (regApply h w) r) l =
        (if r % 8 = n % 8 ∧ w.mask.testBit l = true then bit ((w.vals[0]?).getD 0) l else bit (hp h r) l) ∧
      hv (regApply h w) r l = hv h r l ∧ hs (regApply h w) r = hs h r)

/-- R288: results of the integer rows as numbers. -/
def Obligations.IntegerResultsAreExact : Prop :=
  ∀ a b : Word,
    (shl32 a b).toNat = a.toNat * 2 ^ b.toNat % 2 ^ 32 ∧ (shr32 a b).toNat = a.toNat / 2 ^ b.toNat ∧
    (sra32 a b).toInt = a.toInt / 2 ^ b.toNat ∧
    (mulHigh true a b).toInt = a.toInt * b.toInt / 2 ^ 32 ∧ (mulHigh false a b).toNat = a.toNat * b.toNat / 2 ^ 32 ∧
    (a = 0 → clz32 a = 32) ∧ (a ≠ 0 → 2 ^ (31 - (clz32 a).toNat) ≤ a.toNat ∧ a.toNat < 2 ^ (32 - (clz32 a).toNat)) ∧
    ((smin32 a b).toInt = min a.toInt b.toInt ∧ (smax32 a b).toInt = max a.toInt b.toInt) ∧
    (umin32 a b).toNat = min a.toNat b.toNat ∧ (umax32 a b).toNat = max a.toNat b.toNat

/-- R289, R290: NaNs, and minimumNumber and maximumNumber. -/
def Obligations.NaNsAreCanonicalAndLoseMinima : Prop :=
  ∀ (rnd : Nat) (a b c : Word),
    (fv a = .nan ∨ fv b = .nan → fAdd rnd a b = 0x7FC00000 ∧ fSub rnd a b = 0x7FC00000 ∧ fMul rnd a b = 0x7FC00000) ∧
    (fv a = .nan ∨ fv b = .nan ∨ fv c = .nan → fFma rnd a b c = 0x7FC00000) ∧
    (fv a = .nan → fv b ≠ .nan → fMin a b = b ∧ fMax a b = b ∧ fMin b a = b ∧ fMax b a = b) ∧
    (fv a = .nan → fv b = .nan → fMin a b = 0x7FC00000 ∧ fMax a b = 0x7FC00000) ∧
    fMin 0x80000000 0 = 0x80000000 ∧ fMin 0 0x80000000 = 0x80000000 ∧ fMax 0x80000000 0 = 0 ∧ fMax 0 0x80000000 = 0

/-- R452: writes of DSP_PLANE_MAP. -/
def Obligations.PlaneMapKeepsBlockedFields : Prop :=
  ∀ (s : State) (k : Fin 2) (v : Word), HostServes s → ready s = true →
    ∃ t, exec (.dspPlaneMap k v) s = .next t ∧ RegsKept s t [Reg.dspPlaneMap0 + 4 * k.val, Reg.dspEvents] ∧
      SameUnits s t ∧ t.pins = s.pins ∧
      (∀ q < 8, fld (rd t (Reg.dspPlaneMap0 + 4 * k.val)) (4 * q) 4 =
        if fld v (4 * q) 4 ≠ fld (rd s (Reg.dspPlaneMap0 + 4 * k.val)) (4 * q) 4 ∧
            (planeEn s (8 * k.val + q) || outBusy s (planeOut s (8 * k.val + q)) || outBusy s (mapField v q)) = true
        then fld (rd s (Reg.dspPlaneMap0 + 4 * k.val)) (4 * q) 4 else fld v (4 * q) 4) ∧
      (rd t Reg.dspEvents = rd s Reg.dspEvents ∨ rd t Reg.dspEvents = rd s Reg.dspEvents ||| 512) ∧
      ((∃ q < 8, fld v (4 * q) 4 ≠ fld (rd s (Reg.dspPlaneMap0 + 4 * k.val)) (4 * q) 4 ∧
          (planeEn s (8 * k.val + q) || outBusy s (planeOut s (8 * k.val + q)) || outBusy s (mapField v q)) = true) →
        bit (rd t Reg.dspEvents) 9 = true)

/-- R668: PIN_SET, PIN_CLR and PIN_TGL. -/
def Obligations.PinWritesChangeHostBits : Prop :=
  ∀ (s : State) (b : Fin 8) (v : Word), HostServes s → ready s = true →
    ∀ (c : Instr) (f : Bool → Bool → Bool),
      ((c = .pinSet b v ∧ f = fun o m => o || m) ∨ (c = .pinClr b v ∧ f = fun o m => o && !m) ∨
        (c = .pinTgl b v ∧ f = fun o m => xor o m)) →
      ∃ t, exec c s = .next t ∧
        (∀ j < 32, bit (rd0 t (Reg.pinOut b.val)) j =
          (decide (j < 8) && f (bit (rd0 s (Reg.pinOut b.val)) j) (bit v j && decide (pinOwner s (8 * b.val + j) = 0)))) ∧
        (∀ k < 8, k ≠ b.val → rd t (Reg.pinOut k) = rd s (Reg.pinOut k)) ∧
        (∀ k < 8, rd t (Reg.pinOe k) = rd s (Reg.pinOe k)) ∧ ∀ k < 64, rd t (Reg.pinCfg k) = rd s (Reg.pinCfg k)

/-- R654: a refused power state (TARGET stored: log entry 26). -/
def Obligations.RefusedPowerStateStaysActive : Prop :=
  ∀ (s : State) (c : Instr), HostServes s → ready s = true → pstate s = 0 → pstateBusy s = false →
    pstateAllowed s = false → (c = .pstateStandby ∨ c = .pstateOff) →
    ∃ t, exec c s = .next t ∧ bit (rd t Reg.pmuEvents) 5 = true ∧ RegsKept s t [Reg.pmuPstate, Reg.pmuEvents] ∧
      SameUnits s t ∧ t.pins = s.pins

/-- R652: a thermal trip. -/
def Obligations.ThermtripStopsTheUnits : Prop :=
  ∀ (s : State) (sensor : Fin 20), hiuRunning s = true → ∃ t, exec (.thermtrip sensor) s = .next t ∧
    t.pmu.tripped = true ∧ running t = false ∧ hiuRunning t = false ∧ RegsKept s t [] ∧ t.aon = s.aon ∧ t.grm = s.grm ∧
    t.dram = s.dram

/-- R615: the calendar counts valid dates, and runs in reset. -/
def Obligations.CalendarStaysADate : Prop :=
  (∀ v : DWord, fld v 10 17 < 86400 → 1 ≤ fld v 32 4 → fld v 32 4 ≤ 12 → 1 ≤ fld v 27 5 →
      fld v 27 5 ≤ monthDays (fld v 36 12) (fld v 32 4) →
      fld (calNext v) 10 17 < 86400 ∧ 1 ≤ fld (calNext v) 32 4 ∧ fld (calNext v) 32 4 ≤ 12 ∧ 1 ≤ fld (calNext v) 27 5 ∧
        fld (calNext v) 27 5 ≤ monthDays (fld (calNext v) 36 12) (fld (calNext v) 32 4)) ∧
  ∀ s : State, hiuRunning s = false → ∃ t, exec .calendarTick s = .next t ∧
    t.aon.cal = s.aon.calNext.getD (calNext s.aon.cal) ∧ t.aon.calNext = none

/-- R94, R96, R540: the posted buffer is first in, first out, and a request without credits stays with the host. -/
def Obligations.RequestsWaitBehindAThrottledWrite : Prop :=
  ∀ (s : State) (c : Instr), hiuRunning s = true → s.hiu.posted ≠ [] →
    ((∃ off dws same, c = .registerWrite off dws same) ∨ (∃ off bytes, c = .bar4Write off bytes) ∨
      (∃ off n, c = .bar4Read off n) ∨ (∃ ring dw dws, c = .sqDoorbell ring dw dws) ∨ (∃ ring v, c = .ringEnable ring v) ∨
      (∃ r, c = .configurationRequest r) ∨ ∃ k v, c = .hiuIrqAck k v) →
    exec c s = .next (after s
      (if s.hiu.unsent = [] ∧ creditsFor s c = true
       then { s with hiu := { s.hiu with posted := s.hiu.posted ++ [(c, bar4Base s)] } }
       else { s with hiu := { s.hiu with unsent := s.hiu.unsent ++ [c] } }))
end

