-- ==== Sys2Proof/Laws/State.lean ====
section
/-!
SUPPORT. One law per field of State and per update of State: the field updated, and every other field as it was.
-/

namespace Sys2Proof.Machine

/-! ### wr -/

@[simp] theorem wr_regs (s : State) (off : Nat) (v : Word) : (wr s off v).regs = storePut regReset s.regs off v := rfl
@[simp] theorem wr_ltb (s : State) (off : Nat) (v : Word) : (wr s off v).ltb = s.ltb := rfl
@[simp] theorem wr_hiu (s : State) (off : Nat) (v : Word) : (wr s off v).hiu = s.hiu := rfl
@[simp] theorem wr_cfe (s : State) (off : Nat) (v : Word) : (wr s off v).cfe = s.cfe := rfl
@[simp] theorem wr_ctx (s : State) (off : Nat) (v : Word) : (wr s off v).ctx = s.ctx := rfl
@[simp] theorem wr_con (s : State) (off : Nat) (v : Word) : (wr s off v).con = s.con := rfl
@[simp] theorem wr_twin (s : State) (off : Nat) (v : Word) : (wr s off v).twin = s.twin := rfl
@[simp] theorem wr_mem (s : State) (off : Nat) (v : Word) : (wr s off v).mem = s.mem := rfl
@[simp] theorem wr_vzl (s : State) (off : Nat) (v : Word) : (wr s off v).vzl = s.vzl := rfl
@[simp] theorem wr_hlt (s : State) (off : Nat) (v : Word) : (wr s off v).hlt = s.hlt := rfl
@[simp] theorem wr_heap (s : State) (off : Nat) (v : Word) : (wr s off v).heap = s.heap := rfl
@[simp] theorem wr_clu (s : State) (off : Nat) (v : Word) : (wr s off v).clu = s.clu := rfl
@[simp] theorem wr_work (s : State) (off : Nat) (v : Word) : (wr s off v).work = s.work := rfl
@[simp] theorem wr_dsp (s : State) (off : Nat) (v : Word) : (wr s off v).dsp = s.dsp := rfl
@[simp] theorem wr_cam (s : State) (off : Nat) (v : Word) : (wr s off v).cam = s.cam := rfl
@[simp] theorem wr_aon (s : State) (off : Nat) (v : Word) : (wr s off v).aon = s.aon := rfl
@[simp] theorem wr_fuse (s : State) (off : Nat) (v : Word) : (wr s off v).fuse = s.fuse := rfl
@[simp] theorem wr_grm (s : State) (off : Nat) (v : Word) : (wr s off v).grm = s.grm := rfl
@[simp] theorem wr_pmu (s : State) (off : Nat) (v : Word) : (wr s off v).pmu = s.pmu := rfl
@[simp] theorem wr_pins (s : State) (off : Nat) (v : Word) : (wr s off v).pins = s.pins := rfl
@[simp] theorem wr_dram (s : State) (off : Nat) (v : Word) : (wr s off v).dram = s.dram := rfl
@[simp] theorem wr_cycleSets (s : State) (off : Nat) (v : Word) : (wr s off v).cycleSets = s.cycleSets := rfl
@[simp] theorem wr_freeCtr (s : State) (off : Nat) (v : Word) : (wr s off v).freeCtr = s.freeCtr := rfl
@[simp] theorem wr_pending (s : State) (off : Nat) (v : Word) : (wr s off v).pending = s.pending := rfl

/-! ### orReg -/

@[simp] theorem orReg_regs (s : State) (off bits : Nat) : (orReg s off bits).regs = (wr s off (rd s off ||| BitVec.ofNat 32 bits)).regs := rfl
@[simp] theorem orReg_ltb (s : State) (off bits : Nat) : (orReg s off bits).ltb = s.ltb := rfl
@[simp] theorem orReg_hiu (s : State) (off bits : Nat) : (orReg s off bits).hiu = s.hiu := rfl
@[simp] theorem orReg_cfe (s : State) (off bits : Nat) : (orReg s off bits).cfe = s.cfe := rfl
@[simp] theorem orReg_ctx (s : State) (off bits : Nat) : (orReg s off bits).ctx = s.ctx := rfl
@[simp] theorem orReg_con (s : State) (off bits : Nat) : (orReg s off bits).con = s.con := rfl
@[simp] theorem orReg_twin (s : State) (off bits : Nat) : (orReg s off bits).twin = s.twin := rfl
@[simp] theorem orReg_mem (s : State) (off bits : Nat) : (orReg s off bits).mem = s.mem := rfl
@[simp] theorem orReg_vzl (s : State) (off bits : Nat) : (orReg s off bits).vzl = s.vzl := rfl
@[simp] theorem orReg_hlt (s : State) (off bits : Nat) : (orReg s off bits).hlt = s.hlt := rfl
@[simp] theorem orReg_heap (s : State) (off bits : Nat) : (orReg s off bits).heap = s.heap := rfl
@[simp] theorem orReg_clu (s : State) (off bits : Nat) : (orReg s off bits).clu = s.clu := rfl
@[simp] theorem orReg_work (s : State) (off bits : Nat) : (orReg s off bits).work = s.work := rfl
@[simp] theorem orReg_dsp (s : State) (off bits : Nat) : (orReg s off bits).dsp = s.dsp := rfl
@[simp] theorem orReg_cam (s : State) (off bits : Nat) : (orReg s off bits).cam = s.cam := rfl
@[simp] theorem orReg_aon (s : State) (off bits : Nat) : (orReg s off bits).aon = s.aon := rfl
@[simp] theorem orReg_fuse (s : State) (off bits : Nat) : (orReg s off bits).fuse = s.fuse := rfl
@[simp] theorem orReg_grm (s : State) (off bits : Nat) : (orReg s off bits).grm = s.grm := rfl
@[simp] theorem orReg_pmu (s : State) (off bits : Nat) : (orReg s off bits).pmu = s.pmu := rfl
@[simp] theorem orReg_pins (s : State) (off bits : Nat) : (orReg s off bits).pins = s.pins := rfl
@[simp] theorem orReg_dram (s : State) (off bits : Nat) : (orReg s off bits).dram = s.dram := rfl
@[simp] theorem orReg_cycleSets (s : State) (off bits : Nat) : (orReg s off bits).cycleSets = s.cycleSets ++ [(off, BitVec.ofNat 32 bits)] := rfl
@[simp] theorem orReg_freeCtr (s : State) (off bits : Nat) : (orReg s off bits).freeCtr = s.freeCtr := rfl
@[simp] theorem orReg_pending (s : State) (off bits : Nat) : (orReg s off bits).pending = s.pending := rfl

/-! ### onLtb -/

@[simp] theorem onLtb_regs (s : State) (f : Ltb → Ltb) : (onLtb s f).regs = s.regs := rfl
@[simp] theorem onLtb_ltb (s : State) (f : Ltb → Ltb) : (onLtb s f).ltb = f s.ltb := rfl
@[simp] theorem onLtb_hiu (s : State) (f : Ltb → Ltb) : (onLtb s f).hiu = s.hiu := rfl
@[simp] theorem onLtb_cfe (s : State) (f : Ltb → Ltb) : (onLtb s f).cfe = s.cfe := rfl
@[simp] theorem onLtb_ctx (s : State) (f : Ltb → Ltb) : (onLtb s f).ctx = s.ctx := rfl
@[simp] theorem onLtb_con (s : State) (f : Ltb → Ltb) : (onLtb s f).con = s.con := rfl
@[simp] theorem onLtb_twin (s : State) (f : Ltb → Ltb) : (onLtb s f).twin = s.twin := rfl
@[simp] theorem onLtb_mem (s : State) (f : Ltb → Ltb) : (onLtb s f).mem = s.mem := rfl
@[simp] theorem onLtb_vzl (s : State) (f : Ltb → Ltb) : (onLtb s f).vzl = s.vzl := rfl
@[simp] theorem onLtb_hlt (s : State) (f : Ltb → Ltb) : (onLtb s f).hlt = s.hlt := rfl
@[simp] theorem onLtb_heap (s : State) (f : Ltb → Ltb) : (onLtb s f).heap = s.heap := rfl
@[simp] theorem onLtb_clu (s : State) (f : Ltb → Ltb) : (onLtb s f).clu = s.clu := rfl
@[simp] theorem onLtb_work (s : State) (f : Ltb → Ltb) : (onLtb s f).work = s.work := rfl
@[simp] theorem onLtb_dsp (s : State) (f : Ltb → Ltb) : (onLtb s f).dsp = s.dsp := rfl
@[simp] theorem onLtb_cam (s : State) (f : Ltb → Ltb) : (onLtb s f).cam = s.cam := rfl
@[simp] theorem onLtb_aon (s : State) (f : Ltb → Ltb) : (onLtb s f).aon = s.aon := rfl
@[simp] theorem onLtb_fuse (s : State) (f : Ltb → Ltb) : (onLtb s f).fuse = s.fuse := rfl
@[simp] theorem onLtb_grm (s : State) (f : Ltb → Ltb) : (onLtb s f).grm = s.grm := rfl
@[simp] theorem onLtb_pmu (s : State) (f : Ltb → Ltb) : (onLtb s f).pmu = s.pmu := rfl
@[simp] theorem onLtb_pins (s : State) (f : Ltb → Ltb) : (onLtb s f).pins = s.pins := rfl
@[simp] theorem onLtb_dram (s : State) (f : Ltb → Ltb) : (onLtb s f).dram = s.dram := rfl
@[simp] theorem onLtb_cycleSets (s : State) (f : Ltb → Ltb) : (onLtb s f).cycleSets = s.cycleSets := rfl
@[simp] theorem onLtb_freeCtr (s : State) (f : Ltb → Ltb) : (onLtb s f).freeCtr = s.freeCtr := rfl
@[simp] theorem onLtb_pending (s : State) (f : Ltb → Ltb) : (onLtb s f).pending = s.pending := rfl

/-! ### onHiu -/

@[simp] theorem onHiu_regs (s : State) (f : Hiu → Hiu) : (onHiu s f).regs = s.regs := rfl
@[simp] theorem onHiu_ltb (s : State) (f : Hiu → Hiu) : (onHiu s f).ltb = s.ltb := rfl
@[simp] theorem onHiu_hiu (s : State) (f : Hiu → Hiu) : (onHiu s f).hiu = f s.hiu := rfl
@[simp] theorem onHiu_cfe (s : State) (f : Hiu → Hiu) : (onHiu s f).cfe = s.cfe := rfl
@[simp] theorem onHiu_ctx (s : State) (f : Hiu → Hiu) : (onHiu s f).ctx = s.ctx := rfl
@[simp] theorem onHiu_con (s : State) (f : Hiu → Hiu) : (onHiu s f).con = s.con := rfl
@[simp] theorem onHiu_twin (s : State) (f : Hiu → Hiu) : (onHiu s f).twin = s.twin := rfl
@[simp] theorem onHiu_mem (s : State) (f : Hiu → Hiu) : (onHiu s f).mem = s.mem := rfl
@[simp] theorem onHiu_vzl (s : State) (f : Hiu → Hiu) : (onHiu s f).vzl = s.vzl := rfl
@[simp] theorem onHiu_hlt (s : State) (f : Hiu → Hiu) : (onHiu s f).hlt = s.hlt := rfl
@[simp] theorem onHiu_heap (s : State) (f : Hiu → Hiu) : (onHiu s f).heap = s.heap := rfl
@[simp] theorem onHiu_clu (s : State) (f : Hiu → Hiu) : (onHiu s f).clu = s.clu := rfl
@[simp] theorem onHiu_work (s : State) (f : Hiu → Hiu) : (onHiu s f).work = s.work := rfl
@[simp] theorem onHiu_dsp (s : State) (f : Hiu → Hiu) : (onHiu s f).dsp = s.dsp := rfl
@[simp] theorem onHiu_cam (s : State) (f : Hiu → Hiu) : (onHiu s f).cam = s.cam := rfl
@[simp] theorem onHiu_aon (s : State) (f : Hiu → Hiu) : (onHiu s f).aon = s.aon := rfl
@[simp] theorem onHiu_fuse (s : State) (f : Hiu → Hiu) : (onHiu s f).fuse = s.fuse := rfl
@[simp] theorem onHiu_grm (s : State) (f : Hiu → Hiu) : (onHiu s f).grm = s.grm := rfl
@[simp] theorem onHiu_pmu (s : State) (f : Hiu → Hiu) : (onHiu s f).pmu = s.pmu := rfl
@[simp] theorem onHiu_pins (s : State) (f : Hiu → Hiu) : (onHiu s f).pins = s.pins := rfl
@[simp] theorem onHiu_dram (s : State) (f : Hiu → Hiu) : (onHiu s f).dram = s.dram := rfl
@[simp] theorem onHiu_cycleSets (s : State) (f : Hiu → Hiu) : (onHiu s f).cycleSets = s.cycleSets := rfl
@[simp] theorem onHiu_freeCtr (s : State) (f : Hiu → Hiu) : (onHiu s f).freeCtr = s.freeCtr := rfl
@[simp] theorem onHiu_pending (s : State) (f : Hiu → Hiu) : (onHiu s f).pending = s.pending := rfl

/-! ### onCtx -/

@[simp] theorem onCtx_regs (s : State) (f : Ctx → Ctx) : (onCtx s f).regs = s.regs := rfl
@[simp] theorem onCtx_ltb (s : State) (f : Ctx → Ctx) : (onCtx s f).ltb = s.ltb := rfl
@[simp] theorem onCtx_hiu (s : State) (f : Ctx → Ctx) : (onCtx s f).hiu = s.hiu := rfl
@[simp] theorem onCtx_cfe (s : State) (f : Ctx → Ctx) : (onCtx s f).cfe = s.cfe := rfl
@[simp] theorem onCtx_ctx (s : State) (f : Ctx → Ctx) : (onCtx s f).ctx = f s.ctx := rfl
@[simp] theorem onCtx_con (s : State) (f : Ctx → Ctx) : (onCtx s f).con = s.con := rfl
@[simp] theorem onCtx_twin (s : State) (f : Ctx → Ctx) : (onCtx s f).twin = s.twin := rfl
@[simp] theorem onCtx_mem (s : State) (f : Ctx → Ctx) : (onCtx s f).mem = s.mem := rfl
@[simp] theorem onCtx_vzl (s : State) (f : Ctx → Ctx) : (onCtx s f).vzl = s.vzl := rfl
@[simp] theorem onCtx_hlt (s : State) (f : Ctx → Ctx) : (onCtx s f).hlt = s.hlt := rfl
@[simp] theorem onCtx_heap (s : State) (f : Ctx → Ctx) : (onCtx s f).heap = s.heap := rfl
@[simp] theorem onCtx_clu (s : State) (f : Ctx → Ctx) : (onCtx s f).clu = s.clu := rfl
@[simp] theorem onCtx_work (s : State) (f : Ctx → Ctx) : (onCtx s f).work = s.work := rfl
@[simp] theorem onCtx_dsp (s : State) (f : Ctx → Ctx) : (onCtx s f).dsp = s.dsp := rfl
@[simp] theorem onCtx_cam (s : State) (f : Ctx → Ctx) : (onCtx s f).cam = s.cam := rfl
@[simp] theorem onCtx_aon (s : State) (f : Ctx → Ctx) : (onCtx s f).aon = s.aon := rfl
@[simp] theorem onCtx_fuse (s : State) (f : Ctx → Ctx) : (onCtx s f).fuse = s.fuse := rfl
@[simp] theorem onCtx_grm (s : State) (f : Ctx → Ctx) : (onCtx s f).grm = s.grm := rfl
@[simp] theorem onCtx_pmu (s : State) (f : Ctx → Ctx) : (onCtx s f).pmu = s.pmu := rfl
@[simp] theorem onCtx_pins (s : State) (f : Ctx → Ctx) : (onCtx s f).pins = s.pins := rfl
@[simp] theorem onCtx_dram (s : State) (f : Ctx → Ctx) : (onCtx s f).dram = s.dram := rfl
@[simp] theorem onCtx_cycleSets (s : State) (f : Ctx → Ctx) : (onCtx s f).cycleSets = s.cycleSets := rfl
@[simp] theorem onCtx_freeCtr (s : State) (f : Ctx → Ctx) : (onCtx s f).freeCtr = s.freeCtr := rfl
@[simp] theorem onCtx_pending (s : State) (f : Ctx → Ctx) : (onCtx s f).pending = s.pending := rfl

/-! ### onCon -/

@[simp] theorem onCon_regs (s : State) (f : Con → Con) : (onCon s f).regs = s.regs := rfl
@[simp] theorem onCon_ltb (s : State) (f : Con → Con) : (onCon s f).ltb = s.ltb := rfl
@[simp] theorem onCon_hiu (s : State) (f : Con → Con) : (onCon s f).hiu = s.hiu := rfl
@[simp] theorem onCon_cfe (s : State) (f : Con → Con) : (onCon s f).cfe = s.cfe := rfl
@[simp] theorem onCon_ctx (s : State) (f : Con → Con) : (onCon s f).ctx = s.ctx := rfl
@[simp] theorem onCon_con (s : State) (f : Con → Con) : (onCon s f).con = f s.con := rfl
@[simp] theorem onCon_twin (s : State) (f : Con → Con) : (onCon s f).twin = s.twin := rfl
@[simp] theorem onCon_mem (s : State) (f : Con → Con) : (onCon s f).mem = s.mem := rfl
@[simp] theorem onCon_vzl (s : State) (f : Con → Con) : (onCon s f).vzl = s.vzl := rfl
@[simp] theorem onCon_hlt (s : State) (f : Con → Con) : (onCon s f).hlt = s.hlt := rfl
@[simp] theorem onCon_heap (s : State) (f : Con → Con) : (onCon s f).heap = s.heap := rfl
@[simp] theorem onCon_clu (s : State) (f : Con → Con) : (onCon s f).clu = s.clu := rfl
@[simp] theorem onCon_work (s : State) (f : Con → Con) : (onCon s f).work = s.work := rfl
@[simp] theorem onCon_dsp (s : State) (f : Con → Con) : (onCon s f).dsp = s.dsp := rfl
@[simp] theorem onCon_cam (s : State) (f : Con → Con) : (onCon s f).cam = s.cam := rfl
@[simp] theorem onCon_aon (s : State) (f : Con → Con) : (onCon s f).aon = s.aon := rfl
@[simp] theorem onCon_fuse (s : State) (f : Con → Con) : (onCon s f).fuse = s.fuse := rfl
@[simp] theorem onCon_grm (s : State) (f : Con → Con) : (onCon s f).grm = s.grm := rfl
@[simp] theorem onCon_pmu (s : State) (f : Con → Con) : (onCon s f).pmu = s.pmu := rfl
@[simp] theorem onCon_pins (s : State) (f : Con → Con) : (onCon s f).pins = s.pins := rfl
@[simp] theorem onCon_dram (s : State) (f : Con → Con) : (onCon s f).dram = s.dram := rfl
@[simp] theorem onCon_cycleSets (s : State) (f : Con → Con) : (onCon s f).cycleSets = s.cycleSets := rfl
@[simp] theorem onCon_freeCtr (s : State) (f : Con → Con) : (onCon s f).freeCtr = s.freeCtr := rfl
@[simp] theorem onCon_pending (s : State) (f : Con → Con) : (onCon s f).pending = s.pending := rfl

/-! ### onTwin -/

@[simp] theorem onTwin_regs (s : State) (f : Twin → Twin) : (onTwin s f).regs = s.regs := rfl
@[simp] theorem onTwin_ltb (s : State) (f : Twin → Twin) : (onTwin s f).ltb = s.ltb := rfl
@[simp] theorem onTwin_hiu (s : State) (f : Twin → Twin) : (onTwin s f).hiu = s.hiu := rfl
@[simp] theorem onTwin_cfe (s : State) (f : Twin → Twin) : (onTwin s f).cfe = s.cfe := rfl
@[simp] theorem onTwin_ctx (s : State) (f : Twin → Twin) : (onTwin s f).ctx = s.ctx := rfl
@[simp] theorem onTwin_con (s : State) (f : Twin → Twin) : (onTwin s f).con = s.con := rfl
@[simp] theorem onTwin_twin (s : State) (f : Twin → Twin) : (onTwin s f).twin = f s.twin := rfl
@[simp] theorem onTwin_mem (s : State) (f : Twin → Twin) : (onTwin s f).mem = s.mem := rfl
@[simp] theorem onTwin_vzl (s : State) (f : Twin → Twin) : (onTwin s f).vzl = s.vzl := rfl
@[simp] theorem onTwin_hlt (s : State) (f : Twin → Twin) : (onTwin s f).hlt = s.hlt := rfl
@[simp] theorem onTwin_heap (s : State) (f : Twin → Twin) : (onTwin s f).heap = s.heap := rfl
@[simp] theorem onTwin_clu (s : State) (f : Twin → Twin) : (onTwin s f).clu = s.clu := rfl
@[simp] theorem onTwin_work (s : State) (f : Twin → Twin) : (onTwin s f).work = s.work := rfl
@[simp] theorem onTwin_dsp (s : State) (f : Twin → Twin) : (onTwin s f).dsp = s.dsp := rfl
@[simp] theorem onTwin_cam (s : State) (f : Twin → Twin) : (onTwin s f).cam = s.cam := rfl
@[simp] theorem onTwin_aon (s : State) (f : Twin → Twin) : (onTwin s f).aon = s.aon := rfl
@[simp] theorem onTwin_fuse (s : State) (f : Twin → Twin) : (onTwin s f).fuse = s.fuse := rfl
@[simp] theorem onTwin_grm (s : State) (f : Twin → Twin) : (onTwin s f).grm = s.grm := rfl
@[simp] theorem onTwin_pmu (s : State) (f : Twin → Twin) : (onTwin s f).pmu = s.pmu := rfl
@[simp] theorem onTwin_pins (s : State) (f : Twin → Twin) : (onTwin s f).pins = s.pins := rfl
@[simp] theorem onTwin_dram (s : State) (f : Twin → Twin) : (onTwin s f).dram = s.dram := rfl
@[simp] theorem onTwin_cycleSets (s : State) (f : Twin → Twin) : (onTwin s f).cycleSets = s.cycleSets := rfl
@[simp] theorem onTwin_freeCtr (s : State) (f : Twin → Twin) : (onTwin s f).freeCtr = s.freeCtr := rfl
@[simp] theorem onTwin_pending (s : State) (f : Twin → Twin) : (onTwin s f).pending = s.pending := rfl

/-! ### onMem -/

@[simp] theorem onMem_regs (s : State) (f : MemSys → MemSys) : (onMem s f).regs = s.regs := rfl
@[simp] theorem onMem_ltb (s : State) (f : MemSys → MemSys) : (onMem s f).ltb = s.ltb := rfl
@[simp] theorem onMem_hiu (s : State) (f : MemSys → MemSys) : (onMem s f).hiu = s.hiu := rfl
@[simp] theorem onMem_cfe (s : State) (f : MemSys → MemSys) : (onMem s f).cfe = s.cfe := rfl
@[simp] theorem onMem_ctx (s : State) (f : MemSys → MemSys) : (onMem s f).ctx = s.ctx := rfl
@[simp] theorem onMem_con (s : State) (f : MemSys → MemSys) : (onMem s f).con = s.con := rfl
@[simp] theorem onMem_twin (s : State) (f : MemSys → MemSys) : (onMem s f).twin = s.twin := rfl
@[simp] theorem onMem_mem (s : State) (f : MemSys → MemSys) : (onMem s f).mem = f s.mem := rfl
@[simp] theorem onMem_vzl (s : State) (f : MemSys → MemSys) : (onMem s f).vzl = s.vzl := rfl
@[simp] theorem onMem_hlt (s : State) (f : MemSys → MemSys) : (onMem s f).hlt = s.hlt := rfl
@[simp] theorem onMem_heap (s : State) (f : MemSys → MemSys) : (onMem s f).heap = s.heap := rfl
@[simp] theorem onMem_clu (s : State) (f : MemSys → MemSys) : (onMem s f).clu = s.clu := rfl
@[simp] theorem onMem_work (s : State) (f : MemSys → MemSys) : (onMem s f).work = s.work := rfl
@[simp] theorem onMem_dsp (s : State) (f : MemSys → MemSys) : (onMem s f).dsp = s.dsp := rfl
@[simp] theorem onMem_cam (s : State) (f : MemSys → MemSys) : (onMem s f).cam = s.cam := rfl
@[simp] theorem onMem_aon (s : State) (f : MemSys → MemSys) : (onMem s f).aon = s.aon := rfl
@[simp] theorem onMem_fuse (s : State) (f : MemSys → MemSys) : (onMem s f).fuse = s.fuse := rfl
@[simp] theorem onMem_grm (s : State) (f : MemSys → MemSys) : (onMem s f).grm = s.grm := rfl
@[simp] theorem onMem_pmu (s : State) (f : MemSys → MemSys) : (onMem s f).pmu = s.pmu := rfl
@[simp] theorem onMem_pins (s : State) (f : MemSys → MemSys) : (onMem s f).pins = s.pins := rfl
@[simp] theorem onMem_dram (s : State) (f : MemSys → MemSys) : (onMem s f).dram = s.dram := rfl
@[simp] theorem onMem_cycleSets (s : State) (f : MemSys → MemSys) : (onMem s f).cycleSets = s.cycleSets := rfl
@[simp] theorem onMem_freeCtr (s : State) (f : MemSys → MemSys) : (onMem s f).freeCtr = s.freeCtr := rfl
@[simp] theorem onMem_pending (s : State) (f : MemSys → MemSys) : (onMem s f).pending = s.pending := rfl

/-! ### onVzl -/

@[simp] theorem onVzl_regs (s : State) (f : Vzl → Vzl) : (onVzl s f).regs = s.regs := rfl
@[simp] theorem onVzl_ltb (s : State) (f : Vzl → Vzl) : (onVzl s f).ltb = s.ltb := rfl
@[simp] theorem onVzl_hiu (s : State) (f : Vzl → Vzl) : (onVzl s f).hiu = s.hiu := rfl
@[simp] theorem onVzl_cfe (s : State) (f : Vzl → Vzl) : (onVzl s f).cfe = s.cfe := rfl
@[simp] theorem onVzl_ctx (s : State) (f : Vzl → Vzl) : (onVzl s f).ctx = s.ctx := rfl
@[simp] theorem onVzl_con (s : State) (f : Vzl → Vzl) : (onVzl s f).con = s.con := rfl
@[simp] theorem onVzl_twin (s : State) (f : Vzl → Vzl) : (onVzl s f).twin = s.twin := rfl
@[simp] theorem onVzl_mem (s : State) (f : Vzl → Vzl) : (onVzl s f).mem = s.mem := rfl
@[simp] theorem onVzl_vzl (s : State) (f : Vzl → Vzl) : (onVzl s f).vzl = f s.vzl := rfl
@[simp] theorem onVzl_hlt (s : State) (f : Vzl → Vzl) : (onVzl s f).hlt = s.hlt := rfl
@[simp] theorem onVzl_heap (s : State) (f : Vzl → Vzl) : (onVzl s f).heap = s.heap := rfl
@[simp] theorem onVzl_clu (s : State) (f : Vzl → Vzl) : (onVzl s f).clu = s.clu := rfl
@[simp] theorem onVzl_work (s : State) (f : Vzl → Vzl) : (onVzl s f).work = s.work := rfl
@[simp] theorem onVzl_dsp (s : State) (f : Vzl → Vzl) : (onVzl s f).dsp = s.dsp := rfl
@[simp] theorem onVzl_cam (s : State) (f : Vzl → Vzl) : (onVzl s f).cam = s.cam := rfl
@[simp] theorem onVzl_aon (s : State) (f : Vzl → Vzl) : (onVzl s f).aon = s.aon := rfl
@[simp] theorem onVzl_fuse (s : State) (f : Vzl → Vzl) : (onVzl s f).fuse = s.fuse := rfl
@[simp] theorem onVzl_grm (s : State) (f : Vzl → Vzl) : (onVzl s f).grm = s.grm := rfl
@[simp] theorem onVzl_pmu (s : State) (f : Vzl → Vzl) : (onVzl s f).pmu = s.pmu := rfl
@[simp] theorem onVzl_pins (s : State) (f : Vzl → Vzl) : (onVzl s f).pins = s.pins := rfl
@[simp] theorem onVzl_dram (s : State) (f : Vzl → Vzl) : (onVzl s f).dram = s.dram := rfl
@[simp] theorem onVzl_cycleSets (s : State) (f : Vzl → Vzl) : (onVzl s f).cycleSets = s.cycleSets := rfl
@[simp] theorem onVzl_freeCtr (s : State) (f : Vzl → Vzl) : (onVzl s f).freeCtr = s.freeCtr := rfl
@[simp] theorem onVzl_pending (s : State) (f : Vzl → Vzl) : (onVzl s f).pending = s.pending := rfl

/-! ### onHlt -/

@[simp] theorem onHlt_regs (s : State) (f : Hlt → Hlt) : (onHlt s f).regs = s.regs := rfl
@[simp] theorem onHlt_ltb (s : State) (f : Hlt → Hlt) : (onHlt s f).ltb = s.ltb := rfl
@[simp] theorem onHlt_hiu (s : State) (f : Hlt → Hlt) : (onHlt s f).hiu = s.hiu := rfl
@[simp] theorem onHlt_cfe (s : State) (f : Hlt → Hlt) : (onHlt s f).cfe = s.cfe := rfl
@[simp] theorem onHlt_ctx (s : State) (f : Hlt → Hlt) : (onHlt s f).ctx = s.ctx := rfl
@[simp] theorem onHlt_con (s : State) (f : Hlt → Hlt) : (onHlt s f).con = s.con := rfl
@[simp] theorem onHlt_twin (s : State) (f : Hlt → Hlt) : (onHlt s f).twin = s.twin := rfl
@[simp] theorem onHlt_mem (s : State) (f : Hlt → Hlt) : (onHlt s f).mem = s.mem := rfl
@[simp] theorem onHlt_vzl (s : State) (f : Hlt → Hlt) : (onHlt s f).vzl = s.vzl := rfl
@[simp] theorem onHlt_hlt (s : State) (f : Hlt → Hlt) : (onHlt s f).hlt = f s.hlt := rfl
@[simp] theorem onHlt_heap (s : State) (f : Hlt → Hlt) : (onHlt s f).heap = s.heap := rfl
@[simp] theorem onHlt_clu (s : State) (f : Hlt → Hlt) : (onHlt s f).clu = s.clu := rfl
@[simp] theorem onHlt_work (s : State) (f : Hlt → Hlt) : (onHlt s f).work = s.work := rfl
@[simp] theorem onHlt_dsp (s : State) (f : Hlt → Hlt) : (onHlt s f).dsp = s.dsp := rfl
@[simp] theorem onHlt_cam (s : State) (f : Hlt → Hlt) : (onHlt s f).cam = s.cam := rfl
@[simp] theorem onHlt_aon (s : State) (f : Hlt → Hlt) : (onHlt s f).aon = s.aon := rfl
@[simp] theorem onHlt_fuse (s : State) (f : Hlt → Hlt) : (onHlt s f).fuse = s.fuse := rfl
@[simp] theorem onHlt_grm (s : State) (f : Hlt → Hlt) : (onHlt s f).grm = s.grm := rfl
@[simp] theorem onHlt_pmu (s : State) (f : Hlt → Hlt) : (onHlt s f).pmu = s.pmu := rfl
@[simp] theorem onHlt_pins (s : State) (f : Hlt → Hlt) : (onHlt s f).pins = s.pins := rfl
@[simp] theorem onHlt_dram (s : State) (f : Hlt → Hlt) : (onHlt s f).dram = s.dram := rfl
@[simp] theorem onHlt_cycleSets (s : State) (f : Hlt → Hlt) : (onHlt s f).cycleSets = s.cycleSets := rfl
@[simp] theorem onHlt_freeCtr (s : State) (f : Hlt → Hlt) : (onHlt s f).freeCtr = s.freeCtr := rfl
@[simp] theorem onHlt_pending (s : State) (f : Hlt → Hlt) : (onHlt s f).pending = s.pending := rfl

/-! ### onClu -/

@[simp] theorem onClu_regs (s : State) (f : Clu → Clu) : (onClu s f).regs = s.regs := rfl
@[simp] theorem onClu_ltb (s : State) (f : Clu → Clu) : (onClu s f).ltb = s.ltb := rfl
@[simp] theorem onClu_hiu (s : State) (f : Clu → Clu) : (onClu s f).hiu = s.hiu := rfl
@[simp] theorem onClu_cfe (s : State) (f : Clu → Clu) : (onClu s f).cfe = s.cfe := rfl
@[simp] theorem onClu_ctx (s : State) (f : Clu → Clu) : (onClu s f).ctx = s.ctx := rfl
@[simp] theorem onClu_con (s : State) (f : Clu → Clu) : (onClu s f).con = s.con := rfl
@[simp] theorem onClu_twin (s : State) (f : Clu → Clu) : (onClu s f).twin = s.twin := rfl
@[simp] theorem onClu_mem (s : State) (f : Clu → Clu) : (onClu s f).mem = s.mem := rfl
@[simp] theorem onClu_vzl (s : State) (f : Clu → Clu) : (onClu s f).vzl = s.vzl := rfl
@[simp] theorem onClu_hlt (s : State) (f : Clu → Clu) : (onClu s f).hlt = s.hlt := rfl
@[simp] theorem onClu_heap (s : State) (f : Clu → Clu) : (onClu s f).heap = s.heap := rfl
@[simp] theorem onClu_clu (s : State) (f : Clu → Clu) : (onClu s f).clu = f s.clu := rfl
@[simp] theorem onClu_work (s : State) (f : Clu → Clu) : (onClu s f).work = s.work := rfl
@[simp] theorem onClu_dsp (s : State) (f : Clu → Clu) : (onClu s f).dsp = s.dsp := rfl
@[simp] theorem onClu_cam (s : State) (f : Clu → Clu) : (onClu s f).cam = s.cam := rfl
@[simp] theorem onClu_aon (s : State) (f : Clu → Clu) : (onClu s f).aon = s.aon := rfl
@[simp] theorem onClu_fuse (s : State) (f : Clu → Clu) : (onClu s f).fuse = s.fuse := rfl
@[simp] theorem onClu_grm (s : State) (f : Clu → Clu) : (onClu s f).grm = s.grm := rfl
@[simp] theorem onClu_pmu (s : State) (f : Clu → Clu) : (onClu s f).pmu = s.pmu := rfl
@[simp] theorem onClu_pins (s : State) (f : Clu → Clu) : (onClu s f).pins = s.pins := rfl
@[simp] theorem onClu_dram (s : State) (f : Clu → Clu) : (onClu s f).dram = s.dram := rfl
@[simp] theorem onClu_cycleSets (s : State) (f : Clu → Clu) : (onClu s f).cycleSets = s.cycleSets := rfl
@[simp] theorem onClu_freeCtr (s : State) (f : Clu → Clu) : (onClu s f).freeCtr = s.freeCtr := rfl
@[simp] theorem onClu_pending (s : State) (f : Clu → Clu) : (onClu s f).pending = s.pending := rfl

/-! ### onWork -/

@[simp] theorem onWork_regs (s : State) (f : Work → Work) : (onWork s f).regs = s.regs := rfl
@[simp] theorem onWork_ltb (s : State) (f : Work → Work) : (onWork s f).ltb = s.ltb := rfl
@[simp] theorem onWork_hiu (s : State) (f : Work → Work) : (onWork s f).hiu = s.hiu := rfl
@[simp] theorem onWork_cfe (s : State) (f : Work → Work) : (onWork s f).cfe = s.cfe := rfl
@[simp] theorem onWork_ctx (s : State) (f : Work → Work) : (onWork s f).ctx = s.ctx := rfl
@[simp] theorem onWork_con (s : State) (f : Work → Work) : (onWork s f).con = s.con := rfl
@[simp] theorem onWork_twin (s : State) (f : Work → Work) : (onWork s f).twin = s.twin := rfl
@[simp] theorem onWork_mem (s : State) (f : Work → Work) : (onWork s f).mem = s.mem := rfl
@[simp] theorem onWork_vzl (s : State) (f : Work → Work) : (onWork s f).vzl = s.vzl := rfl
@[simp] theorem onWork_hlt (s : State) (f : Work → Work) : (onWork s f).hlt = s.hlt := rfl
@[simp] theorem onWork_heap (s : State) (f : Work → Work) : (onWork s f).heap = s.heap := rfl
@[simp] theorem onWork_clu (s : State) (f : Work → Work) : (onWork s f).clu = s.clu := rfl
@[simp] theorem onWork_work (s : State) (f : Work → Work) : (onWork s f).work = f s.work := rfl
@[simp] theorem onWork_dsp (s : State) (f : Work → Work) : (onWork s f).dsp = s.dsp := rfl
@[simp] theorem onWork_cam (s : State) (f : Work → Work) : (onWork s f).cam = s.cam := rfl
@[simp] theorem onWork_aon (s : State) (f : Work → Work) : (onWork s f).aon = s.aon := rfl
@[simp] theorem onWork_fuse (s : State) (f : Work → Work) : (onWork s f).fuse = s.fuse := rfl
@[simp] theorem onWork_grm (s : State) (f : Work → Work) : (onWork s f).grm = s.grm := rfl
@[simp] theorem onWork_pmu (s : State) (f : Work → Work) : (onWork s f).pmu = s.pmu := rfl
@[simp] theorem onWork_pins (s : State) (f : Work → Work) : (onWork s f).pins = s.pins := rfl
@[simp] theorem onWork_dram (s : State) (f : Work → Work) : (onWork s f).dram = s.dram := rfl
@[simp] theorem onWork_cycleSets (s : State) (f : Work → Work) : (onWork s f).cycleSets = s.cycleSets := rfl
@[simp] theorem onWork_freeCtr (s : State) (f : Work → Work) : (onWork s f).freeCtr = s.freeCtr := rfl
@[simp] theorem onWork_pending (s : State) (f : Work → Work) : (onWork s f).pending = s.pending := rfl

/-! ### onDsp -/

@[simp] theorem onDsp_regs (s : State) (f : Dsp → Dsp) : (onDsp s f).regs = s.regs := rfl
@[simp] theorem onDsp_ltb (s : State) (f : Dsp → Dsp) : (onDsp s f).ltb = s.ltb := rfl
@[simp] theorem onDsp_hiu (s : State) (f : Dsp → Dsp) : (onDsp s f).hiu = s.hiu := rfl
@[simp] theorem onDsp_cfe (s : State) (f : Dsp → Dsp) : (onDsp s f).cfe = s.cfe := rfl
@[simp] theorem onDsp_ctx (s : State) (f : Dsp → Dsp) : (onDsp s f).ctx = s.ctx := rfl
@[simp] theorem onDsp_con (s : State) (f : Dsp → Dsp) : (onDsp s f).con = s.con := rfl
@[simp] theorem onDsp_twin (s : State) (f : Dsp → Dsp) : (onDsp s f).twin = s.twin := rfl
@[simp] theorem onDsp_mem (s : State) (f : Dsp → Dsp) : (onDsp s f).mem = s.mem := rfl
@[simp] theorem onDsp_vzl (s : State) (f : Dsp → Dsp) : (onDsp s f).vzl = s.vzl := rfl
@[simp] theorem onDsp_hlt (s : State) (f : Dsp → Dsp) : (onDsp s f).hlt = s.hlt := rfl
@[simp] theorem onDsp_heap (s : State) (f : Dsp → Dsp) : (onDsp s f).heap = s.heap := rfl
@[simp] theorem onDsp_clu (s : State) (f : Dsp → Dsp) : (onDsp s f).clu = s.clu := rfl
@[simp] theorem onDsp_work (s : State) (f : Dsp → Dsp) : (onDsp s f).work = s.work := rfl
@[simp] theorem onDsp_dsp (s : State) (f : Dsp → Dsp) : (onDsp s f).dsp = f s.dsp := rfl
@[simp] theorem onDsp_cam (s : State) (f : Dsp → Dsp) : (onDsp s f).cam = s.cam := rfl
@[simp] theorem onDsp_aon (s : State) (f : Dsp → Dsp) : (onDsp s f).aon = s.aon := rfl
@[simp] theorem onDsp_fuse (s : State) (f : Dsp → Dsp) : (onDsp s f).fuse = s.fuse := rfl
@[simp] theorem onDsp_grm (s : State) (f : Dsp → Dsp) : (onDsp s f).grm = s.grm := rfl
@[simp] theorem onDsp_pmu (s : State) (f : Dsp → Dsp) : (onDsp s f).pmu = s.pmu := rfl
@[simp] theorem onDsp_pins (s : State) (f : Dsp → Dsp) : (onDsp s f).pins = s.pins := rfl
@[simp] theorem onDsp_dram (s : State) (f : Dsp → Dsp) : (onDsp s f).dram = s.dram := rfl
@[simp] theorem onDsp_cycleSets (s : State) (f : Dsp → Dsp) : (onDsp s f).cycleSets = s.cycleSets := rfl
@[simp] theorem onDsp_freeCtr (s : State) (f : Dsp → Dsp) : (onDsp s f).freeCtr = s.freeCtr := rfl
@[simp] theorem onDsp_pending (s : State) (f : Dsp → Dsp) : (onDsp s f).pending = s.pending := rfl

/-! ### onCam -/

@[simp] theorem onCam_regs (s : State) (n : Nat) (f : CamPort → CamPort) : (onCam s n f).regs = s.regs := rfl
@[simp] theorem onCam_ltb (s : State) (n : Nat) (f : CamPort → CamPort) : (onCam s n f).ltb = s.ltb := rfl
@[simp] theorem onCam_hiu (s : State) (n : Nat) (f : CamPort → CamPort) : (onCam s n f).hiu = s.hiu := rfl
@[simp] theorem onCam_cfe (s : State) (n : Nat) (f : CamPort → CamPort) : (onCam s n f).cfe = s.cfe := rfl
@[simp] theorem onCam_ctx (s : State) (n : Nat) (f : CamPort → CamPort) : (onCam s n f).ctx = s.ctx := rfl
@[simp] theorem onCam_con (s : State) (n : Nat) (f : CamPort → CamPort) : (onCam s n f).con = s.con := rfl
@[simp] theorem onCam_twin (s : State) (n : Nat) (f : CamPort → CamPort) : (onCam s n f).twin = s.twin := rfl
@[simp] theorem onCam_mem (s : State) (n : Nat) (f : CamPort → CamPort) : (onCam s n f).mem = s.mem := rfl
@[simp] theorem onCam_vzl (s : State) (n : Nat) (f : CamPort → CamPort) : (onCam s n f).vzl = s.vzl := rfl
@[simp] theorem onCam_hlt (s : State) (n : Nat) (f : CamPort → CamPort) : (onCam s n f).hlt = s.hlt := rfl
@[simp] theorem onCam_heap (s : State) (n : Nat) (f : CamPort → CamPort) : (onCam s n f).heap = s.heap := rfl
@[simp] theorem onCam_clu (s : State) (n : Nat) (f : CamPort → CamPort) : (onCam s n f).clu = s.clu := rfl
@[simp] theorem onCam_work (s : State) (n : Nat) (f : CamPort → CamPort) : (onCam s n f).work = s.work := rfl
@[simp] theorem onCam_dsp (s : State) (n : Nat) (f : CamPort → CamPort) : (onCam s n f).dsp = s.dsp := rfl
@[simp] theorem onCam_cam (s : State) (n : Nat) (f : CamPort → CamPort) : (onCam s n f).cam = modAt s.cam n f := rfl
@[simp] theorem onCam_aon (s : State) (n : Nat) (f : CamPort → CamPort) : (onCam s n f).aon = s.aon := rfl
@[simp] theorem onCam_fuse (s : State) (n : Nat) (f : CamPort → CamPort) : (onCam s n f).fuse = s.fuse := rfl
@[simp] theorem onCam_grm (s : State) (n : Nat) (f : CamPort → CamPort) : (onCam s n f).grm = s.grm := rfl
@[simp] theorem onCam_pmu (s : State) (n : Nat) (f : CamPort → CamPort) : (onCam s n f).pmu = s.pmu := rfl
@[simp] theorem onCam_pins (s : State) (n : Nat) (f : CamPort → CamPort) : (onCam s n f).pins = s.pins := rfl
@[simp] theorem onCam_dram (s : State) (n : Nat) (f : CamPort → CamPort) : (onCam s n f).dram = s.dram := rfl
@[simp] theorem onCam_cycleSets (s : State) (n : Nat) (f : CamPort → CamPort) : (onCam s n f).cycleSets = s.cycleSets := rfl
@[simp] theorem onCam_freeCtr (s : State) (n : Nat) (f : CamPort → CamPort) : (onCam s n f).freeCtr = s.freeCtr := rfl
@[simp] theorem onCam_pending (s : State) (n : Nat) (f : CamPort → CamPort) : (onCam s n f).pending = s.pending := rfl

/-! ### onAon -/

@[simp] theorem onAon_regs (s : State) (f : Aon → Aon) : (onAon s f).regs = s.regs := rfl
@[simp] theorem onAon_ltb (s : State) (f : Aon → Aon) : (onAon s f).ltb = s.ltb := rfl
@[simp] theorem onAon_hiu (s : State) (f : Aon → Aon) : (onAon s f).hiu = s.hiu := rfl
@[simp] theorem onAon_cfe (s : State) (f : Aon → Aon) : (onAon s f).cfe = s.cfe := rfl
@[simp] theorem onAon_ctx (s : State) (f : Aon → Aon) : (onAon s f).ctx = s.ctx := rfl
@[simp] theorem onAon_con (s : State) (f : Aon → Aon) : (onAon s f).con = s.con := rfl
@[simp] theorem onAon_twin (s : State) (f : Aon → Aon) : (onAon s f).twin = s.twin := rfl
@[simp] theorem onAon_mem (s : State) (f : Aon → Aon) : (onAon s f).mem = s.mem := rfl
@[simp] theorem onAon_vzl (s : State) (f : Aon → Aon) : (onAon s f).vzl = s.vzl := rfl
@[simp] theorem onAon_hlt (s : State) (f : Aon → Aon) : (onAon s f).hlt = s.hlt := rfl
@[simp] theorem onAon_heap (s : State) (f : Aon → Aon) : (onAon s f).heap = s.heap := rfl
@[simp] theorem onAon_clu (s : State) (f : Aon → Aon) : (onAon s f).clu = s.clu := rfl
@[simp] theorem onAon_work (s : State) (f : Aon → Aon) : (onAon s f).work = s.work := rfl
@[simp] theorem onAon_dsp (s : State) (f : Aon → Aon) : (onAon s f).dsp = s.dsp := rfl
@[simp] theorem onAon_cam (s : State) (f : Aon → Aon) : (onAon s f).cam = s.cam := rfl
@[simp] theorem onAon_aon (s : State) (f : Aon → Aon) : (onAon s f).aon = f s.aon := rfl
@[simp] theorem onAon_fuse (s : State) (f : Aon → Aon) : (onAon s f).fuse = s.fuse := rfl
@[simp] theorem onAon_grm (s : State) (f : Aon → Aon) : (onAon s f).grm = s.grm := rfl
@[simp] theorem onAon_pmu (s : State) (f : Aon → Aon) : (onAon s f).pmu = s.pmu := rfl
@[simp] theorem onAon_pins (s : State) (f : Aon → Aon) : (onAon s f).pins = s.pins := rfl
@[simp] theorem onAon_dram (s : State) (f : Aon → Aon) : (onAon s f).dram = s.dram := rfl
@[simp] theorem onAon_cycleSets (s : State) (f : Aon → Aon) : (onAon s f).cycleSets = s.cycleSets := rfl
@[simp] theorem onAon_freeCtr (s : State) (f : Aon → Aon) : (onAon s f).freeCtr = s.freeCtr := rfl
@[simp] theorem onAon_pending (s : State) (f : Aon → Aon) : (onAon s f).pending = s.pending := rfl

/-! ### onGrm -/

@[simp] theorem onGrm_regs (s : State) (f : Grm → Grm) : (onGrm s f).regs = s.regs := rfl
@[simp] theorem onGrm_ltb (s : State) (f : Grm → Grm) : (onGrm s f).ltb = s.ltb := rfl
@[simp] theorem onGrm_hiu (s : State) (f : Grm → Grm) : (onGrm s f).hiu = s.hiu := rfl
@[simp] theorem onGrm_cfe (s : State) (f : Grm → Grm) : (onGrm s f).cfe = s.cfe := rfl
@[simp] theorem onGrm_ctx (s : State) (f : Grm → Grm) : (onGrm s f).ctx = s.ctx := rfl
@[simp] theorem onGrm_con (s : State) (f : Grm → Grm) : (onGrm s f).con = s.con := rfl
@[simp] theorem onGrm_twin (s : State) (f : Grm → Grm) : (onGrm s f).twin = s.twin := rfl
@[simp] theorem onGrm_mem (s : State) (f : Grm → Grm) : (onGrm s f).mem = s.mem := rfl
@[simp] theorem onGrm_vzl (s : State) (f : Grm → Grm) : (onGrm s f).vzl = s.vzl := rfl
@[simp] theorem onGrm_hlt (s : State) (f : Grm → Grm) : (onGrm s f).hlt = s.hlt := rfl
@[simp] theorem onGrm_heap (s : State) (f : Grm → Grm) : (onGrm s f).heap = s.heap := rfl
@[simp] theorem onGrm_clu (s : State) (f : Grm → Grm) : (onGrm s f).clu = s.clu := rfl
@[simp] theorem onGrm_work (s : State) (f : Grm → Grm) : (onGrm s f).work = s.work := rfl
@[simp] theorem onGrm_dsp (s : State) (f : Grm → Grm) : (onGrm s f).dsp = s.dsp := rfl
@[simp] theorem onGrm_cam (s : State) (f : Grm → Grm) : (onGrm s f).cam = s.cam := rfl
@[simp] theorem onGrm_aon (s : State) (f : Grm → Grm) : (onGrm s f).aon = s.aon := rfl
@[simp] theorem onGrm_fuse (s : State) (f : Grm → Grm) : (onGrm s f).fuse = s.fuse := rfl
@[simp] theorem onGrm_grm (s : State) (f : Grm → Grm) : (onGrm s f).grm = f s.grm := rfl
@[simp] theorem onGrm_pmu (s : State) (f : Grm → Grm) : (onGrm s f).pmu = s.pmu := rfl
@[simp] theorem onGrm_pins (s : State) (f : Grm → Grm) : (onGrm s f).pins = s.pins := rfl
@[simp] theorem onGrm_dram (s : State) (f : Grm → Grm) : (onGrm s f).dram = s.dram := rfl
@[simp] theorem onGrm_cycleSets (s : State) (f : Grm → Grm) : (onGrm s f).cycleSets = s.cycleSets := rfl
@[simp] theorem onGrm_freeCtr (s : State) (f : Grm → Grm) : (onGrm s f).freeCtr = s.freeCtr := rfl
@[simp] theorem onGrm_pending (s : State) (f : Grm → Grm) : (onGrm s f).pending = s.pending := rfl

/-! ### onPmu -/

@[simp] theorem onPmu_regs (s : State) (f : Pmu → Pmu) : (onPmu s f).regs = s.regs := rfl
@[simp] theorem onPmu_ltb (s : State) (f : Pmu → Pmu) : (onPmu s f).ltb = s.ltb := rfl
@[simp] theorem onPmu_hiu (s : State) (f : Pmu → Pmu) : (onPmu s f).hiu = s.hiu := rfl
@[simp] theorem onPmu_cfe (s : State) (f : Pmu → Pmu) : (onPmu s f).cfe = s.cfe := rfl
@[simp] theorem onPmu_ctx (s : State) (f : Pmu → Pmu) : (onPmu s f).ctx = s.ctx := rfl
@[simp] theorem onPmu_con (s : State) (f : Pmu → Pmu) : (onPmu s f).con = s.con := rfl
@[simp] theorem onPmu_twin (s : State) (f : Pmu → Pmu) : (onPmu s f).twin = s.twin := rfl
@[simp] theorem onPmu_mem (s : State) (f : Pmu → Pmu) : (onPmu s f).mem = s.mem := rfl
@[simp] theorem onPmu_vzl (s : State) (f : Pmu → Pmu) : (onPmu s f).vzl = s.vzl := rfl
@[simp] theorem onPmu_hlt (s : State) (f : Pmu → Pmu) : (onPmu s f).hlt = s.hlt := rfl
@[simp] theorem onPmu_heap (s : State) (f : Pmu → Pmu) : (onPmu s f).heap = s.heap := rfl
@[simp] theorem onPmu_clu (s : State) (f : Pmu → Pmu) : (onPmu s f).clu = s.clu := rfl
@[simp] theorem onPmu_work (s : State) (f : Pmu → Pmu) : (onPmu s f).work = s.work := rfl
@[simp] theorem onPmu_dsp (s : State) (f : Pmu → Pmu) : (onPmu s f).dsp = s.dsp := rfl
@[simp] theorem onPmu_cam (s : State) (f : Pmu → Pmu) : (onPmu s f).cam = s.cam := rfl
@[simp] theorem onPmu_aon (s : State) (f : Pmu → Pmu) : (onPmu s f).aon = s.aon := rfl
@[simp] theorem onPmu_fuse (s : State) (f : Pmu → Pmu) : (onPmu s f).fuse = s.fuse := rfl
@[simp] theorem onPmu_grm (s : State) (f : Pmu → Pmu) : (onPmu s f).grm = s.grm := rfl
@[simp] theorem onPmu_pmu (s : State) (f : Pmu → Pmu) : (onPmu s f).pmu = f s.pmu := rfl
@[simp] theorem onPmu_pins (s : State) (f : Pmu → Pmu) : (onPmu s f).pins = s.pins := rfl
@[simp] theorem onPmu_dram (s : State) (f : Pmu → Pmu) : (onPmu s f).dram = s.dram := rfl
@[simp] theorem onPmu_cycleSets (s : State) (f : Pmu → Pmu) : (onPmu s f).cycleSets = s.cycleSets := rfl
@[simp] theorem onPmu_freeCtr (s : State) (f : Pmu → Pmu) : (onPmu s f).freeCtr = s.freeCtr := rfl
@[simp] theorem onPmu_pending (s : State) (f : Pmu → Pmu) : (onPmu s f).pending = s.pending := rfl

/-! ### onPins -/

@[simp] theorem onPins_regs (s : State) (f : Pins → Pins) : (onPins s f).regs = s.regs := rfl
@[simp] theorem onPins_ltb (s : State) (f : Pins → Pins) : (onPins s f).ltb = s.ltb := rfl
@[simp] theorem onPins_hiu (s : State) (f : Pins → Pins) : (onPins s f).hiu = s.hiu := rfl
@[simp] theorem onPins_cfe (s : State) (f : Pins → Pins) : (onPins s f).cfe = s.cfe := rfl
@[simp] theorem onPins_ctx (s : State) (f : Pins → Pins) : (onPins s f).ctx = s.ctx := rfl
@[simp] theorem onPins_con (s : State) (f : Pins → Pins) : (onPins s f).con = s.con := rfl
@[simp] theorem onPins_twin (s : State) (f : Pins → Pins) : (onPins s f).twin = s.twin := rfl
@[simp] theorem onPins_mem (s : State) (f : Pins → Pins) : (onPins s f).mem = s.mem := rfl
@[simp] theorem onPins_vzl (s : State) (f : Pins → Pins) : (onPins s f).vzl = s.vzl := rfl
@[simp] theorem onPins_hlt (s : State) (f : Pins → Pins) : (onPins s f).hlt = s.hlt := rfl
@[simp] theorem onPins_heap (s : State) (f : Pins → Pins) : (onPins s f).heap = s.heap := rfl
@[simp] theorem onPins_clu (s : State) (f : Pins → Pins) : (onPins s f).clu = s.clu := rfl
@[simp] theorem onPins_work (s : State) (f : Pins → Pins) : (onPins s f).work = s.work := rfl
@[simp] theorem onPins_dsp (s : State) (f : Pins → Pins) : (onPins s f).dsp = s.dsp := rfl
@[simp] theorem onPins_cam (s : State) (f : Pins → Pins) : (onPins s f).cam = s.cam := rfl
@[simp] theorem onPins_aon (s : State) (f : Pins → Pins) : (onPins s f).aon = s.aon := rfl
@[simp] theorem onPins_fuse (s : State) (f : Pins → Pins) : (onPins s f).fuse = s.fuse := rfl
@[simp] theorem onPins_grm (s : State) (f : Pins → Pins) : (onPins s f).grm = s.grm := rfl
@[simp] theorem onPins_pmu (s : State) (f : Pins → Pins) : (onPins s f).pmu = s.pmu := rfl
@[simp] theorem onPins_pins (s : State) (f : Pins → Pins) : (onPins s f).pins = f s.pins := rfl
@[simp] theorem onPins_dram (s : State) (f : Pins → Pins) : (onPins s f).dram = s.dram := rfl
@[simp] theorem onPins_cycleSets (s : State) (f : Pins → Pins) : (onPins s f).cycleSets = s.cycleSets := rfl
@[simp] theorem onPins_freeCtr (s : State) (f : Pins → Pins) : (onPins s f).freeCtr = s.freeCtr := rfl
@[simp] theorem onPins_pending (s : State) (f : Pins → Pins) : (onPins s f).pending = s.pending := rfl

/-! ### confine -/

@[simp] theorem confine_regs (s s' : State) : (confine s s').regs = s'.regs := rfl
@[simp] theorem confine_ltb (s s' : State) : (confine s s').ltb = s'.ltb := rfl
@[simp] theorem confine_hiu (s s' : State) : (confine s s').hiu = s'.hiu := rfl
@[simp] theorem confine_cfe (s s' : State) : (confine s s').cfe = s'.cfe := rfl
@[simp] theorem confine_ctx (s s' : State) : (confine s s').ctx = s'.ctx := rfl
@[simp] theorem confine_con (s s' : State) : (confine s s').con = s'.con := rfl
@[simp] theorem confine_twin (s s' : State) : (confine s s').twin = s'.twin := rfl
@[simp] theorem confine_mem (s s' : State) : (confine s s').mem = { s'.mem with side := s.mem.side } := rfl
@[simp] theorem confine_vzl (s s' : State) : (confine s s').vzl = s'.vzl := rfl
@[simp] theorem confine_hlt (s s' : State) : (confine s s').hlt = s'.hlt := rfl
@[simp] theorem confine_heap (s s' : State) : (confine s s').heap = s'.heap := rfl
@[simp] theorem confine_clu (s s' : State) : (confine s s').clu = s'.clu := rfl
@[simp] theorem confine_work (s s' : State) : (confine s s').work = s'.work := rfl
@[simp] theorem confine_dsp (s s' : State) : (confine s s').dsp = s'.dsp := rfl
@[simp] theorem confine_cam (s s' : State) : (confine s s').cam = s'.cam := rfl
@[simp] theorem confine_aon (s s' : State) : (confine s s').aon = s'.aon := rfl
@[simp] theorem confine_fuse (s s' : State) : (confine s s').fuse = s'.fuse := rfl
@[simp] theorem confine_grm (s s' : State) : (confine s s').grm = s'.grm := rfl
@[simp] theorem confine_pmu (s s' : State) : (confine s s').pmu = { s'.pmu with sysRstN := s.pmu.sysRstN } := rfl
@[simp] theorem confine_pins (s s' : State) : (confine s s').pins = s'.pins := rfl
@[simp] theorem confine_dram (s s' : State) : (confine s s').dram = s'.dram := rfl
@[simp] theorem confine_cycleSets (s s' : State) : (confine s s').cycleSets = s'.cycleSets.drop s.cycleSets.length := rfl
@[simp] theorem confine_freeCtr (s s' : State) : (confine s s').freeCtr = s'.freeCtr := rfl
@[simp] theorem confine_pending (s s' : State) : (confine s s').pending = s.pending := rfl

/-! ### conSettle -/

@[simp] theorem conSettle_regs (s : State) : (conSettle s).regs = s.regs := rfl
@[simp] theorem conSettle_ltb (s : State) : (conSettle s).ltb = s.ltb := rfl
@[simp] theorem conSettle_hiu (s : State) : (conSettle s).hiu = s.hiu := rfl
@[simp] theorem conSettle_cfe (s : State) : (conSettle s).cfe = s.cfe := rfl
@[simp] theorem conSettle_ctx (s : State) : (conSettle s).ctx = s.ctx := rfl
@[simp] theorem conSettle_con (s : State) : (conSettle s).con = conNext s := rfl
@[simp] theorem conSettle_twin (s : State) : (conSettle s).twin = s.twin := rfl
@[simp] theorem conSettle_mem (s : State) : (conSettle s).mem = s.mem := rfl
@[simp] theorem conSettle_vzl (s : State) : (conSettle s).vzl = s.vzl := rfl
@[simp] theorem conSettle_hlt (s : State) : (conSettle s).hlt = s.hlt := rfl
@[simp] theorem conSettle_heap (s : State) : (conSettle s).heap = s.heap := rfl
@[simp] theorem conSettle_clu (s : State) : (conSettle s).clu = s.clu := rfl
@[simp] theorem conSettle_work (s : State) : (conSettle s).work = s.work := rfl
@[simp] theorem conSettle_dsp (s : State) : (conSettle s).dsp = s.dsp := rfl
@[simp] theorem conSettle_cam (s : State) : (conSettle s).cam = s.cam := rfl
@[simp] theorem conSettle_aon (s : State) : (conSettle s).aon = s.aon := rfl
@[simp] theorem conSettle_fuse (s : State) : (conSettle s).fuse = s.fuse := rfl
@[simp] theorem conSettle_grm (s : State) : (conSettle s).grm = s.grm := rfl
@[simp] theorem conSettle_pmu (s : State) : (conSettle s).pmu = s.pmu := rfl
@[simp] theorem conSettle_pins (s : State) : (conSettle s).pins = s.pins := rfl
@[simp] theorem conSettle_dram (s : State) : (conSettle s).dram = s.dram := rfl
@[simp] theorem conSettle_cycleSets (s : State) : (conSettle s).cycleSets = s.cycleSets := rfl
@[simp] theorem conSettle_freeCtr (s : State) : (conSettle s).freeCtr = s.freeCtr := rfl
@[simp] theorem conSettle_pending (s : State) : (conSettle s).pending = s.pending := rfl

end Sys2Proof.Machine
end

