-- ==== Sys2Proof/Laws/Store.lean ====
section
/-!
SUPPORT. The laws of sparse stores and memories: reading after writing, writing leaves every other key as it was,
and every write keeps the canonical form.
-/

namespace Sys2Proof.Machine

variable {α : Type} [DecidableEq α] (d : Nat → α)

@[simp] theorem storeGet_nil {β : Type} (d : Nat → β) (k : Nat) : storeGet d [] k = d k := rfl

/-! ### Reading after writing -/

theorem storeGet_erase_same {β : Type} (d : Nat → β) (m : Store β) (k : Nat) : storeGet d (storeErase m k) k = d k := by
  induction m with
  | nil => rfl
  | cons p m ih =>
    by_cases h : p.1 = k
    · simpa [storeErase, h] using ih
    · simpa [storeErase, h, storeGet] using ih

theorem storeGet_erase_ne {β : Type} (d : Nat → β) (m : Store β) (k j : Nat) (hj : j ≠ k) :
    storeGet d (storeErase m k) j = storeGet d m j := by
  induction m with
  | nil => rfl
  | cons p m ih =>
    by_cases h : p.1 = k
    · have : p.1 ≠ j := by omega
      have hk : k ≠ j := Ne.symm hj
      simpa [storeErase, h, storeGet, this, hk] using ih
    · by_cases e : p.1 = j
      · simp [storeErase, storeGet, e, hj]
      · simpa [storeErase, h, storeGet, e] using ih

theorem storeGet_insert_same {β : Type} (d : Nat → β) (m : Store β) (k : Nat) (v : β)
    (h : ∀ e ∈ m, e.1 ≠ k) : storeGet d (storeInsert m k v) k = v := by
  induction m with
  | nil => simp [storeInsert, storeGet]
  | cons p m ih =>
    have hp : p.1 ≠ k := h p (by simp)
    have := ih fun e he => h e (by simp [he])
    by_cases hl : k < p.1 <;> simp [storeInsert, storeGet, hl, hp, this]

theorem storeGet_insert_ne {β : Type} (d : Nat → β) (m : Store β) (k j : Nat) (v : β) (hj : j ≠ k) :
    storeGet d (storeInsert m k v) j = storeGet d m j := by
  have hk : k ≠ j := Ne.symm hj
  induction m with
  | nil => simp [storeInsert, storeGet, hk]
  | cons p m ih => by_cases hl : k < p.1 <;> simp [storeInsert, storeGet, hl, hk, ih]

/-- Reading the key just written gives the value written. -/
@[simp] theorem storeGet_put_same (m : Store α) (k : Nat) (v : α) : storeGet d (storePut d m k v) k = v := by
  unfold storePut
  split
  · rw [storeGet_erase_same]; exact Eq.symm ‹_›
  · exact storeGet_insert_same d _ k v fun e he => by simpa [storeErase] using (List.mem_filter.mp he).2

/-- Writing one key leaves every other key as it was. -/
theorem storeGet_put_ne (m : Store α) (k j : Nat) (v : α) (hj : j ≠ k) :
    storeGet d (storePut d m k v) j = storeGet d m j := by
  unfold storePut
  split
  · exact storeGet_erase_ne d m k j hj
  · rw [storeGet_insert_ne d _ k j v hj, storeGet_erase_ne d m k j hj]

/-- What every key reads as after a write. -/
theorem storeGet_put (m : Store α) (k j : Nat) (v : α) :
    storeGet d (storePut d m k v) j = if j = k then v else storeGet d m j := by
  split
  · subst_vars; exact storeGet_put_same d m _ v
  · exact storeGet_put_ne d m k j v ‹_›

/-! ### The canonical form -/

theorem aboveBound_of (b : Option Nat) (k : Nat) (h : ∀ c, b = some c → c < k) : aboveBound b k = true := by
  cases b with
  | none => rfl
  | some c => simpa [aboveBound] using h c rfl

theorem lt_of_aboveBound (b : Option Nat) (k : Nat) (h : aboveBound b k = true) : ∀ c, b = some c → c < k := by
  intro c hc; subst hc; simpa [aboveBound] using h

/-- A store canonical above a bound is canonical above a smaller one. -/
theorem storeWfFrom_weaken (m : Store α) (b c : Nat) (h : storeWfFrom d (some b) m = true) (hc : c ≤ b) :
    storeWfFrom d (some c) m = true := by
  cases m with
  | nil => rfl
  | cons p m =>
    simp only [storeWfFrom, aboveBound, Bool.and_eq_true, decide_eq_true_eq] at h ⊢
    exact ⟨⟨by omega, h.1.2⟩, h.2⟩

theorem storeWfFrom_none (m : Store α) (b : Option Nat) (h : storeWfFrom d b m = true) : storeWfFrom d none m = true := by
  cases m with
  | nil => rfl
  | cons p m =>
    simp only [storeWfFrom, Bool.and_eq_true] at h ⊢
    exact ⟨⟨rfl, h.1.2⟩, h.2⟩

/-- A tail that is canonical above its head is canonical above any bound that the head exceeds. -/
theorem storeWfFrom_below (m : Store α) (b : Option Nat) (k : Nat) (h : storeWfFrom d (some k) m = true)
    (hb : ∀ c, b = some c → c < k) : storeWfFrom d b m = true := by
  cases b with
  | none => exact storeWfFrom_none d m _ h
  | some c => exact storeWfFrom_weaken d m k c h (Nat.le_of_lt (hb c rfl))

theorem storeWfFrom_erase (m : Store α) (b : Option Nat) (k : Nat) (h : storeWfFrom d b m = true) :
    storeWfFrom d b (storeErase m k) = true := by
  induction m generalizing b with
  | nil => exact h
  | cons p m ih =>
    have ⟨⟨h1, h2⟩, h3⟩ : (aboveBound b p.1 = true ∧ decide (p.2 ≠ d p.1) = true) ∧
        storeWfFrom d (some p.1) m = true := by simpa only [storeWfFrom, Bool.and_eq_true] using h
    by_cases e : p.1 = k
    · have := storeWfFrom_below d _ b p.1 (ih (some p.1) h3) (lt_of_aboveBound b _ h1)
      simpa [storeErase, e] using this
    · have := ih (some p.1) h3
      simp only [storeErase, ne_eq, e, not_false_eq_true, decide_true, List.filter_cons_of_pos] at this ⊢
      simp only [storeWfFrom, Bool.and_eq_true]
      exact ⟨⟨h1, h2⟩, this⟩

theorem storeWfFrom_insert (m : Store α) (b : Option Nat) (k : Nat) (v : α) (h : storeWfFrom d b m = true)
    (hb : ∀ c, b = some c → c < k) (hk : ∀ e ∈ m, e.1 ≠ k) (hv : v ≠ d k) :
    storeWfFrom d b (storeInsert m k v) = true := by
  induction m generalizing b with
  | nil => simp only [storeInsert, storeWfFrom, Bool.and_eq_true]; exact ⟨⟨aboveBound_of b k hb, by simpa using hv⟩, trivial⟩
  | cons p m ih =>
    have ⟨⟨h1, h2⟩, h3⟩ : (aboveBound b p.1 = true ∧ decide (p.2 ≠ d p.1) = true) ∧
        storeWfFrom d (some p.1) m = true := by simpa only [storeWfFrom, Bool.and_eq_true] using h
    have hp : p.1 ≠ k := hk p (by simp)
    by_cases hl : k < p.1
    · simp only [storeInsert, hl, if_true, storeWfFrom, Bool.and_eq_true]
      exact ⟨⟨aboveBound_of b k hb, by simpa using hv⟩, ⟨by simpa [aboveBound] using hl, h2⟩, h3⟩
    · simp only [storeInsert, hl, if_false, storeWfFrom, Bool.and_eq_true]
      exact ⟨⟨h1, h2⟩, ih (some p.1) h3 (by intro c hc; injection hc with hc; omega) fun e he => hk e (by simp [he])⟩

/-- Writing keeps the canonical form. -/
theorem storeWf_put (m : Store α) (k : Nat) (v : α) (h : storeWf d m = true) : storeWf d (storePut d m k v) = true := by
  unfold storePut
  split
  · exact storeWfFrom_erase d m none k h
  · exact storeWfFrom_insert d _ none k v (storeWfFrom_erase d m none k h) (by simp)
      (fun e he => by simpa [storeErase] using (List.mem_filter.mp he).2) ‹_›

/-- Dropping entries keeps the canonical form. -/
theorem storeWfFrom_filter (p : Nat × α → Bool) (m : Store α) (b : Option Nat) (h : storeWfFrom d b m = true) :
    storeWfFrom d b (m.filter p) = true := by
  induction m generalizing b with
  | nil => exact h
  | cons e m ih =>
    have ⟨⟨h1, h2⟩, h3⟩ : (aboveBound b e.1 = true ∧ decide (e.2 ≠ d e.1) = true) ∧
        storeWfFrom d (some e.1) m = true := by simpa only [storeWfFrom, Bool.and_eq_true] using h
    by_cases hp : p e = true
    · simp only [hp, List.filter_cons_of_pos, storeWfFrom, Bool.and_eq_true]
      exact ⟨⟨h1, h2⟩, ih _ h3⟩
    · have := storeWfFrom_below d _ b e.1 (ih (some e.1) h3) (lt_of_aboveBound b _ h1)
      simpa [hp] using this

/-! ### Memories -/

/-- Writing a byte keeps a memory canonical. -/
theorem memWf_putByte (m : Mem) (a : Nat) (b : Byte) (h : memWf m = true) : memWf (memPutByte m a b) = true :=
  storeWf_put memDefault m a b h

/-- Writing bytes keeps a memory canonical. -/
theorem memWf_write (bs : List Byte) (m : Mem) (a : Nat) (h : memWf m = true) : memWf (memWrite m a bs) = true := by
  induction bs generalizing m a with
  | nil => exact h
  | cons b bs ih => exact ih _ _ (memWf_putByte m a b h)

/-- Writing a little-endian value keeps a memory canonical. -/
theorem memWf_writeLE (m : Mem) (a n v : Nat) (h : memWf m = true) : memWf (memWriteLE m a n v) = true :=
  memWf_write _ m a h

/-- What every byte reads as after one byte is written. -/
theorem memByte_putByte (m : Mem) (a c : Nat) (b : Byte) :
    memByte (memPutByte m a b) c = if c = a then b else memByte m c := storeGet_put memDefault m a c b

/-- A write of bytes at a leaves every byte outside [a, a + length) as it was. -/
theorem memByte_write_outside (bs : List Byte) (m : Mem) (a c : Nat) (hc : c < a ∨ a + bs.length ≤ c) :
    memByte (memWrite m a bs) c = memByte m c := by
  induction bs generalizing m a with
  | nil => rfl
  | cons b bs ih =>
    have h1 := ih (memPutByte m a b) (a + 1) (by simp at hc; omega)
    rw [memWrite, h1, memByte_putByte, if_neg (by simp at hc; omega)]

/-- A write of bytes at a stores byte i at a + i. -/
theorem memByte_write_inside (bs : List Byte) (m : Mem) (a i : Nat) (hi : i < bs.length) :
    memByte (memWrite m a bs) (a + i) = bs[i] := by
  induction bs generalizing m a i with
  | nil => simp at hi
  | cons b bs ih =>
    cases i with
    | zero =>
      rw [memWrite, memByte_write_outside bs _ _ _ (by omega), memByte_putByte]
      simp
    | succ i =>
      have := ih (memPutByte m a b) (a + 1) i (by simpa using hi)
      rw [memWrite, show a + (i + 1) = a + 1 + i by omega, this]
      simp

/-- Reset memory is canonical. -/
theorem memWf_nil : memWf [] = true := rfl

@[simp] theorem length_leBytes (v n : Nat) : (leBytes v n).length = n := by
  induction n generalizing v with
  | zero => rfl
  | succ n ih => simp [leBytes, ih]

end Sys2Proof.Machine
end

