-- ==== Sys2Proof/Laws/Regs.lean ====
section
/-!
SUPPORT. The laws of the register store: what every register reads as after each of its updates.
-/

namespace Sys2Proof.Machine

/-- A register reads as what was stored in it; every other one as before. -/
theorem rd_wr (s : State) (a b : Nat) (v : Word) : rd (wr s a v) b = if b = a then v else rd s b :=
  storeGet_put regReset s.regs a b v

@[simp] theorem rd_wr_same (s : State) (a : Nat) (v : Word) : rd (wr s a v) a = v := by simp [rd_wr]

theorem rd_wr_ne (s : State) (a b : Nat) (v : Word) (h : b ≠ a) : rd (wr s a v) b = rd s b := by simp [rd_wr, h]

/-- A register depends on the register store alone. -/
theorem rd_of_regs (s t : State) (h : t.regs = s.regs) (a : Nat) : rd t a = rd s a := by simp [rd, h]

theorem rd_wrN (s : State) (a b v : Nat) : rd (wrN s a v) b = if b = a then BitVec.ofNat 32 v else rd s b := rd_wr ..

theorem rd_orReg (s : State) (a b k : Nat) :
    rd (orReg s a k) b = if b = a then rd s a ||| BitVec.ofNat 32 k else rd s b := rd_wr ..

theorem rd_clrReg (s : State) (a b k : Nat) :
    rd (clrReg s a k) b = if b = a then rd s a &&& ~~~ (BitVec.ofNat 32 k) else rd s b := rd_wr ..

theorem rd_setEv (s : State) (a b i : Nat) :
    rd (setEv s a i) b = if b = a then rd s a ||| BitVec.ofNat 32 (2 ^ i) else rd s b := rd_orReg ..

theorem rd_satInc (s : State) (a b k : Nat) :
    rd (satInc s a k) b = if b = a then satAdd32 (rd s a) k else rd s b := rd_wr ..

theorem rd_wrF (s : State) (a b lo w v : Nat) :
    rd (wrF s a lo w v) b = if b = a then setFld (rd s a) lo w v else rd s b := rd_wr ..

/-- The capture rule of R104, as a whole. -/
theorem captureErr_eq (s : State) (a b : Nat) (cap : State → State) :
    captureErr s a b cap = setEv (if rd s a = 0 then cap s else s) a b := by
  unfold captureErr; split <;> rfl

/-- An update of a register stores into the register store alone. -/
theorem wr_eq (s : State) (a : Nat) (v : Word) : wr s a v = { s with regs := storePut regReset s.regs a v } := rfl

theorem rd64_of_regs (s t : State) (h : t.regs = s.regs) (a : Nat) : rd64 t a = rd64 s a := by
  simp [rd64, rdN, rd_of_regs s t h]

/-- The register store stays canonical. -/
theorem storeWf_wr (s : State) (a : Nat) (v : Word) (h : storeWf regReset s.regs = true) :
    storeWf regReset (wr s a v).regs = true := storeWf_put regReset s.regs a v h

end Sys2Proof.Machine
end

