-- ==== Sys2Proof/Laws/Irq.lean ====
section
/-!
SUPPORT. What the answer of a command can be, and what the evaluation of interrupts can change.
-/

namespace Sys2Proof.Machine

/-! ### Interrupts -/

/-- Whether two states agree but for messages sent, the PBA and the outstanding bits. -/
def irqAlike (s t : State) : Prop :=
  (∃ m p, t = { s with regs := t.regs, hiu := { s.hiu with msgs := m, pba := p } }) ∧
    ∀ off, (∀ i < 4, off ≠ Reg.hiuIrqAck i) → rd t off = rd s off

theorem irqAlike_refl (s : State) : irqAlike s s := ⟨⟨s.hiu.msgs, s.hiu.pba, rfl⟩, fun _ _ => rfl⟩

theorem irqAlike_trans {s t u : State} (h : irqAlike s t) (k : irqAlike t u) : irqAlike s u := by
  obtain ⟨⟨m, p, ht⟩, h1⟩ := h
  obtain ⟨⟨n, q, hu⟩, k1⟩ := k
  refine ⟨⟨n, q, ?_⟩, fun off ho => (k1 off ho).trans (h1 off ho)⟩
  rw [hu, ht]

theorem irqAlike_send (s : State) (v : Nat) : irqAlike s (irqSend s v) := ⟨⟨_, s.hiu.pba, rfl⟩, fun _ _ => rfl⟩

theorem irqAlike_raise (s : State) (v : Nat) (hv : v < 128) : irqAlike s (irqRaise s v) := by
  have hs : irqAlike s (irqMark s v) :=
    ⟨⟨s.hiu.msgs, s.hiu.pba, rfl⟩, fun off ho => by rw [irqMark, rd_wr, if_neg (ho _ (by omega))]⟩
  unfold irqRaise
  split
  · simp only
    split
    · exact irqAlike_trans hs ⟨⟨_, _, rfl⟩, fun _ _ => rfl⟩
    · exact irqAlike_trans hs (irqAlike_send _ v)
  · exact irqAlike_refl s

theorem irqAlike_release (s : State) (v : Nat) : irqAlike s (irqRelease s v) := by
  unfold irqRelease
  split
  · exact irqAlike_trans ⟨⟨_, _, rfl⟩, fun _ _ => rfl⟩ (irqAlike_send _ v)
  · exact irqAlike_refl s

/-- The evaluation of interrupts changes messages, the PBA and outstanding bits, and nothing else. -/
theorem irqAlike_settle (s : State) : irqAlike s (irqSettle s) := by
  have fold : ∀ (l : List Nat) (s : State), (∀ v ∈ l, v < 128) → irqAlike s (l.foldl irqVector s) := by
    intro l
    induction l with
    | nil => intro s _; exact irqAlike_refl s
    | cons v l ih =>
      intro s h
      have h1 := irqAlike_trans (irqAlike_raise s v (h v (by simp))) (irqAlike_release _ v)
      exact irqAlike_trans h1 (ih _ fun w hw => h w (by simp [hw]))
  exact fold _ s fun v hv => by simpa using hv

theorem rd_irqSettle (s : State) (off : Nat) (h : ∀ i < 4, off ≠ Reg.hiuIrqAck i) : rd (irqSettle s) off = rd s off :=
  (irqAlike_settle s).2 off h

/-- A register above the acknowledge registers is as before. -/
theorem rd_irqSettle_above (s : State) (off : Nat) (h : 0x30 ≤ off) : rd (irqSettle s) off = rd s off :=
  rd_irqSettle s off fun i hi => by simp only [Reg.hiuIrqAck]; omega

@[simp] theorem irqSettle_ltb (s : State) : (irqSettle s).ltb = s.ltb := by
  obtain ⟨⟨m, p, h⟩, -⟩ := irqAlike_settle s; rw [h]
@[simp] theorem irqSettle_cfe (s : State) : (irqSettle s).cfe = s.cfe := by
  obtain ⟨⟨m, p, h⟩, -⟩ := irqAlike_settle s; rw [h]
@[simp] theorem irqSettle_ctx (s : State) : (irqSettle s).ctx = s.ctx := by
  obtain ⟨⟨m, p, h⟩, -⟩ := irqAlike_settle s; rw [h]
@[simp] theorem irqSettle_con (s : State) : (irqSettle s).con = s.con := by
  obtain ⟨⟨m, p, h⟩, -⟩ := irqAlike_settle s; rw [h]
@[simp] theorem irqSettle_twin (s : State) : (irqSettle s).twin = s.twin := by
  obtain ⟨⟨m, p, h⟩, -⟩ := irqAlike_settle s; rw [h]
@[simp] theorem irqSettle_mem (s : State) : (irqSettle s).mem = s.mem := by
  obtain ⟨⟨m, p, h⟩, -⟩ := irqAlike_settle s; rw [h]
@[simp] theorem irqSettle_vzl (s : State) : (irqSettle s).vzl = s.vzl := by
  obtain ⟨⟨m, p, h⟩, -⟩ := irqAlike_settle s; rw [h]
@[simp] theorem irqSettle_hlt (s : State) : (irqSettle s).hlt = s.hlt := by
  obtain ⟨⟨m, p, h⟩, -⟩ := irqAlike_settle s; rw [h]
@[simp] theorem irqSettle_heap (s : State) : (irqSettle s).heap = s.heap := by
  obtain ⟨⟨m, p, h⟩, -⟩ := irqAlike_settle s; rw [h]
@[simp] theorem irqSettle_clu (s : State) : (irqSettle s).clu = s.clu := by
  obtain ⟨⟨m, p, h⟩, -⟩ := irqAlike_settle s; rw [h]
@[simp] theorem irqSettle_work (s : State) : (irqSettle s).work = s.work := by
  obtain ⟨⟨m, p, h⟩, -⟩ := irqAlike_settle s; rw [h]
@[simp] theorem irqSettle_dsp (s : State) : (irqSettle s).dsp = s.dsp := by
  obtain ⟨⟨m, p, h⟩, -⟩ := irqAlike_settle s; rw [h]
@[simp] theorem irqSettle_cam (s : State) : (irqSettle s).cam = s.cam := by
  obtain ⟨⟨m, p, h⟩, -⟩ := irqAlike_settle s; rw [h]
@[simp] theorem irqSettle_aon (s : State) : (irqSettle s).aon = s.aon := by
  obtain ⟨⟨m, p, h⟩, -⟩ := irqAlike_settle s; rw [h]
@[simp] theorem irqSettle_fuse (s : State) : (irqSettle s).fuse = s.fuse := by
  obtain ⟨⟨m, p, h⟩, -⟩ := irqAlike_settle s; rw [h]
@[simp] theorem irqSettle_grm (s : State) : (irqSettle s).grm = s.grm := by
  obtain ⟨⟨m, p, h⟩, -⟩ := irqAlike_settle s; rw [h]
@[simp] theorem irqSettle_pmu (s : State) : (irqSettle s).pmu = s.pmu := by
  obtain ⟨⟨m, p, h⟩, -⟩ := irqAlike_settle s; rw [h]
@[simp] theorem irqSettle_pins (s : State) : (irqSettle s).pins = s.pins := by
  obtain ⟨⟨m, p, h⟩, -⟩ := irqAlike_settle s; rw [h]
@[simp] theorem irqSettle_dram (s : State) : (irqSettle s).dram = s.dram := by
  obtain ⟨⟨m, p, h⟩, -⟩ := irqAlike_settle s; rw [h]
@[simp] theorem irqSettle_cycleSets (s : State) : (irqSettle s).cycleSets = s.cycleSets := by
  obtain ⟨⟨m, p, h⟩, -⟩ := irqAlike_settle s; rw [h]
@[simp] theorem irqSettle_freeCtr (s : State) : (irqSettle s).freeCtr = s.freeCtr := by
  obtain ⟨⟨m, p, h⟩, -⟩ := irqAlike_settle s; rw [h]
@[simp] theorem irqSettle_pending (s : State) : (irqSettle s).pending = s.pending := by
  obtain ⟨⟨m, p, h⟩, -⟩ := irqAlike_settle s; rw [h]

/-! ### The end of a cycle -/

@[simp] theorem rd_confine (s t : State) (off : Nat) : rd (confine s t) off = rd t off := rfl

@[simp] theorem rd_conSettle (s : State) (off : Nat) : rd (conSettle s) off = rd s off := rfl

/-- The schedulers' settings and turns are no part of what they note of their candidates. -/
theorem conNext_turns (s : State) :
    (conNext s).ctrl = s.con.ctrl ∧ (conNext s).weight0 = s.con.weight0 ∧ (conNext s).weight1 = s.con.weight1 ∧
      (conNext s).fetchLast = s.con.fetchLast := by
  unfold conNext
  split <;> exact ⟨rfl, rfl, rfl, rfl⟩

/-- While the units do not run, the schedulers stand. -/
theorem conNext_stopped (s : State) (h : running s = false) : conNext s = s.con := by simp [conNext, h]

/-- The pads stand where no unit changes what it drives. -/
theorem padFollow_same (s t : State) (h : padOutputs t = padOutputs s) : padFollow s t = t := by simp [padFollow, h]

/-- The end of a cycle in which no unit changes what it drives onto pins. -/
theorem cycleEnd_same (s t : State) (h : padOutputs t = padOutputs s) : cycleEnd s t = conSettle (irqSettle t) := by
  rw [cycleEnd, padFollow_same s t h]

/-! ### Answers -/

/-- While the units run, a unit's command answers its effect at the end of its cycle. -/
theorem clocked_running (s t : State) (h : running s = true) : clocked s t = .next (confine s (cycleEnd s t)) := by
  simp [clocked, h]

/-- While the units do not run, a unit's command has no effect. -/
theorem clocked_stopped (s t : State) (h : running s = false) : clocked s t = .next s := by simp [clocked, h]

/-- While the groomer's domain runs, a command of it answers its effect at the end of its cycle. -/
theorem groomed_running (s t : State) (h : grmRunning s = true) : groomed s t = .next (confine s (cycleEnd s t)) := by
  simp [groomed, h]

theorem groomed_stopped (s t : State) (h : grmRunning s = false) : groomed s t = .next s := by simp [groomed, h]

theorem served_running (s t : State) (h : hiuRunning s = true) : served s t = .next (confine s (cycleEnd s t)) := by
  simp [served, h]

theorem served_stopped (s t : State) (h : hiuRunning s = false) : served s t = .next s := by simp [served, h]

/-- Every answer is a next state with the same queue and the same level of SYS_RST_N. -/
theorem clocked_next (s t : State) :
    ∃ u, clocked s t = .next u ∧ u.pending = s.pending ∧ u.pmu.sysRstN = s.pmu.sysRstN := by
  unfold clocked; split
  · exact ⟨_, rfl, rfl, rfl⟩
  · exact ⟨s, rfl, rfl, rfl⟩

theorem groomed_next (s t : State) :
    ∃ u, groomed s t = .next u ∧ u.pending = s.pending ∧ u.pmu.sysRstN = s.pmu.sysRstN := by
  unfold groomed; split
  · exact ⟨_, rfl, rfl, rfl⟩
  · exact ⟨s, rfl, rfl, rfl⟩

theorem served_next (s t : State) :
    ∃ u, served s t = .next u ∧ u.pending = s.pending ∧ u.pmu.sysRstN = s.pmu.sysRstN := by
  unfold served; split
  · exact ⟨_, rfl, rfl, rfl⟩
  · exact ⟨s, rfl, rfl, rfl⟩

theorem aside_next (s t : State) :
    ∃ u, aside s t = .next u ∧ u.pending = s.pending ∧ u.pmu.sysRstN = s.pmu.sysRstN := ⟨_, rfl, rfl, rfl⟩

end Sys2Proof.Machine
end

