-- ==== Sys2Proof/Laws/Answers.lean ====
section
/-!
SUPPORT. What the answering operations can answer: a host request that acts at once, one that reaches a live register,
and, for each of them, that the answer is a next state with the queue and the level of SYS_RST_N as before.
-/

namespace Sys2Proof.Machine

/-- A host request acts at once where the HIU serves it. -/
theorem viaHiu_now (i : Instr) (f : State → State) (s : State) (h : HostServes s) :
    viaHiu i f s = .next (after s (f s)) := by
  simp [viaHiu, viaHiuAt, served, h.1, h.2, after]

theorem viaHiuAt_now (b : Nat) (i : Instr) (f : State → State) (s : State) (h : HostServes s) :
    viaHiuAt b i f s = .next (after s (f s)) := by
  simp [viaHiuAt, served, h.1, h.2, after]

/-- A host write of one register has its effect where the register is live. -/
theorem viaHiu_live (i : Instr) (o : Nat) (f : State → State) (s : State) (h : HostServes s) (hl : liveAt s o = true) :
    viaHiu i (fun s => liveWrite s o f) s = .next (after s (f s)) := by
  rw [viaHiu_now _ _ _ h]; simp [liveWrite, hl]

/-- A host request waits where another waits: in the posted buffer, or with the host for want of credits. -/
theorem viaHiu_waits (i : Instr) (f : State → State) (s : State) (h : hiuRunning s = true) (hp : s.hiu.posted ≠ []) :
    viaHiu i f s = .next (after s (holdRequest (bar4Base s) i s)) := by
  simp [viaHiu, viaHiuAt, served, h, hp, after]

/-- A request that waits joins the end of one of two lists of the HIU, and changes nothing else. -/
theorem holdRequest_eq (b : Nat) (i : Instr) (s : State) :
    holdRequest b i s = onHiu s (fun h => { h with posted := h.posted ++ [(i, b)] }) ∨
      holdRequest b i s = onHiu s (fun h => { h with unsent := h.unsent ++ [i] }) := by
  unfold holdRequest
  split
  · exact .inl rfl
  · exact .inr rfl

theorem viaHiuAt_next (b : Nat) (i : Instr) (f : State → State) (s : State) :
    ∃ u, viaHiuAt b i f s = .next u ∧ u.pending = s.pending ∧ u.pmu.sysRstN = s.pmu.sysRstN := served_next _ _

theorem viaHiu_next (i : Instr) (f : State → State) (s : State) :
    ∃ u, viaHiu i f s = .next u ∧ u.pending = s.pending ∧ u.pmu.sysRstN = s.pmu.sysRstN := served_next _ _

theorem viaHiu_stopped (i : Instr) (f : State → State) (s : State) (h : hiuRunning s = false) : viaHiu i f s = .next s := by
  simp [viaHiu, viaHiuAt, served, h]

theorem viaHiuAt_stopped (b : Nat) (i : Instr) (f : State → State) (s : State) (h : hiuRunning s = false) :
    viaHiuAt b i f s = .next s := by
  simp [viaHiuAt, served, h]

/-- With SYS_RST_N low nothing runs. -/
theorem running_of_low (s : State) (h : s.pmu.sysRstN = false) : running s = false := by simp [running, h]

theorem hiuRunning_of_low (s : State) (h : s.pmu.sysRstN = false) : hiuRunning s = false := by simp [hiuRunning, h]

/-! ### The state after a command -/

/-- A register after a command that changes nothing that a unit drives onto a pin. -/
theorem rd_after (s t : State) (off : Nat) (h : ∀ i < 4, off ≠ Reg.hiuIrqAck i) (hp : padOutputs t = padOutputs s) :
    rd (after s t) off = rd t off := by
  rw [after, rd_confine, cycleEnd_same s t hp, rd_conSettle, rd_irqSettle t off h]

/-- The end of a cycle touches no unit but the host interface and the schedulers' notes. -/
theorem sameUnits_after (s t : State) (h : SameUnits s t) (hp : padOutputs t = padOutputs s) : SameUnits s (after s t) := by
  have hc := conNext_turns (irqSettle t)
  simp only [irqSettle_con] at hc
  obtain ⟨h1, h2, h3, ⟨h4, h5, h6, h7⟩, h8, h9, h10, h11, h12, h13, h14, h15, h16, h17, h18, h19, h20, h21⟩ := h
  obtain ⟨c1, c2, c3, c4⟩ := hc
  rw [after, cycleEnd_same s t hp]
  refine ⟨?_, ?_, ?_, ⟨?_, ?_, ?_, ?_⟩, ?_, ?_, ?_, ?_, ?_, ?_, ?_, ?_, ?_, ?_, ?_, ?_, ?_, ?_⟩ <;> simp [*]

theorem regsKept_after (s t : State) (offs : List Nat) (hp : padOutputs t = padOutputs s)
    (h : ∀ off, off ∉ offs → rd t off = rd s off) : RegsKept s (after s t) offs :=
  fun off ha hn => by rw [rd_after _ _ _ ha hp, h off hn]

theorem after_pins (s t : State) (hp : padOutputs t = padOutputs s) : (after s t).pins = t.pins := by
  simp [after, cycleEnd_same s t hp]

end Sys2Proof.Machine
end

