-- ==== Sys2Proof/WellFormed.lean ====
section
/-!
DEFINITION. Which operands a command may carry. Most operands' types admit exactly the values that the spec gives them;
what remains is checked here.
-/

namespace Sys2Proof

/-- Lane lists of a training event name each of the four lanes, and eight echoes are measured (R571). -/
def trainEventWf (e : TrainEvent) : Bool :=
  match e with
  | .signal => true
  | .locked _ order => decide (order.length = 4)
  | .aligned offsets => decide (offsets.length = 4)
  | .config _ _ _ => true
  | .echoes trips => decide (trips.length = 8)

/-- A failing read starts on a dword of the bus (R85, R103). -/
def outReqWf (r : OutReq) : Bool :=
  match r with
  | .ringFetch _ => true
  | .engine _ _ _ bus _ => decide (bus.toNat % 4 = 0)

/-- Whether a command's operands are ones that the spec allows: a write TLP of one to 128 dwords (R85,
R91), a read TLP of one to 1,024, one reading per sensor (R651), a count per
cluster, a transfer of at most 8 bytes (R676), a payload that WC counts (R486), a link width and rate (R106), and a
measured base (R619). -/
def Instr.wf (i : Instr) : Bool :=
  match i with
  | .registerWrite _ dws _ => decide (1 ≤ dws.length) && decide (dws.length ≤ 128)
  | .pairLowRead _ _ => true
  | .pairHighRead _ _ => true
  | .pairLowWrite _ _ _ _ => true
  | .pairHighWrite _ _ _ _ => true
  | .broadcastWrite _ _ _ => true
  | .bar4Read _ _ => true
  | .poisonedWrite _ _ _ => true
  | .cplError r => outReqWf r
  | .cplTimeout r => outReqWf r
  | .msixUnmask _ => true
  | .hiuIrqAck _ _ => true
  | .hiuSwint _ => true
  | .resizableBar _ => true
  | .lineEvent _ => true
  | .frameEvent _ => true
  | .ltbSrcWrite _ => true
  | .ltbEnable _ => true
  | .sqDoorbell _ dw dws => decide (1 ≤ dws.length) && decide (dws.length ≤ 128) && decide (dw.val + dws.length ≤ 1024)
  | .cqRelease _ _ _ => true
  | .ringEnable _ _ => true
  | .ringDisable _ _ => true
  | .wait _ _ => true
  | .commit _ => true
  | .scalerLoad _ => true
  | .poisonWalk _ => true
  | .cancelStop _ _ _ => true
  | .watchdog _ _ => true
  | .ctx0Load _ => true
  | .syncInit _ => true
  | .waitSatisfied _ => true
  | .l2cSetway _ => true
  | .mmuInv _ => true
  | .sheetStreamApply _ => true
  | .liftComplete _ => true
  | .liftStop _ => true
  | .lp5Burst _ reqs => !reqs.isEmpty
  | .refresh _ _ => true
  | .blockPlace _ => true
  | .blockEnd _ => true
  | .preemption _ => true
  | .preemptSaveComplete _ => true
  | .blockRestore _ => true
  | .cluConfigApply _ => true
  | .variableResultWrite _ _ _ => true
  | .illegalInstruction _ _ => true
  | .icacheFill _ _ => true
  | .nopInstruction _ _ => true
  | .bra _ _ => true
  | .brx _ _ => true
  | .call _ _ => true
  | .ret _ _ => true
  | .exit _ _ => true
  | .bar _ _ => true
  | .dpush _ _ => true
  | .dsplit _ _ => true
  | .dnext _ _ => true
  | .dmask _ _ => true
  | .dspill _ _ => true
  | .dfill _ _ => true
  | .sadd _ _ => true
  | .ssub _ _ => true
  | .smul _ _ => true
  | .sand _ _ => true
  | .sor _ _ => true
  | .sxor _ _ => true
  | .sshl _ _ => true
  | .sshr _ _ => true
  | .ssra _ _ => true
  | .smin _ _ => true
  | .smax _ _ => true
  | .sminu _ _ => true
  | .smaxu _ _ => true
  | .smov _ _ => true
  | .sadd64 _ _ => true
  | .smovs _ _ => true
  | .pand _ _ => true
  | .por _ _ => true
  | .pxor _ _ => true
  | .pnot _ _ => true
  | .smovp _ _ => true
  | .pmovs _ _ => true
  | .fadd _ _ => true
  | .fmul _ _ => true
  | .ffma _ _ => true
  | .fmin _ _ => true
  | .fmax _ _ => true
  | .fsub _ _ => true
  | .frnd _ _ => true
  | .iadd _ _ => true
  | .isub _ _ => true
  | .imul _ _ => true
  | .imulh _ _ => true
  | .imad _ _ => true
  | .and _ _ => true
  | .or _ _ => true
  | .xor _ _ => true
  | .shl _ _ => true
  | .shr _ _ => true
  | .sra _ _ => true
  | .imin _ _ => true
  | .imax _ _ => true
  | .popc _ _ => true
  | .clz _ _ => true
  | .brev _ _ => true
  | .mov _ _ => true
  | .sel _ _ => true
  | .f2i _ _ => true
  | .f2u _ _ => true
  | .i2f _ _ => true
  | .u2f _ _ => true
  | .f2h _ _ => true
  | .h2f _ _ => true
  | .f2bf _ _ => true
  | .bf2f _ _ => true
  | .rcp _ _ => true
  | .rsq _ _ => true
  | .sqrt _ _ => true
  | .exp2 _ _ => true
  | .log2 _ _ => true
  | .sin _ _ => true
  | .cos _ _ => true
  | .fcmp _ _ => true
  | .icmp _ _ => true
  | .ucmp _ _ => true
  | .shfl _ _ => true
  | .vtos _ _ => true
  | .fredadd _ _ => true
  | .iredadd _ _ => true
  | .ld _ _ => true
  | .st _ _ => true
  | .lds _ _ => true
  | .aadd _ _ => true
  | .amin _ _ => true
  | .amax _ _ => true
  | .aminu _ _ => true
  | .amaxu _ _ => true
  | .aand _ _ => true
  | .aor _ _ => true
  | .axor _ _ => true
  | .axchg _ _ => true
  | .acas _ _ => true
  | .afadd _ _ => true
  | .fence _ _ => true
  | .sig _ _ => true
  | .swait _ _ => true
  | .swaitSatisfied _ _ => true
  | .alloc _ _ => true
  | .free _ _ => true
  | .tex _ _ => true
  | .tld _ _ => true
  | .tmma _ _ => true
  | .tout _ _ => true
  | .tclr _ _ => true
  | .liftInstruction _ _ => true
  | .tnsBegin _ => true
  | .tmmaComplete _ => true
  | .tmmaStop _ _ => true
  | .toutComplete _ => true
  | .tclrComplete _ => true
  | .stepStart _ _ => true
  | .vertexBatchLaunch _ => true
  | .vertexBatchEnd _ => true
  | .tileJobPlace _ => true
  | .fragmentHeatLaunch _ => true
  | .fragmentHeatEnd _ => true
  | .tileStore _ => true
  | .tileJobEnd _ => true
  | .sringEnable _ _ => true
  | .sringDisable _ _ => true
  | .stripDeadline _ => true
  | .dspPlaneMap _ _ => true
  | .dspScalerMap _ => true
  | .commitLatch _ => true
  | .scalerBankCopy _ => true
  | .scanoutLineFetch _ _ => true
  | .tgEnable _ _ => true
  | .tgPllLock _ => true
  | .tgDisable _ _ => true
  | .tgLineStart _ => true
  | .tgFrameEvent _ => true
  | .csiEnable _ _ => true
  | .csiDisable _ _ => true
  | .frameStart _ _ => true
  | .lineStart _ _ _ => true
  | .frameEnd _ _ => true
  | .longPacket _ _ _ _ bytes _ => decide (bytes.length < 65536)
  | .csiEventRelease _ => true
  | .cmpPackBlock _ => true
  | .cmpUnpackBlock _ => true
  | .hltTwinEnable _ => true
  | .tgsync _ => true
  | .repeatEnd _ => true
  | .echo _ => true
  | .checkerTimeout _ => true
  | .resume _ => true
  | .vzlRetrain _ _ => true
  | .trainingAdvance _ e => trainEventWf e
  | .trainingTimeout _ => true
  | .dataFlit _ _ _ => true
  | .linkFlit _ _ _ => true
  | .nullFlit _ _ => true
  | .linkFlitSend _ _ => true
  | .nakRepeat _ => true
  | .replayTimeout _ => true
  | .vzlRequestTimeout _ => true
  | .katStart _ => true
  | .katEnd _ _ => true
  | .ladderSettle _ => true
  | .clusterPowerOff _ => true
  | .agingMeasurement _ base _ => decide (0 < base)
  | .fwInstall _ _ => true
  | .recordCommit _ => true
  | .sysRstNDeassert _ => true
  | .firmwareCheck _ _ => true
  | .boardRecord _ => true
  | .lp5Training _ => true
  | .selfTestAndMap _ fails => decide (fails.length ≤ 16)
  | .powerSample _ => true
  | .thermtrip _ => true
  | .pinCfgWrite _ _ => true
  | .pinSet _ _ => true
  | .pinClr _ _ => true
  | .pinTgl _ _ => true
  | .pinEnSet _ => true
  | .pinEnClr _ => true
  | .pinEnTgl _ => true
  | .pinInputChange _ _ => true
  | .debounceExpiry _ => true
  | .i2cXfer _ _ => true
  | .i2cDone _ r => decide (r.bytes.length ≤ 8)
  | .i2cTimeout _ bytes => decide (bytes.length ≤ 8)
  | .spitRead _ _ => true
  | .spitOtherCommand cmd _ => decide (cmd ≠ 0x0B)
  | .extest _ => true
  | .samplePreload _ => true
  | .laneLockLoss _ => true
  | .pcieLinkUp width l => [1, 2, 4, 8].contains width.val && decide (1 ≤ l.rate.val)
  | .configurationRequest _ => true
  | .notReadyRead _ r => decide (1 ≤ r.bes.length) && decide (r.bes.length ≤ 1024)
  | .fsyncInEdge => true
  | .lsyncInEdge => true
  | .sourceLost => true
  | .sourceRecovered => true
  | .lsyncOutEnd => true
  | .fsyncOutEnd => true
  | .descriptorFetch => true
  | .cfeDispatch => true
  | .retirement => true
  | .nop => true
  | .signal => true
  | .timestamp => true
  | .checkpoint => true
  | .renderPass => true
  | .dispatch => true
  | .layer => true
  | .lift => true
  | .pack => true
  | .unpack => true
  | .cacheRangeClean => true
  | .cacheRangeInvalidate => true
  | .cacheRangeCleanInvalidate => true
  | .heapGrantBinChunk => true
  | .heapGrantReserve => true
  | .heapGrantDeny => true
  | .load => true
  | .teardown => true
  | .markLost => true
  | .query => true
  | .chain => true
  | .contextUpdate => true
  | .teardownRelease => true
  | .setwayDone => true
  | .mmuInvDone => true
  | .windowAllocate => true
  | .stepComplete => true
  | .patchTessellate => true
  | .primitiveSetup => true
  | .binPrimitive => true
  | .hello => true
  | .helloResend => true
  | .desc => true
  | .write => true
  | .sync => true
  | .lt => true
  | .twinLtEvent => true
  | .ckpt => true
  | .verdict => true
  | .loss => true
  | .echoRequest => true
  | .strip => true
  | .mirrorThrottleRelease => true
  | .packetForward => true
  | .vzlRead => true
  | .vzlWrite => true
  | .vzlAtomic => true
  | .vzlSignal => true
  | .resp => true
  | .periodicSweep => true
  | .drainGraceExpiry => true
  | .calendarTick => true
  | .wakeIn => true
  | .vddAonRise => true
  | .getVersion => true
  | .getBoot => true
  | .setCalendar => true
  | .setAlarm => true
  | .readCounters => true
  | .readLog => true
  | .requestKat => true
  | .requestDrain => true
  | .writeSnapshot => true
  | .snapshotTimer => true
  | .groomerWatchdog => true
  | .sysRstNAssert => true
  | .mainRailDip => true
  | .perstNAssert => true
  | .hotReset => true
  | .linkDown => true
  | .functionLevelReset => true
  | .functionResetEnd => true
  | .ready => true
  | .dvfsReevaluate => true
  | .dvfsChangeComplete => true
  | .pstateActive => true
  | .pstateStandby => true
  | .pstateOff => true
  | .standbyEntry => true
  | .standbyExit => true
  | .offReady => true
  | .tapReset => true
  | .idcode => true
  | .clamp => true
  | .highz => true
  | .bypass => true
  | .lossToleranceExpiry => true
  | .perstNDeassert => true
  | .mailboxResponse => true
  | .bar4Write off bytes => decide (off.toNat % 4 + bytes.length ≤ 512)
  | .synthesisedLineEvent _ => true
  | .bootRom _ _ => true
  | .thermalSample temps => decide (temps.length = 20)

end Sys2Proof
end

