-- ==== Sys2Proof/Tests/Slice0.lean ====
section
/-!
SUPPORT. Tests: an ill-formed command for each check of WellFormed, a witness for the hypotheses of each statement, and a
few single steps whose results were worked out by hand from the spec.
-/

/- One theorem after another: every decide here waits for the kernel, and a hundred waiting threads exhaust the memory
limit of the package as one text. -/
set_option Elab.async false

namespace Sys2Proof.Tests

open Sys2Proof Sys2Proof.Machine

/-! ### WellFormed refuses ill-formed commands -/

theorem test_wf_register_write_empty : Instr.wf (.registerWrite 0 [] false) = false := by decide
theorem test_wf_doorbell_past_page : Instr.wf (.sqDoorbell 0 1023 [(15, 0), (15, 0)]) = false := by decide
theorem test_wf_bar4_write_too_long : Instr.wf (.bar4Write 1 (List.replicate 512 (some 1))) = false := by decide +kernel
theorem test_wf_read_empty : Instr.wf (.notReadyRead 0 ⟨0, []⟩) = false := by decide
theorem test_wf_cpl_error_unaligned : Instr.wf (.cplError (.engine 0 0 0 2 15)) = false := by decide
theorem test_wf_cpl_timeout_unaligned : Instr.wf (.cplTimeout (.engine 0 0 0 1 15)) = false := by decide
theorem test_wf_burst_without_request : Instr.wf (.lp5Burst 0 []) = false := by decide
theorem test_wf_long_packet (bytes : List Byte) (h : bytes.length = 65536) :
    Instr.wf (.longPacket 0 ⟨0, .ok⟩ 0x2A true bytes true) = false := by
  show decide (bytes.length < 65536) = false
  rw [h]; decide
theorem test_wf_training_lanes : Instr.wf (.trainingAdvance 0 (.locked 0 [0, 1])) = false := by decide
theorem test_wf_training_offsets : Instr.wf (.trainingAdvance 0 (.aligned [0])) = false := by decide
theorem test_wf_training_echoes : Instr.wf (.trainingAdvance 0 (.echoes [1, 2])) = false := by decide
theorem test_wf_aging_base : Instr.wf (.agingMeasurement 0 0 100) = false := by decide
theorem test_wf_self_test_count : Instr.wf (.selfTestAndMap true (List.replicate 17 0)) = false := by decide
theorem test_wf_i2c_done : Instr.wf (.i2cDone 0 ⟨none, List.replicate 9 0⟩) = false := by decide
theorem test_wf_i2c_timeout : Instr.wf (.i2cTimeout 0 (List.replicate 9 0)) = false := by decide
theorem test_wf_spit_fast_read : Instr.wf (.spitOtherCommand 0x0B 4) = false := by decide
theorem test_wf_link_width : Instr.wf (.pcieLinkUp 3 ⟨1, 0, 0⟩) = false := by decide
theorem test_wf_link_rate : Instr.wf (.pcieLinkUp 4 ⟨0, 0, 0⟩) = false := by decide
theorem test_wf_thermal : Instr.wf (.thermalSample [0, 0]) = false := by decide
theorem test_wf_accepts : Instr.wf (.bar4Write 0 [some 1, none]) && Instr.wf (.bar4Read 0 0) && Instr.wf (.pcieLinkUp 8 ⟨4, 0, 0⟩) = true := by decide

/-! ### Small states -/

/-- Out of reset, in READY. -/
def up : State :=
  { State.reset with regs := [(Reg.hiuStatus, 1)], pmu := { State.reset.pmu with sysRstN := true } }

/-- up with more registers; the offsets rise from HIU_STATUS on. -/
def upWith (rs : List (Nat × Word)) : State := { up with regs := (Reg.hiuStatus, 1) :: rs }

/-- The state that a command answers. -/
def nextOf (o : Host.Outcome State Fault Refusal) : Option State :=
  match o with
  | .next t => some t
  | .fault _ => none
  | .refused _ => none

/-- A field of the state that a command answers. -/
def after? {α : Type} (c : Instr) (s : State) (f : State → α) : Option α := (nextOf (exec c s)).map f

/-- A descriptor of ring 0 that is dispatched. -/
def desc0 : Desc := { id := { ring := 0, seq := 0 }, ctx := some 0, words := [], stage := .dispatched }

/-- A heat at its first instruction. -/
def heat0 : Heat := { idx := 0, age := 0, lm := 0xFFFFFFFF, am := 0xFFFFFFFF, vregs := [(0, 5), (1, 6)] }

/-- Its block, on core 0. -/
def blk0 : Blk :=
  { id := { ring := 0, seq := 0 }, kind := .grid, idx := 0, core := 0, slot := 0, cls := 0, code := 0, vregs := 8, slots := 1
    heats := [heat0] }

/-- A state whose core 0 holds a heat with one instruction word in the instruction cache, under a 2 MiB mapping. -/
def upHeat (w : Nat) : State :=
  { up with
    cfe := { up.cfe with descs := [desc0] }
    mem := { up.mem with tlb := [{ slot := 0, kind := .leaf 21, vpn := 0, pte := 0x1F }] }
    clu := { up.clu with cores := modAt up.clu.cores 0 fun c =>
      { c with blocks := [blk0]
               icache := [(0, { ways := [some { tag := 0, data := leBytes w 8 ++ List.replicate 120 0, dirty := [] },
                                         none, none, none] })] } } }

/-- MOV v1, v0 and then a stall of 1: opcode 0x60, VD 1 in bits 37 to 30, VA 0. -/
def movWord : Nat := 0x60 + 1 * 2 ^ 9 + 1 * 2 ^ 30

/-! ### Witnesses -/

theorem witness_running : running up = true ∧ hiuRunning up = true ∧ ready up = true := by decide +kernel
theorem witness_HostServes : HostServes up := ⟨by decide +kernel, rfl⟩
theorem witness_HostServes_upWith (rs : List (Nat × Word)) : HostServes (upWith rs) ∧ ready (upWith rs) = true :=
  ⟨⟨rfl, rfl⟩, by simp [ready, rd0, upWith, storeGet, Reg.hiuStatus, bit]⟩
theorem witness_live : ∀ off ∈ [Reg.ringCfg 0, Reg.ltbSrc, Reg.pinSet 7, Reg.pmuPstate, Reg.dspPlaneMap0],
    liveAt up off = true := by decide +kernel
theorem witness_EmptyQueuePassesOneCycle : up.pending = [] := rfl
theorem witness_StoppedUnitsIgnoreCommands : unitCommand .nop = true ∧ running State.reset = false := by decide +kernel
theorem witness_StepKeepsUnitsHeldInReset :
    HeldInReset State.reset ∧ step State.reset = .next State.reset :=
  ⟨fun _ => ⟨rfl, rfl, rfl, rfl, rfl, rfl, rfl, rfl, rfl, rfl, rfl, rfl, rfl, rfl⟩, by
    unfold step; exact clocked_stopped _ _ (by decide +kernel)⟩
theorem witness_bar4_fits : bar4Fits up (bar4Base up) 0 [some 1] = true ∧ payloadBytes (.bar4Write 0 [some 1]) ≤ maxPayload up ∧
    4 * [((15 : BitVec 4), (0 : Word))].length ≤ maxPayload up := by decide +kernel
theorem witness_groomer_domain : grmRunning (upWith [(Reg.pmuStatus, 1)]) = true ∧ running (upWith [(Reg.pmuStatus, 1)]) = false := by
  decide +kernel
theorem witness_scaler_load : outHead { up with
    cfe := { up.cfe with descs := [desc0] }
    dsp := { up.dsp with outs := modAt up.dsp.outs 0 fun o => { o with queue := [{ ring := 0, seq := 0 }] } } } 0 = some { ring := 0, seq := 0 } := by
  decide +kernel
theorem witness_sys_rst_low : State.reset.pmu.sysRstN = false := rfl
theorem witness_KamirRowsIssue : ∃ r ∈ kamirRows, r.op = 0x60 ∧ ∃ b h s' i, KamirReady (upHeat movWord) 0 0 r.op b h s' i :=
  ⟨⟨.mov, 0x60, kVec1 fun a => a⟩, by simp [kamirRows, kamirInteger], rfl, blk0, heat0,
    (fetchIns (upHeat movWord) blk0 heat0).1, { w := movWord }, by decide +kernel, by decide +kernel, by decide +kernel,
    by decide +kernel, by decide +kernel, by decide +kernel⟩
theorem witness_UnassignedOffsetsReadZero :
    assigned 0x4C = false ∧ inBroadcast 0x4C = false ∧ liveAt up 0x4C = true := by decide +kernel
theorem witness_ClusterRangesFollowTheMap :
    inRemovedCluster (upWith [(Reg.hltMap, 1)]) 0x1100000 = true ∧ clustersInService (upWith [(Reg.hltMap, 1)]) = [0] ∧
      clustersInService up = [] := by decide +kernel
theorem witness_PlainRegisterWriteStoresItsFields : ((regFind Reg.ltbExt).map fun r => r.1.pair) = some .single ∧
    writeIgnored up Reg.ltbExt = false ∧ actWrite0 up Reg.ltbExt 1 = none ∧ actWrite1 up Reg.ltbExt 1 = none ∧
    actWrite2 up Reg.ltbExt 1 = none ∧ inBroadcast Reg.ltbExt = false := by decide +kernel
theorem witness_ignored_shadow : (shadowHome (Reg.outBgRg 0)).isSome = true ∧ pairHalf (Reg.outBgRg 0) = .single := by
  decide +kernel
theorem witness_ignored_timing : tgEnabled (upWith [(Reg.tgCtrl 0, 1)]) 0 = true ∧ Reg.tgCtrl 0 < Reg.tgHtime1 0 ∧
    Reg.tgHtime1 0 ≤ Reg.dsiPktDelay 0 ∧ pairHalf (Reg.tgHtime1 0) = .single := by decide +kernel
theorem witness_ignored_camera : csiEnabled (upWith [(Reg.csiCtrl 0, 1)]) 0 = true ∧
    Reg.csiCtrl 0 < Reg.csiFeSignal 0 - 4 ∧ pairHalf (Reg.csiFbPitch 0) = .single := by decide +kernel
theorem witness_ignored_strip : sringOn (upWith [(Reg.sringCfg 0, 1)]) 0 = true := by decide +kernel
theorem witness_ignored_groomer : grmBusy (upWith [(Reg.grmStatus, 1)]) = true ∧ pairHalf (Reg.grmReq 0) = .single := by
  decide +kernel
theorem witness_ignored_i2c : i2cHost (upWith [(Reg.pinCfg 6, 0x81)]) 0 = false ∧ Reg.i2cCfg 0 < Reg.i2cCfg 1 ∧
    pairHalf (Reg.i2cCfg 0) = .single := by decide +kernel
theorem witness_FixedPairs : rd0 (upWith [(Reg.heapUnits 0, 1)]) (Reg.heapUnits 0) ≠ 0 ∧
    ringEnabled (upWith [(Reg.ringCfg 0, 1)]) 0 = true := by decide +kernel
theorem witness_PairReadIsConsistent : pairHalf Reg.ltbNowLo = .lo ∧ pairHalf Reg.ltbNowHi = .hi ∧
    inRemovedCluster up Reg.ltbNowLo = false ∧ inGroomerI2c up Reg.ltbNowLo = false ∧ inBroadcast Reg.ltbNowLo = false ∧
    liveAt up Reg.ltbNowLo = true ∧ (3 : BitVec 4) ≠ 0 := by decide +kernel
theorem witness_narrow : (3 : BitVec 4) ≠ 15 ∧ hostDropped up = false := by decide +kernel
theorem witness_AccessBeforeReady : HostServes { up with regs := [] } ∧ ready { up with regs := [] } = false ∧
    liveAt { up with regs := [] } Reg.ltbSrc = false ∧ bar4Fits { up with regs := [] } (bar4Base { up with regs := [] }) 0 [none] = true ∧
    payloadBytes (.bar4Write 0 [none]) ≤ maxPayload { up with regs := [] } :=
  ⟨⟨by decide +kernel, rfl⟩, by decide +kernel, by decide +kernel, by decide +kernel, by decide +kernel⟩
theorem witness_doorbells : ringEnabled (upWith [(Reg.ringCfg 0, 0x61)]) 0 = true ∧ ringEnabled up 0 = false := by
  decide +kernel
theorem witness_ring_config : ringConfigOk up 0 ((0x660 ||| 1) &&& 0xFFFF0FF1) = true ∧
    ringConfigOk up 0 ((0 ||| 1) &&& 0xFFFF0FF1) = false := by decide +kernel
theorem witness_software_vector : 80 ≤ fld (100 : Word) 0 7 ∧ fld (3 : Word) 0 7 < 80 ∧ irqOutstanding up 100 = false ∧
    irqMasked { up with hiu := { up.hiu with msixEn := true, busMasterEn := true, msix := [(403, 0)] } } 100 = false := by
  decide +kernel
theorem witness_interrupt_rule : irqCause up 70 = false ∧ hostDropped up = false ∧
    hostDropped (upWith [(Reg.hltTwinCtrl, 2), (Reg.hltTwinStatus, 0x12)]) = true := by decide +kernel
theorem witness_config : cfgRetry { up with hiu := { up.hiu with cfgEnabled := true } } = false ∧ up.hiu.memSpaceEn = false := by
  decide +kernel
theorem witness_LineEventAdvancesLt : running { up with ltb := { up.ltb with active := 8 } } = true ∧
    ltFollows { up with ltb := { up.ltb with active := 8 } } = true ∧
    up.ltb.line < 0xFFFF ∧ up.ltb.pendingSrc ≠ some 8 ∧ (∀ x ∈ up.ltb.losts, x.src ≠ 8) := by decide +kernel
theorem witness_LtHoldsWhileDisabled : running (upWith [(Reg.ltbCtrl, 0)]) = true ∧
    ltbEnabled (upWith [(Reg.ltbCtrl, 0)]) = false := by decide +kernel
theorem witness_L2Ok : L2Ok up := by
  refine fun key => ⟨rfl, fun w l h => ?_⟩
  have e : (l2Set up key).ways = List.replicate 16 none := rfl
  rw [e, List.getElem?_replicate] at h
  split at h <;> simp at h
theorem witness_busy : bit (0x80000000 : Word) 31 = true ∧ bit (rd0 (upWith [(Reg.mmuStatus, 1)]) Reg.mmuStatus) 0 = true ∧
    setwayValid 0x40000000 = true ∧ bit (rd0 (upWith [(Reg.l2cStatus, 1)]) Reg.l2cStatus) 0 = true ∧
    bit (rd0 (upWith [(Reg.ltbLock, 1)]) Reg.ltbLock) 0 = true ∧
    bit (rd0 (upWith [(Reg.hltTwinLock, 1)]) Reg.hltTwinLock) 0 = true := by decide +kernel
theorem witness_idle_mask : execMask (heatFor { heat0 with am := 0 } { w := movWord }) { w := movWord } = 0 := by
  decide +kernel
theorem witness_nan : fv 0x7F800001 = .nan ∧ fv 0x3F800000 ≠ .nan := by decide +kernel
theorem witness_refused_power : pstate up = 0 ∧ pstateBusy up = false ∧
    pstateAllowed (upWith [(Reg.tgCtrl 0, 1)]) = false := by decide +kernel
theorem witness_calendar : fld (0x0000000108000000 : DWord) 10 17 < 86400 ∧ fld (0x0000000108000000 : DWord) 32 4 = 1 ∧
    fld (0x0000000108000000 : DWord) 27 5 = 1 := by decide +kernel
theorem witness_posted : ({ up with hiu := { up.hiu with posted := [(.bar4Write 0 [some 1], 0)] } } : State).hiu.posted ≠ [] ∧
    creditsFor { up with hiu := { up.hiu with posted := [(.bar4Write 0 [some 1], 0)] } } (.hiuSwint 100) = true := by
  decide +kernel

/-! ### Single steps, worked out from the spec -/

/-- A ring of 64 entries takes 64 as its first doorbell, and not 65 (R115). -/
theorem test_sq_doorbell_full : after? (.sqDoorbell 0 0 [(15, 64)]) (upWith [(Reg.ringCfg 0, 0x61)]) (fun t => rd t (Reg.ringSqTail 0)) =
    some 64 := by decide +kernel
theorem test_sq_doorbell_over : after? (.sqDoorbell 0 0 [(15, 65)]) (upWith [(Reg.ringCfg 0, 0x61)])
    (fun t => (rd t (Reg.ringSqTail 0), rd t Reg.cfeErr)) = some (0, 2) := by decide +kernel
/-- The capture of R117 holds value, kind and ring. -/
theorem test_disabled_release : after? (.cqRelease 5 15 9) up (fun t => rd t Reg.cfeErrCapture) = some 0x00090105 := by
  decide +kernel
/-- A line event of EXT starts line 1 (R52). -/
theorem test_line_event : after? (.lineEvent 8) { up with ltb := { up.ltb with active := 8 } } (fun t => ltNow t) =
    some 0x10000 := by decide +kernel
/-- A narrow BAR0 write sets bit 0 of HIU_ERR (R102). -/
theorem test_narrow : after? (.registerWrite 0x600014 [(3, 1)] false) up (fun t => (rd t Reg.hiuErr, rd t Reg.hiuErrAddrHi)) =
    some (1, 0x30) := by decide +kernel
/-- A bit that hardware sets in the cycle of a W1C write stays 1; set before it, it clears (R21). -/
theorem test_w1c_same_cycle : [true, false].map (fun same => after? (.registerWrite (BitVec.ofNat 25 Reg.ltbEvents) [(15, 1)] same)
    { upWith [(Reg.ltbEvents, 1)] with cycleSets := [(Reg.ltbEvents, 1)] } fun t => rd t Reg.ltbEvents) = [some 1, some 0] := by
  decide +kernel
/-- A 16-bit read of LTB_NOMINAL, whose reset value is 0x2EE, returns its addressed bytes (R18, R83). -/
theorem test_narrow_read : after? (.notReadyRead 0 ⟨0x600008, [3]⟩) up (fun t => t.hiu.reply) = some (.bytes [0xEE, 2]) := by
  decide +kernel
/-- The heat after MOV: its PC, its distance, and the due times and first lane values of its pending writes. -/
def movHeat : List Nat :=
  match (after? (.mov 0 0) (upHeat movWord) fun t => findHeat t 0 0) with
  | some (some (_, h)) => [h.pc, h.dist] ++ h.pend.map PendWrite.due ++ (h.pend.flatMap fun w => (w.w.vals.take 3).map BitVec.toNat)
  | _ => []

/-- MOV issues: one pending write of lanes 5, 6, 0, due 4 later, a stall of 1, and the PC after the word (R272, R275). -/
theorem test_mov : movHeat = [8, 1, 4, 5, 6, 0] := by decide +kernel
/-- 1.0 + 2.0 is 3.0, and 1.0 / 3.0 rounds to 0x3EAAAAAB (R289, R292). -/
theorem test_fadd : fAdd 0 0x3F800000 0x40000000 = 0x40400000 := by decide +kernel
theorem test_rcp : fRcp 0x40400000 = 0x3EAAAAAB := by decide +kernel
/-- A shift count of 32 gives 0 for SHL and copies of the sign for SRA (R288). -/
theorem test_shifts : shl32 1 32 = 0 ∧ sra32 0x80000000 40 = 0xFFFFFFFF := by decide +kernel
/-- The last tick of 2023-12-31 is followed by the first of 2024-01-01 (R615). -/
theorem test_calendar_year : calNext (BitVec.ofNat 64 (1023 + 86399 * 2 ^ 10 + 31 * 2 ^ 27 + 12 * 2 ^ 32 + 2023 * 2 ^ 36)) =
    BitVec.ofNat 64 (1 * 2 ^ 27 + 1 * 2 ^ 32 + 2024 * 2 ^ 36) := by decide +kernel
/-- A BAR4 write is read back (R89, R93). -/
theorem test_bar4 : ((nextOf (exec (.bar4Write 0x7E [some 1, none, some 3]) (upWith [(Reg.memUsableLo, 0x1000)]))).bind fun t =>
    after? (.bar4Read 0x7D 5) t fun u => u.hiu.reply) = some (.bytes [0, 1, 0, 3, 0]) := by decide +kernel

end Sys2Proof.Tests
end

section
/-!
What a command can be answered: the forms of an answer, by the clock domain of the command's unit, and that every one of
them is a next state with the queue and the level of SYS_RST_N of the state before.
-/

namespace Sys2Proof.Machine

/-! ### A step -/

/-- Settles O18: the queue's rest is the queue of the state that the command acts on. -/
theorem stepRunsTheFrontCommand : Obligations.StepRunsTheFrontCommand := by
  intro c s
  rfl

/-! ### The forms of an answer -/

/-- The answer o of a command in state s ends a cycle in the clock domain of its unit, or is the state as it was. -/
inductive AnswerForm (s : State) : Host.Outcome State Fault Refusal → Prop
  | ofClocked (t : State) : AnswerForm s (clocked s t)
  | ofGroomed (t : State) : AnswerForm s (groomed s t)
  | ofServed (t : State) : AnswerForm s (served s t)
  | ofAside (t : State) : AnswerForm s (aside s t)
  | unchanged : AnswerForm s (.next s)

/-- Whether an answer is a next state with the queue and the level of SYS_RST_N of state s. -/
def KeepsQueueAndReset (s : State) (o : Host.Outcome State Fault Refusal) : Prop :=
  ∃ t, o = .next t ∧ t.pending = s.pending ∧ t.pmu.sysRstN = s.pmu.sysRstN

/-- Every form of answer is confined to what a command may reach. -/
theorem AnswerForm.keeps {s : State} {o : Host.Outcome State Fault Refusal} (h : AnswerForm s o) : KeepsQueueAndReset s o := by
  cases h with
  | ofClocked t => exact clocked_next s t
  | ofGroomed t => exact groomed_next s t
  | ofServed t => exact served_next s t
  | ofAside t => exact aside_next s t
  | unchanged => exact ⟨s, rfl, rfl, rfl⟩

/-- A choice between two answers has the form of one of them. -/
theorem AnswerForm.ite {s : State} {p : Prop} [Decidable p] {a b : Host.Outcome State Fault Refusal} (ha : AnswerForm s a)
    (hb : AnswerForm s b) : AnswerForm s (if p then a else b) := by
  split
  · exact ha
  · exact hb

/-- The commands that reset the DEVICE scope before the cycle that they end, or in place of one (R639). -/
def resetsDevice (c : Instr) : Bool :=
  match c with
  | .vddAonRise | .sysRstNAssert | .sysRstNDeassert _ | .mainRailDip => true
  | _ => false

/-- Every command but those four is answered from the state that it found, in its unit's clock domain. -/
theorem exec_form (c : Instr) (s : State) (hc : resetsDevice c = false) : AnswerForm s (exec c s) := by
  cases c with
  | cplError | cplTimeout | lineEvent | frameEvent | fsyncInEdge | lsyncInEdge | sourceLost | sourceRecovered
  | lsyncOutEnd | fsyncOutEnd | descriptorFetch | cfeDispatch | retirement | nop | signal | wait | timestamp
  | checkpoint | renderPass | dispatch | layer | lift | pack | unpack | commit | cacheRangeClean
  | cacheRangeInvalidate | cacheRangeCleanInvalidate | heapGrantBinChunk | heapGrantReserve | heapGrantDeny | load
  | teardown | markLost | query | chain | contextUpdate | teardownRelease | poisonWalk | cancelStop | watchdog
  | waitSatisfied | setwayDone | mmuInvDone | windowAllocate | sheetStreamApply | liftComplete | liftStop | lp5Burst
  | refresh | blockPlace | blockEnd | preemption | preemptSaveComplete | blockRestore | cluConfigApply
  | variableResultWrite | illegalInstruction | icacheFill | swaitSatisfied | tnsBegin | tmmaComplete | tmmaStop
  | toutComplete | tclrComplete | stepStart | stepComplete | vertexBatchLaunch | vertexBatchEnd | patchTessellate
  | primitiveSetup | binPrimitive | tileJobPlace | fragmentHeatLaunch | fragmentHeatEnd | tileStore | tileJobEnd
  | stripDeadline | commitLatch | scalerBankCopy | scanoutLineFetch | tgPllLock | tgLineStart | tgFrameEvent
  | frameStart | lineStart | frameEnd | longPacket | csiEventRelease | cmpPackBlock | cmpUnpackBlock | helloResend
  | desc | twinLtEvent | repeatEnd | echoRequest | checkerTimeout | mirrorThrottleRelease | trainingAdvance
  | trainingTimeout | dataFlit | linkFlit | nullFlit | linkFlitSend | nakRepeat | replayTimeout | packetForward
  | vzlRead | vzlWrite | vzlAtomic | vzlSignal | resp | vzlRequestTimeout | katStart | katEnd | ladderSettle
  | clusterPowerOff | periodicSweep | drainGraceExpiry | agingMeasurement | spitRead | spitOtherCommand
  | laneLockLoss | lossToleranceExpiry | hello | write | sync | lt | tgsync | ckpt | verdict | loss | echo | strip
  | nopInstruction | bra | brx | call | ret | exit | bar | dpush | dsplit | dnext | dmask | dspill | dfill | sadd
  | ssub | smul | sand | sor | sxor | sshl | sshr | ssra | smin | smax | sminu | smaxu | smov | sadd64 | smovs | pand
  | por | pxor | pnot | smovp | pmovs | fadd | fmul | ffma | fmin | fmax | fsub | frnd | iadd | isub | imul | imulh
  | imad | and | or | xor | shl | shr | sra | imin | imax | popc | clz | brev | mov | sel | f2i | f2u | i2f | u2f
  | f2h | h2f | f2bf | bf2f | rcp | rsq | sqrt | exp2 | log2 | sin | cos | fcmp | icmp | ucmp | shfl | vtos | fredadd
  | iredadd | ld | st | lds | aadd | amin | amax | aminu | amaxu | aand | aor | axor | axchg | acas | afadd | fence
  | sig | swait | alloc | free | tex | tld | tmma | tout | tclr | liftInstruction =>
    exact .ofClocked _
  | dvfsReevaluate | dvfsChangeComplete | powerSample | thermalSample =>
    exact .ofGroomed _
  | broadcastWrite | poisonedWrite | msixUnmask | hiuIrqAck | hiuSwint | resizableBar | ltbSrcWrite | ltbEnable
  | cqRelease | ringEnable | ringDisable | ctx0Load | syncInit | l2cSetway | mmuInv | sringEnable | sringDisable
  | dspPlaneMap | dspScalerMap | tgEnable | tgDisable | csiEnable | csiDisable | hltTwinEnable | resume | vzlRetrain
  | pstateActive | pstateStandby | pstateOff | pinCfgWrite | pinSet | pinClr | pinTgl | pinEnSet | pinEnClr
  | pinEnTgl | i2cXfer | configurationRequest | registerWrite | sqDoorbell | bar4Read | notReadyRead | recordCommit
  | snapshotTimer | hotReset | linkDown | functionLevelReset | functionResetEnd | bootRom | firmwareCheck
  | boardRecord | lp5Training | selfTestAndMap | ready | thermtrip | standbyEntry | standbyExit | offReady
  | debounceExpiry | i2cDone | i2cTimeout | pcieLinkUp | mailboxResponse | getVersion | getBoot | setCalendar
  | setAlarm | readCounters | readLog | requestKat | requestDrain | writeSnapshot | fwInstall =>
    exact .ofServed _
  | calendarTick | wakeIn | groomerWatchdog | perstNAssert | pinInputChange | tapReset | extest | idcode | clamp
  | highz | bypass | perstNDeassert | samplePreload =>
    exact .ofAside _
  | bar4Write => exact .ite (.ofServed _) (.ofServed _)
  | pairLowRead path | pairHighRead path =>
    cases path with
    | host => exact .ofServed _
    | spit => exact .ofClocked _
  | pairLowWrite path | pairHighWrite path =>
    cases path with
    | host => exact .ofServed _
    | spit => exact .unchanged
  | synthesisedLineEvent pos =>
    cases pos with
    | none => exact .ofClocked _
    | some k => exact .ofClocked _
  | scalerLoad m =>
    show AnswerForm s (execScalerLoad m s)
    unfold execScalerLoad
    split
    · exact .ofClocked _
    · exact .unchanged
  | vddAonRise | sysRstNAssert | sysRstNDeassert | mainRailDip => cases hc

/-- A dip of the main rails resets the DEVICE scope, which keeps the queue and the level of SYS_RST_N. -/
theorem mainRailDip_keeps (s : State) : KeepsQueueAndReset s (exec .mainRailDip s) := ⟨_, rfl, rfl, rfl⟩

/-- A rise of SYS_RST_N keeps the queue. -/
theorem sysRstNDeassert_pending (straps : BitVec 3) (s : State) :
    ∃ t, exec (.sysRstNDeassert straps) s = .next t ∧ t.pending = s.pending := by
  show ∃ t, execSysRstNDeassert straps s = .next t ∧ t.pending = s.pending
  unfold execSysRstNDeassert
  split
  · exact ⟨s, rfl, rfl⟩
  · obtain ⟨t, ht, hq, -⟩ := aside_next (sysRstRise s straps) (pinSettle (startUp (sysRstRise s straps)))
    exact ⟨t, ht, hq⟩

/-- Settles O20: by the forms of an answer, and for the four resets by what a reset of the DEVICE scope keeps. -/
theorem everyCommandAnswersANextState : Obligations.EveryCommandAnswersANextState := by
  intro c s
  cases hc : resetsDevice c with
  | false =>
    obtain ⟨t, ht, hq, hr⟩ := (exec_form c s hc).keeps
    exact ⟨t, ht, hq, .inr hr⟩
  | true =>
    unfold resetsDevice at hc
    split at hc
    · exact ⟨_, rfl, rfl, .inl (.inl rfl)⟩
    · exact ⟨_, rfl, rfl, .inl (.inr (.inl rfl))⟩
    · obtain ⟨t, ht, hq⟩ := sysRstNDeassert_pending _ s
      exact ⟨t, ht, hq, .inl (.inr (.inr ⟨_, rfl⟩))⟩
    · obtain ⟨t, ht, hq, hr⟩ := mainRailDip_keeps s
      exact ⟨t, ht, hq, .inr hr⟩
    · cases hc

end Sys2Proof.Machine
end

section
/-!
What the state after a command keeps, where the command's effect changes registers of a list and the host interface and
nothing else: the pads stand, no unit changes, and every other register reads as before.
-/

namespace Sys2Proof.Machine

/-! ### Stored values -/

/-- What a key reads as depends on the default of that key alone. -/
theorem storeGet_default {β : Type} (d e : Nat → β) (m : Store β) (k : Nat) (h : d k = e k) : storeGet d m k = storeGet e m k := by
  induction m with
  | nil => exact h
  | cons p m ih => simp only [storeGet, ih]

/-- A register whose reset value is 0 reads the same by both readings of the store. -/
theorem rd0_eq_rd (s : State) (off : Nat) (h : regReset off = 0) : rd0 s off = rd s off := storeGet_default _ _ _ _ h.symm

theorem rd0_hltStatus (s : State) : rd0 s Reg.hltStatus = rd s Reg.hltStatus := rd0_eq_rd s _ (by decide +kernel)

theorem rd0_pmuStatus (s : State) : rd0 s Reg.pmuStatus = rd s Reg.pmuStatus := rd0_eq_rd s _ (by decide +kernel)

/-! ### Effects on registers alone -/

theorem sameUnits_refl (s : State) : SameUnits s s :=
  ⟨rfl, rfl, rfl, ⟨rfl, rfl, rfl, rfl⟩, rfl, rfl, rfl, rfl, rfl, rfl, rfl, rfl, rfl, rfl, rfl, rfl, rfl, rfl⟩

/-- The effect t of a command in state s changes registers of a list, neither HLT_STATUS nor PMU_STATUS among them in
value, and the host interface: no unit, no pin and no other register. -/
structure RegsOnly (s t : State) (offs : List Nat) : Prop where
  units : SameUnits s t
  pins : t.pins = s.pins
  regs : ∀ off, off ∉ offs → rd t off = rd s off
  hltStatus : rd t Reg.hltStatus = rd s Reg.hltStatus
  pmuStatus : rd t Reg.pmuStatus = rd s Reg.pmuStatus

theorem RegsOnly.refl (s : State) (offs : List Nat) : RegsOnly s s offs :=
  ⟨sameUnits_refl s, rfl, fun _ _ => rfl, rfl, rfl⟩

variable {s t : State} {offs : List Nat}

/-- A further change of the host interface is none of a unit, pin or register. -/
theorem RegsOnly.onHiu (h : RegsOnly s t offs) (f : Hiu → Hiu) : RegsOnly s (onHiu t f) offs :=
  ⟨h.units, h.pins, h.regs, h.hltStatus, h.pmuStatus⟩

/-- A further write of a register of the list, with its former value if it is HLT_STATUS or PMU_STATUS. -/
theorem RegsOnly.wr_of (h : RegsOnly s t offs) (off : Nat) (v : Word) (hm : off ∈ offs)
    (hh : off = Reg.hltStatus → v = rd s off) (hp : off = Reg.pmuStatus → v = rd s off) : RegsOnly s (wr t off v) offs where
  units := h.units
  pins := h.pins
  regs o ho := by rw [rd_wr_ne _ _ _ _ fun (e : o = off) => ho (e ▸ hm), h.regs o ho]
  hltStatus := by
    rw [rd_wr]
    split
    · next e => rw [hh e.symm, e]
    · exact h.hltStatus
  pmuStatus := by
    rw [rd_wr]
    split
    · next e => rw [hp e.symm, e]
    · exact h.pmuStatus

/-- A further write of a register of the list that is neither HLT_STATUS nor PMU_STATUS. -/
theorem RegsOnly.wr (h : RegsOnly s t offs) (off : Nat) (v : Word) (hm : off ∈ offs) (hh : off ≠ Reg.hltStatus)
    (hp : off ≠ Reg.pmuStatus) : RegsOnly s (wr t off v) offs :=
  h.wr_of off v hm (fun e => absurd e hh) fun e => absurd e hp

/-- A further event bit in a register of the list that is neither HLT_STATUS nor PMU_STATUS. -/
theorem RegsOnly.setEv (h : RegsOnly s t offs) (off b : Nat) (hm : off ∈ offs) (hh : off ≠ Reg.hltStatus)
    (hp : off ≠ Reg.pmuStatus) : RegsOnly s (setEv t off b) offs :=
  have k := h.wr off (rd t off ||| BitVec.ofNat 32 (2 ^ b)) hm hh hp
  ⟨k.units, k.pins, k.regs, k.hltStatus, k.pmuStatus⟩

/-! ### The state after such an effect -/

/-- The outputs that the pads follow are those of the units, HLT_STATUS and PMU_STATUS. -/
theorem RegsOnly.padOutputs_eq (h : RegsOnly s t offs) : padOutputs t = padOutputs s := by
  obtain ⟨hltb, -, -, -, htwin, -, -, -, -, -, -, -, -, -, -, -, -, hpmu⟩ := h.units
  simp only [padOutputs, healthN, draining, rd0_hltStatus, rd0_pmuStatus, h.hltStatus, h.pmuStatus, hltb, htwin, hpmu]

theorem RegsOnly.rd_after (h : RegsOnly s t offs) (off : Nat) (ha : ∀ i < 4, off ≠ Reg.hiuIrqAck i) :
    rd (after s t) off = rd t off := Machine.rd_after s t off ha h.padOutputs_eq

/-- The frame of the whole command. -/
theorem RegsOnly.frame (h : RegsOnly s t offs) :
    RegsKept s (after s t) offs ∧ SameUnits s (after s t) ∧ (after s t).pins = s.pins :=
  ⟨regsKept_after s t offs h.padOutputs_eq h.regs, sameUnits_after s t h.units h.padOutputs_eq,
    (after_pins s t h.padOutputs_eq).trans h.pins⟩

/-- Of the host interface, the end of the cycle changes messages and the PBA alone. -/
theorem RegsOnly.hiu_after (h : RegsOnly s t offs) : ∃ m p, (after s t).hiu = { t.hiu with msgs := m, pba := p } := by
  obtain ⟨⟨m, p, hi⟩, -⟩ := irqAlike_settle t
  refine ⟨m, p, ?_⟩
  rw [after, cycleEnd_same s t h.padOutputs_eq, confine_hiu, conSettle_hiu, hi]

theorem RegsOnly.reply_after (h : RegsOnly s t offs) : (after s t).hiu.reply = t.hiu.reply := by
  obtain ⟨m, p, hi⟩ := h.hiu_after
  rw [hi]

theorem RegsOnly.captureOf_after (h : RegsOnly s t offs) (path : Path) (lo : Nat) :
    captureOf (after s t) path lo = captureOf t path lo := by
  obtain ⟨m, p, hi⟩ := h.hiu_after
  rw [captureOf, hi, captureOf]

theorem RegsOnly.stagedHalf_after (h : RegsOnly s t offs) (path : Path) (lo : Nat) :
    stagedHalf (after s t) path lo = stagedHalf t path lo := by
  obtain ⟨m, p, hi⟩ := h.hiu_after
  rw [stagedHalf, hi, stagedHalf]

end Sys2Proof.Machine
end

section
/-!
A write of one dword of BAR0 by the host: which of its steps a register passes, and what its access codes store
(R14 to R21).
-/

namespace Sys2Proof.Machine

/-! ### What the access codes store -/

/-- Whether the RWL fields of copy i of a register row are locked (R15). -/
def rowLocked (s : State) (r : RegRow) (i : Nat) : Bool :=
  decide (r.lock ≠ 0) && bit (rd0 s (r.lock + r.lockStep * i)) 0

/-- What a register of row r holds after a write of v, by its access codes (R14 to R16). -/
def storedWord (r : RegRow) (locked : Bool) (old v : Word) : Word :=
  let m : Word := BitVec.ofNat 32 (if locked then r.rw else r.rw ||| r.rwl)
  (((old &&& ~~~ m) ||| (v &&& m)) &&& ~~~ (v &&& BitVec.ofNat 32 r.w1c)) ||| (v &&& BitVec.ofNat 32 r.w1s)

theorem bit_ofNat (n k : Nat) (hk : k < 32) : bit (BitVec.ofNat 32 n) k = n.testBit k := by
  rw [bit, BitVec.getLsbD_ofNat, decide_eq_true hk, Bool.true_and]

/-- W1S over W1C, both over the mask of what a write stores. -/
theorem bool_of_masks : ∀ old v m c w : Bool, (((old && !m) || (v && m)) && !(v && c) || (v && w)) =
    if w && v then true else if c && v then false else if m then v else old := by decide

/-- One bit of a register after a write: any bit of no access code that stores keeps its value. -/
theorem bit_storedWord (r : RegRow) (locked : Bool) (old v : Word) (k : Nat) (hk : k < 32) :
    bit (storedWord r locked old v) k =
      if r.w1s.testBit k && bit v k then true
      else if r.w1c.testBit k && bit v k then false
      else if r.rw.testBit k || (r.rwl.testBit k && !locked) then bit v k
      else bit old k := by
  have mask : (if locked then r.rw else r.rw ||| r.rwl).testBit k = (r.rw.testBit k || (r.rwl.testBit k && !locked)) := by
    cases locked <;> simp
  rw [← mask, ← bit_ofNat r.w1s k hk, ← bit_ofNat r.w1c k hk, ← bit_ofNat (if locked then r.rw else r.rw ||| r.rwl) k hk,
    ← bool_of_masks]
  simp only [storedWord, bit, BitVec.getLsbD_or, BitVec.getLsbD_and, BitVec.getLsbD_not, hk, decide_true, Bool.true_and]

/-- A row without an access code that stores is read-only. -/
theorem storedWord_readOnly (r : RegRow) (locked : Bool) (old v : Word) (hw : r.rw = 0) (hl : r.rwl = 0) (hc : r.w1c = 0)
    (hs : r.w1s = 0) : storedWord r locked old v = old := by
  refine BitVec.eq_of_getLsbD_eq fun k hk => ?_
  have := bit_storedWord r locked old v k hk
  simp only [hw, hl, hc, hs, Nat.zero_testBit, Bool.false_and, Bool.false_or, Bool.false_eq_true, if_false] at this
  exact this

theorem regStore_eq (s : State) (off : Nat) (v : Word) (r : RegRow) (i j : Nat) (h : regFind off = some (r, i, j)) :
    regStore s off v = wr s off (storedWord r (rowLocked s r i) (rd s off) v) := by
  unfold regStore
  rw [h]
  rfl

/-- A register whose row in the table is read-only keeps its value, whatever is written. -/
theorem storedWord_of_readOnly_row (off : Nat) (r q : RegRow) (i j : Nat) (h : regFind off = some (r, i, j))
    (hq : (regFind off).map (·.1) = some q) (ro : q.rw = 0 ∧ q.rwl = 0 ∧ q.w1c = 0 ∧ q.w1s = 0) (locked : Bool)
    (old v : Word) : storedWord r locked old v = old := by
  obtain rfl : r = q := by simpa [h] using hq
  obtain ⟨hw, hl, hc, hs⟩ := ro
  exact storedWord_readOnly r locked old v hw hl hc hs

/-- HLT_STATUS and PMU_STATUS are read-only, so that a write of any register leaves the pads as they are. -/
theorem regStore_regsOnly (s : State) (off : Nat) (v : Word) (r : RegRow) (i j : Nat) (h : regFind off = some (r, i, j)) :
    RegsOnly s (regStore s off v) [off] := by
  rw [regStore_eq s off v r i j h]
  refine (RegsOnly.refl s [off]).wr_of off _ (by simp) (fun e => ?_) fun e => ?_
  · subst e
    exact storedWord_of_readOnly_row _ r _ i j h rfl ⟨rfl, rfl, rfl, rfl⟩ _ _ _
  · subst e
    exact storedWord_of_readOnly_row _ r _ i j h rfl ⟨rfl, rfl, rfl, rfl⟩ _ _ _

theorem rd_regStore (s : State) (off : Nat) (v : Word) (r : RegRow) (i j : Nat) (h : regFind off = some (r, i, j)) (a : Nat) :
    rd (regStore s off v) a = if a = off then storedWord r (rowLocked s r i) (rd s off) v else rd s a := by
  rw [regStore_eq s off v r i j h, rd_wr]

/-! ### From the command to the register -/

theorem dwordOff_aligned (off : BitVec 25) (h : off.toNat % 4 = 0) : dwordOff off = off.toNat := by
  unfold dwordOff; omega

/-- A payload of one dword is within every Max Payload Size (R85). -/
theorem four_le_maxPayload (s : State) : 4 ≤ maxPayload s := by
  have : 0 < 2 ^ s.hiu.mps.val := Nat.two_pow_pos _
  unfold maxPayload; omega

/-- Equal effects answer equally. -/
theorem next_after {s t u : State} (h : t = u) :
    (Host.Outcome.next (after s t) : Host.Outcome State Fault Refusal) = .next (after s u) := h ▸ rfl

/-- REGISTER_WRITE of one dword, in a state in which the HIU serves a request at once. -/
theorem exec_registerWrite_dword (s : State) (off : BitVec 25) (be : BitVec 4) (v : Word) (h : HostServes s) :
    exec (.registerWrite off [(be, v)] false) s = .next (after s (bar0Write s (dwordOff off) be.toNat v)) := by
  have hp : payloadBytes (.registerWrite off [(be, v)] false) ≤ maxPayload s := four_le_maxPayload s
  refine (viaHiu_now _ _ s h).trans ?_
  rw [ifPayloadFits, if_pos hp]
  rfl

/-- A whole dword at a live offset outside the broadcast range reaches its register. -/
theorem bar0Write_dword (s : State) (off : Nat) (v : Word) (hl : liveAt s off = true) (hb : inBroadcast off = false) :
    bar0Write s off 15 v = dwordWrite s off v := by
  simp [bar0Write, hl, hb]

theorem exec_registerWrite_aligned (s : State) (off : BitVec 25) (v : Word) (h : HostServes s) (ha : off.toNat % 4 = 0)
    (hl : liveAt s off.toNat = true) (hb : inBroadcast off.toNat = false) :
    exec (.registerWrite off [(15, v)] false) s = .next (after s (dwordWrite s off.toNat v)) := by
  rw [exec_registerWrite_dword s off 15 v h, dwordOff_aligned off ha]
  exact next_after (bar0Write_dword s off.toNat v hl hb)

theorem dwordWrite_single (s : State) (off : Nat) (v : Word) (hr : inRemovedCluster s off = false)
    (hg : inGroomerI2c s off = false) (hp : pairHalf off = .single) : dwordWrite s off v = regWrite s off v := by
  simp [dwordWrite, hr, hg, hp]

theorem regWrite_ignored (s : State) (off : Nat) (v : Word) (h : writeIgnored s off = true) : regWrite s off v = s := by
  simp [regWrite, h]

/-- A register that has no effect of its own stores by its access codes. -/
theorem regWrite_plain (s : State) (off : Nat) (v : Word) (hi : writeIgnored s off = false) (h0 : actWrite0 s off v = none)
    (h1 : actWrite1 s off v = none) (h2 : actWrite2 s off v = none) : regWrite s off v = regStore s off v := by
  simp [regWrite, hi, h0, h1, h2]

/-- A register that takes writes now is assigned, in no removed cluster and in no I2C controller of the groomer's. -/
theorem reached_of_not_ignored (s : State) (off : Nat) (h : writeIgnored s off = false) :
    assigned off = true ∧ inRemovedCluster s off = false ∧ inGroomerI2c s off = false := by
  simp only [writeIgnored, Bool.or_eq_false_iff, Bool.not_eq_false'] at h
  tauto

theorem pairHalf_of_regFind (off : Nat) (r : RegRow) (i j : Nat) (h : regFind off = some (r, i, j)) : pairHalf off = r.pair := by
  simp only [pairHalf, h]

/-- An unassigned offset is no half of a pair. -/
theorem pairHalf_unassigned (off : Nat) (h : assigned off = false) : pairHalf off = .single := by
  simp only [assigned, Bool.or_eq_false_iff, Option.isSome_eq_false_iff, Option.isNone_iff_eq_none] at h
  simp only [pairHalf, h.1]

/-! ### Registers that take writes in every state -/

/-- The ranges, each with its first offset and the one past its last, in which the state can make a register ignore
writes: the clusters, the I2C controllers, timing generators and DSI ports, camera ports, request words, ring bases, strip
rings and heap bases. -/
def ignorableRanges : List (Nat × Nat) :=
  [(0x1000000, 0x2000000), (Reg.i2cCfg 0, Reg.i2cCfg 2), (Reg.tgCtrl 0, Reg.dsiPktDelay 3 + 4),
    (Reg.csiCtrl 0, Reg.csiFeSignal 3), (Reg.grmReq 0, Reg.grmReq 64), (Reg.ringSqBaseLo 0, Reg.ringCfg 63),
    (Reg.sringSize 0, Reg.sringY0 15 + 4), (Reg.heapVaBaseLo 0, Reg.heapVaBaseLo 128)]

/-- An assigned offset outside those ranges that is no S register. -/
def alwaysWritable (off : Nat) : Bool :=
  assigned off && (shadowHome off).isNone && ignorableRanges.all fun r => decide (off < r.1) || decide (r.2 ≤ off)

variable (s : State) (off : Nat)

theorem inRemovedCluster_outside (h : off < 0x1000000 ∨ 0x2000000 ≤ off) : inRemovedCluster s off = false := by
  have : ¬ (0x1000000 ≤ off ∧ off < 0x2000000) := by omega
  simp only [inRemovedCluster, ← Bool.decide_and, this, decide_false, Bool.false_and]

theorem inGroomerI2c_outside (h : off < Reg.i2cCfg 0 ∨ Reg.i2cCfg 2 ≤ off) : inGroomerI2c s off = false := by
  have : ¬ (Reg.i2cCfg 0 ≤ off ∧ off < Reg.i2cCfg 2) := by omega
  simp only [inGroomerI2c, ← Bool.decide_and, this, decide_false, Bool.false_and]

theorem tgFixed_outside (h : off < Reg.tgCtrl 0 ∨ Reg.dsiPktDelay 3 + 4 ≤ off) : tgFixed s off = false :=
  List.any_eq_false.2 fun m hm => by
    have hm : m < 4 := List.mem_range.1 hm
    simp only [Reg.tgCtrl, Reg.dsiPktDelay, Bool.and_eq_true, decide_eq_true_eq] at *
    omega

theorem csiFixed_outside (h : off < Reg.csiCtrl 0 ∨ Reg.csiFeSignal 3 ≤ off) : csiFixed s off = false :=
  List.any_eq_false.2 fun n hn => by
    have hn : n < 4 := List.mem_range.1 hn
    simp only [Reg.csiCtrl, Reg.csiFeSignal, Bool.and_eq_true, decide_eq_true_eq] at *
    omega

/-- No state makes such a register ignore a write. -/
theorem not_ignored_of_alwaysWritable (h : alwaysWritable off = true) : writeIgnored s off = false := by
  simp only [alwaysWritable, ignorableRanges, List.all_cons, List.all_nil, Bool.and_true, Bool.and_eq_true, Bool.or_eq_true,
    decide_eq_true_eq, Option.isNone_iff_eq_none] at h
  obtain ⟨⟨hassigned, hshadow⟩, hclu, hi2c, htg, hcsi, hgrm, hring, hsring, hheap⟩ := h
  have request : (decide (Reg.grmReq 0 ≤ off) && decide (off < Reg.grmReq 64)) = false := by
    have : ¬ (Reg.grmReq 0 ≤ off ∧ off < Reg.grmReq 64) := by omega
    simp only [← Bool.decide_and, this, decide_false]
  have ringBase : ((List.range 64).any fun n =>
      ringEnabled s n && decide (Reg.ringSqBaseLo n ≤ off) && decide (off < Reg.ringCfg n)) = false :=
    List.any_eq_false.2 fun n hn => by
      have hn : n < 64 := List.mem_range.1 hn
      simp only [Reg.ringSqBaseLo, Reg.ringCfg, Bool.and_eq_true, decide_eq_true_eq] at *
      omega
  have stripRing : ((List.range 16).any fun n =>
      sringOn s n && (decide (off = Reg.sringSize n) || decide (off = Reg.sringY0 n))) = false :=
    List.any_eq_false.2 fun n hn => by
      have hn : n < 16 := List.mem_range.1 hn
      simp only [Reg.sringSize, Reg.sringY0, Bool.and_eq_true, Bool.or_eq_true, decide_eq_true_eq] at *
      omega
  have heapBase : ((List.range 128).any fun c =>
      decide (off / 8 * 8 = Reg.heapVaBaseLo c) && decide (rd0 s (Reg.heapUnits c) ≠ 0)) = false :=
    List.any_eq_false.2 fun c hc => by
      have hc : c < 128 := List.mem_range.1 hc
      simp only [Reg.heapVaBaseLo, Bool.and_eq_true, decide_eq_true_eq] at *
      omega
  simp only [writeIgnored, hassigned, inRemovedCluster_outside s off hclu, inGroomerI2c_outside s off hi2c,
    tgFixed_outside s off htg, csiFixed_outside s off hcsi, hshadow, request, ringBase, stripRing, heapBase,
    Option.isSome_none, Bool.not_true, Bool.false_and, Bool.or_false]

end Sys2Proof.Machine
end

section
/-!
A read of one dword of BAR0 by the host: what each kind of register answers, and what the read of a pair captures
(R17 to R20).
-/

namespace Sys2Proof.Machine

/-! ### What a path reads -/

variable (s : State) (path : Path) (off : Nat)

/-- A removed cluster and an I2C controller of the groomer's answer 0 (R40, R675). -/
theorem pathRead_unreached (hb : inBroadcast off = false) (h : (inRemovedCluster s off || inGroomerI2c s off) = true) :
    pathRead s path off = (s, 0) := by
  simp [pathRead, readOffset, hb, h]

/-- A register that is no half of a pair shows its value. -/
theorem pathRead_single (hb : inBroadcast off = false) (h : (inRemovedCluster s off || inGroomerI2c s off) = false)
    (hp : pairHalf off = .single) : pathRead s path off = (s, regShow s off) := by
  simp [pathRead, readOffset, hb, h, hp]

/-- A low half shows its value, and the high half shown then is captured (R20). -/
theorem pathRead_lo (hb : inBroadcast off = false) (h : (inRemovedCluster s off || inGroomerI2c s off) = false)
    (hp : pairHalf off = .lo) :
    pathRead s path off = (setCapture s path off (some (regShow s (off + 4))), regShow s off) := by
  simp [pathRead, readOffset, hb, h, hp]

/-- A high half with a capture pending answers it and releases it (R20). -/
theorem pathRead_hi_captured (hb : inBroadcast off = false) (h : (inRemovedCluster s off || inGroomerI2c s off) = false)
    (hp : pairHalf off = .hi) (v : Word) (hc : captureOf s path (off - 4) = some v) :
    pathRead s path off = (setCapture s path (off - 4) none, v) := by
  simp [pathRead, readOffset, hb, h, hp, hc]

/-- A high half without a capture shows its value (R20). -/
theorem pathRead_hi_live (hb : inBroadcast off = false) (h : (inRemovedCluster s off || inGroomerI2c s off) = false)
    (hp : pairHalf off = .hi) (hc : captureOf s path (off - 4) = none) : pathRead s path off = (s, regShow s off) := by
  simp [pathRead, readOffset, hb, h, hp, hc]

/-- Nothing stands at an unassigned offset, in whatever range it lies (R17). -/
theorem pathRead_unassigned (h : assigned off = false) (hb : inBroadcast off = false) : pathRead s path off = (s, 0) := by
  cases hr : inRemovedCluster s off || inGroomerI2c s off with
  | true => exact pathRead_unreached s path off hb hr
  | false =>
    rw [pathRead_single s path off hb hr (pairHalf_unassigned off h)]
    simp [regShow, h]

/-! ### From the command to the path -/

/-- A read of some bytes of a live dword is a read of the host's path (R18). -/
theorem bar0Read_live (be : BitVec 4) (hl : liveAt s off = true) (hbe : be ≠ 0) :
    bar0Read s off be = answer (pathRead s .host off).1 (wordReply be (pathRead s .host off).2) := by
  have hn : be.toNat ≠ 0 := fun e => hbe (BitVec.eq_of_toNat_eq e)
  have hw : bar0Word s off be.toNat = pathRead s .host off := by simp [bar0Word, hl, hn]
  rw [bar0Read, hw]

/-- A read TLP, in a state in which the HIU serves a request at once. -/
theorem exec_notReadyRead (space : Fin 3) (r : ReadTlp) (h : HostServes s) :
    exec (.notReadyRead space r) s = .next (after s (barRead s (bar4Base s) space.val r.off.toNat r.bes)) :=
  viaHiuAt_now _ _ (fun u => barRead u (bar4Base s) space.val r.off.toNat r.bes) s h

/-- A read TLP of one dword of BAR0. -/
theorem exec_bar0_read_dword (off : BitVec 25) (h : HostServes s) (ha : off.toNat % 4 = 0) :
    exec (.notReadyRead 0 ⟨off.setWidth 32, [15]⟩) s = .next (after s (bar0Read s off.toNat 15)) := by
  have ho : (off.setWidth 32).toNat % 2 ^ 25 / 4 * 4 = off.toNat := by
    rw [BitVec.toNat_setWidth]; omega
  have hr : ∀ o, barRead s (bar4Base s) 0 o [15] = bar0Read s (o % 2 ^ 25 / 4 * 4) 15 := fun _ => rfl
  rw [exec_notReadyRead s _ _ h, ← ho]
  exact next_after (hr _)

theorem exec_pairLowRead_host (r : DwordRead) (h : HostServes s) :
    exec (.pairLowRead .host r) s = .next (after s (bar0Read s (dwordOff r.off) r.be)) :=
  viaHiu_now _ (fun u => bar0Read u (dwordOff r.off) r.be) s h

theorem exec_pairHighRead_host (r : DwordRead) (h : HostServes s) :
    exec (.pairHighRead .host r) s = .next (after s (bar0Read s (dwordOff r.off) r.be)) :=
  viaHiu_now _ (fun u => bar0Read u (dwordOff r.off) r.be) s h

end Sys2Proof.Machine
end

section
/-!
The statements on writes of single registers: plain registers, lock bits, unassigned offsets, busy engines and locked
controls; and on reset values.
-/

namespace Sys2Proof.Machine

/-! ### Plain registers -/

/-- Settles O27: the write reaches regStore, whose frame is that of its register, and its bits are those of storedWord. -/
theorem plainRegisterWriteStoresItsFields : Obligations.PlainRegisterWriteStoresItsFields := by
  intro s off v r i j hs ha hl hb hf hsingle hi h0 h1 h2 hack
  obtain ⟨-, hr, hg⟩ := reached_of_not_ignored s off.toNat hi
  have effect : dwordWrite s off.toNat v = regStore s off.toNat v := by
    rw [dwordWrite_single s _ v hr hg ((pairHalf_of_regFind _ r i j hf).trans hsingle), regWrite_plain s _ v hi h0 h1 h2]
  have only : RegsOnly s (regStore s off.toNat v) [off.toNat] := regStore_regsOnly s _ v r i j hf
  obtain ⟨hregs, hunits, hpins⟩ := only.frame
  refine ⟨_, exec_registerWrite_aligned s off v hs ha hl hb, ?_⟩
  rw [effect]
  refine ⟨hregs, hunits, hpins, fun k hk => ?_⟩
  rw [only.rd_after off.toNat hack, rd_regStore s _ v r i j hf, if_pos rfl, bit_storedWord _ _ _ _ k hk]
  rfl

/-! ### Lock registers -/

/-- A lock register: its bit 0 is W1S and no other access code stores in it, and no state keeps a write of it from
regStore. -/
structure LockRegister (off : BitVec 25) : Prop where
  row : ∃ r i j, regFind off.toNat = some (r, i, j) ∧ r.pair = .single ∧ r.rw = 0 ∧ r.rwl = 0 ∧ r.w1c = 0 ∧ r.w1s = 1
  aligned : off.toNat % 4 = 0
  noBroadcast : inBroadcast off.toNat = false
  writable : alwaysWritable off.toNat = true
  noEffect0 : ∀ s v, actWrite0 s off.toNat v = none
  noEffect1 : ∀ s v, actWrite1 s off.toNat v = none
  noEffect2 : ∀ s v, actWrite2 s off.toNat v = none
  noAck : ∀ k < 4, off.toNat ≠ Reg.hiuIrqAck k

theorem liveAt_of_ready (s : State) (off : Nat) (h : ready s = true) : liveAt s off = true := by simp [liveAt, h]

/-- R15: writing 1 sets a lock bit, and nothing that the host writes clears it. -/
theorem LockRegister.write {off : BitVec 25} (h : LockRegister off) (s : State) (v : Word) (hs : HostServes s)
    (hready : ready s = true) : ∃ t, exec (.registerWrite off [(15, v)] false) s = .next t ∧
      bit (rd t off.toNat) 0 = (bit (rd s off.toNat) 0 || bit v 0) := by
  obtain ⟨r, i, j, hf, hp, hrw, hrwl, hw1c, hw1s⟩ := h.row
  obtain ⟨t, ht, -, -, -, hbits⟩ := plainRegisterWriteStoresItsFields s off v r i j hs h.aligned (liveAt_of_ready s _ hready)
    h.noBroadcast hf hp (not_ignored_of_alwaysWritable s _ h.writable) (h.noEffect0 s v) (h.noEffect1 s v) (h.noEffect2 s v) h.noAck
  refine ⟨t, ht, (hbits 0 (by decide)).trans ?_⟩
  cases hv : bit v 0 <;> simp [hrw, hrwl, hw1c, hw1s]

/-- The device-wide lock registers. -/
theorem lockRegister_of_mem (off : Nat) (h : off ∈ [Reg.ltbLock, Reg.ctxLock, Reg.l2cLock, Reg.memLock, Reg.heapLock,
    Reg.conLock, Reg.hltTwinLock, Reg.vzlLock, Reg.hltLock, Reg.pmuLock]) :
    LockRegister (BitVec.ofNat 25 off) ∧ (BitVec.ofNat 25 off).toNat = off := by
  simp only [List.mem_cons, List.not_mem_nil, or_false] at h
  rcases h with rfl | rfl | rfl | rfl | rfl | rfl | rfl | rfl | rfl | rfl
  all_goals exact ⟨⟨⟨_, _, _, rfl, rfl, rfl, rfl, rfl, rfl⟩, rfl, rfl, by decide +kernel, fun _ _ => rfl, fun _ _ => rfl,
    fun _ _ => rfl, by decide +kernel⟩, rfl⟩

/-- Settles O28: each of the ten is a lock register, whose bit 0 is W1S. -/
theorem lockBitsStaySet : Obligations.LockBitsStaySet := by
  intro off hoff s v hs hready
  obtain ⟨hlock, hoff⟩ := lockRegister_of_mem off hoff
  simpa only [hoff] using hlock.write s v hs hready

/-! ### Unassigned offsets -/

theorem writeIgnored_unassigned (s : State) (off : Nat) (h : assigned off = false) : writeIgnored s off = true := by
  simp [writeIgnored, h]

theorem dwordWrite_unassigned (s : State) (off : Nat) (v : Word) (h : assigned off = false) : dwordWrite s off v = s := by
  unfold dwordWrite
  split
  · rfl
  · rw [pairHalf_unassigned off h]
    exact regWrite_ignored s off v (writeIgnored_unassigned s off h)

/-- Settles O25: an unassigned offset is no half of a pair, ignores every write and shows 0 (R17). -/
theorem unassignedOffsetsReadZero : Obligations.UnassignedOffsetsReadZero := by
  intro s off hs ha hb hl hu
  refine ⟨fun v => ?_, ?_⟩
  · rw [exec_registerWrite_aligned s off v hs ha hl hb, dwordWrite_unassigned s _ v hu]
  · rw [exec_bar0_read_dword s off hs ha, bar0Read_live s _ 15 hl (by decide), pathRead_unassigned s .host _ hu hb]
    rfl

/-! ### Busy engines and locked controls -/

theorem mmuInvWrite_busy (s : State) (v : Word) (hv : bit v 31 = true) (hb : bit (rd0 s Reg.mmuStatus) 0 = true) :
    mmuInvWrite s v = setEv s Reg.mmuEvents 1 := by simp [mmuInvWrite, hv, hb]

theorem setwayWrite_busy (s : State) (v : Word) (hv : setwayValid v = true) (hb : bit (rd0 s Reg.l2cStatus) 0 = true) :
    setwayWrite s v = setEv s Reg.l2cEvents 2 := by simp [setwayWrite, hv, hb]

theorem grmDoorbell_refused (s : State) (v : Word) (hv : bit v 0 = true) (hb : (grmBusy s || !fwRunning s) = true) :
    grmDoorbell s v = setEv s Reg.grmEvents 1 := by simp [grmDoorbell, hv, hb]

theorem ltbSrcWrite_locked (s : State) (v : Word) (h : bit (rd0 s Reg.ltbLock) 0 = true) : ltbSrcWrite s v = s := by
  simp [ltbSrcWrite, h]

theorem twinCtrlWrite_locked (s : State) (v : Word) (h : bit (rd0 s Reg.hltTwinLock) 0 = true) : twinCtrlWrite s v = s := by
  simp [twinCtrlWrite, h]

/-- A write of GRM_DOORBELL reaches the groomer. -/
theorem dwordWrite_grmDoorbell (s : State) (v : Word) : dwordWrite s Reg.grmDoorbell v = grmDoorbell s v := by
  have hi : writeIgnored s Reg.grmDoorbell = false := not_ignored_of_alwaysWritable s _ (by decide +kernel)
  obtain ⟨-, hr, hg⟩ := reached_of_not_ignored s _ hi
  rw [dwordWrite_single s _ v hr hg (by decide +kernel), regWrite, hi]
  rfl

/-- Settles O49: each write reaches its engine or control, which is busy or locked. -/
theorem busyAndLockedCommandsDoNothing : Obligations.BusyAndLockedCommandsDoNothing := by
  intro s v hs hready
  have live : ∀ off, liveAt s off = true := fun off => liveAt_of_ready s off hready
  refine ⟨fun hv hb => ?_, fun hv hb => ?_, fun hv hb => ?_, fun hlock => ?_, fun hlock => ?_⟩
  · exact (viaHiu_live _ _ _ s hs (live Reg.mmuInv)).trans (by rw [mmuInvWrite_busy s v hv hb])
  · exact (viaHiu_live _ _ _ s hs (live Reg.l2cSetway)).trans (by rw [setwayWrite_busy s v hv hb])
  · rw [exec_registerWrite_aligned s _ v hs rfl (live _) rfl]
    exact next_after ((dwordWrite_grmDoorbell s v).trans (grmDoorbell_refused s v hv hb))
  · exact (viaHiu_live _ _ _ s hs (live Reg.ltbSrc)).trans (by rw [ltbSrcWrite_locked s v hlock])
  · exact (viaHiu_live _ _ _ s hs (live Reg.hltTwinCtrl)).trans (by rw [twinCtrlWrite_locked s v hlock])

/-! ### Reset values -/

/-- Settles O24: out of reset the store lists no register, so each shows its row's reset value. -/
theorem resetRegisterValues : Obligations.ResetRegisterValues := by
  unfold Obligations.ResetRegisterValues
  decide +kernel

end Sys2Proof.Machine
end

section
/-!
The statements on register pairs: the capture of a pair that is read (R20), and the staged half of one that is written
(R19).
-/

namespace Sys2Proof.Machine

/-! ### Captures and staged halves -/

theorem captureOf_setCapture (s : State) (path : Path) (lo : Nat) (v : Option Word) :
    captureOf (setCapture s path lo v) path lo = v := storeGet_put_same _ _ _ _

theorem captureOf_answer (s : State) (r : HostReply) (path : Path) (lo : Nat) :
    captureOf (answer s r) path lo = captureOf s path lo := rfl

theorem stagedHalf_setStaged (s : State) (path : Path) (lo : Nat) (v : Option Word) :
    stagedHalf (setStaged s path lo v) path lo = v := storeGet_put_same _ _ _ _

/-- Captures, staged halves and the reply are the host interface's. -/
theorem RegsOnly.setCapture {s t : State} {offs : List Nat} (h : RegsOnly s t offs) (path : Path) (lo : Nat) (v : Option Word) :
    RegsOnly s (setCapture t path lo v) offs := h.onHiu _

theorem RegsOnly.setStaged {s t : State} {offs : List Nat} (h : RegsOnly s t offs) (path : Path) (lo : Nat) (v : Option Word) :
    RegsOnly s (setStaged t path lo v) offs := h.onHiu _

theorem RegsOnly.answer {s t : State} {offs : List Nat} (h : RegsOnly s t offs) (r : HostReply) :
    RegsOnly s (answer t r) offs := h.onHiu _

/-! ### Reading a pair -/

/-- A low half is answered, and the high half shown with it is captured. -/
theorem bar0Read_lo (s : State) (off : Nat) (be : BitVec 4) (hbe : be ≠ 0) (hl : liveAt s off = true) (hb : inBroadcast off = false)
    (h : (inRemovedCluster s off || inGroomerI2c s off) = false) (hp : pairHalf off = .lo) :
    bar0Read s off be = answer (setCapture s .host off (some (regShow s (off + 4)))) (wordReply be (regShow s off)) := by
  rw [bar0Read_live s off be hl hbe, pathRead_lo s .host off hb h hp]

/-- Of a high half the captured value is answered, else the live one, and no capture stays. -/
theorem bar0Read_hi (s : State) (off : Nat) (be : BitVec 4) (hbe : be ≠ 0) (hl : liveAt s off = true) (hb : inBroadcast off = false)
    (h : (inRemovedCluster s off || inGroomerI2c s off) = false) (hp : pairHalf off = .hi) :
    ∃ u, bar0Read s off be = answer u (wordReply be ((captureOf s .host (off - 4)).getD (regShow s off))) ∧
      captureOf u .host (off - 4) = none ∧ RegsOnly s u [] := by
  rw [bar0Read_live s off be hl hbe]
  cases hc : captureOf s .host (off - 4) with
  | some v =>
    rw [pathRead_hi_captured s .host off hb h hp v hc]
    exact ⟨_, rfl, captureOf_setCapture _ _ _ _, (RegsOnly.refl s []).setCapture _ _ _⟩
  | none =>
    rw [pathRead_hi_live s .host off hb h hp hc]
    exact ⟨_, rfl, hc, RegsOnly.refl s []⟩

/-- Settles O31: a read of either half changes nothing but the reply and the pair's capture. -/
theorem pairReadIsConsistent : Obligations.PairReadIsConsistent := by
  intro s off be hbe hs ha hb hl hr hg
  have reached : (inRemovedCluster s off.toNat || inGroomerI2c s off.toNat) = false := by rw [hr, hg]; rfl
  refine ⟨fun hp => ⟨_, exec_pairLowRead_host s _ hs, ?_⟩, fun hp => ⟨_, exec_pairHighRead_host s _ hs, ?_⟩⟩
  · rw [dwordOff_aligned off ha, bar0Read_lo s _ be hbe hl hb reached hp]
    have only := ((RegsOnly.refl s []).setCapture .host off.toNat (some (regShow s (off.toNat + 4)))).answer
      (wordReply be (regShow s off.toNat))
    exact ⟨only.reply_after, by rw [only.captureOf_after, captureOf_answer, captureOf_setCapture], only.frame⟩
  · obtain ⟨u, hu, hc, released⟩ := bar0Read_hi s off.toNat be hbe hl hb reached hp
    rw [dwordOff_aligned off ha, hu]
    have only := released.answer (wordReply be ((captureOf s .host (off.toNat - 4)).getD (regShow s off.toNat)))
    exact ⟨only.reply_after, by rw [only.captureOf_after, captureOf_answer, hc], only.frame⟩

/-! ### Writing a pair -/

theorem exec_pairLowWrite_host (s : State) (off : BitVec 25) (be : BitVec 4) (v : Word) (h : HostServes s) :
    exec (.pairLowWrite .host off be v) s = .next (after s (bar0Write s (dwordOff off) be.toNat v)) :=
  viaHiu_now _ (fun u => bar0Write u (dwordOff off) be.toNat v) s h

theorem exec_pairHighWrite_host (s : State) (off : BitVec 25) (be : BitVec 4) (v : Word) (h : HostServes s) :
    exec (.pairHighWrite .host off be v) s = .next (after s (bar0Write s (dwordOff off) be.toNat v)) :=
  viaHiu_now _ (fun u => bar0Write u (dwordOff off) be.toNat v) s h

variable (s : State) (off : Nat) (v : Word)

/-- A low half that takes writes now is staged (R19). -/
theorem dwordWrite_lo (hi : writeIgnored s off = false) (hp : pairHalf off = .lo) :
    dwordWrite s off v = setStaged s .host off (some v) := by
  obtain ⟨-, hr, hg⟩ := reached_of_not_ignored s off hi
  simp [dwordWrite, hr, hg, hp, hi]

/-- A high half is stored with the low half that is staged (R19). -/
theorem dwordWrite_hi_staged (hi : writeIgnored s off = false) (hp : pairHalf off = .hi) (lo : Word)
    (h : stagedHalf s .host (off - 4) = some lo) :
    dwordWrite s off v = regWrite (regWrite (setStaged s .host (off - 4) none) (off - 4) lo) off v := by
  obtain ⟨-, hr, hg⟩ := reached_of_not_ignored s off hi
  simp [dwordWrite, hr, hg, hp, h]

/-- With nothing staged, a high half is stored alone (R20). -/
theorem dwordWrite_hi_alone (hi : writeIgnored s off = false) (hp : pairHalf off = .hi)
    (h : stagedHalf s .host (off - 4) = none) : dwordWrite s off v = regWrite s off v := by
  obtain ⟨-, hr, hg⟩ := reached_of_not_ignored s off hi
  simp [dwordWrite, hr, hg, hp, h]

/-- A row whose bits are all RW takes the word that is written. -/
theorem storedWord_allRw (r : RegRow) (locked : Bool) (old : Word) (hw : r.rw = 0xFFFFFFFF) (hc : r.w1c = 0) (hs : r.w1s = 0) :
    storedWord r locked old v = v := by
  refine BitVec.eq_of_getLsbD_eq fun k hk => ?_
  have bits : Nat.testBit 0xFFFFFFFF k = true := by
    rw [show (0xFFFFFFFF : Nat) = 2 ^ 32 - 1 from rfl, Nat.testBit_two_pow_sub_one, decide_eq_true hk]
  have := bit_storedWord r locked old v k hk
  simp only [hw, hc, hs, bits, Nat.zero_testBit, Bool.false_and, Bool.true_or, Bool.false_eq_true, if_false, if_true] at this
  exact this

/-- A write of either half of HIU_BAR4_BASE stores the whole word. -/
theorem regWrite_hiuBar4BaseLo : regWrite s Reg.hiuBar4BaseLo v = wr s Reg.hiuBar4BaseLo v := by
  rw [regWrite_plain s _ v (not_ignored_of_alwaysWritable s _ (by decide +kernel)) rfl rfl rfl, regStore_eq s _ v _ _ _ rfl,
    storedWord_allRw v _ _ _ rfl rfl rfl]

theorem regWrite_hiuBar4BaseHi : regWrite s Reg.hiuBar4BaseHi v = wr s Reg.hiuBar4BaseHi v := by
  rw [regWrite_plain s _ v (not_ignored_of_alwaysWritable s _ (by decide +kernel)) rfl rfl rfl, regStore_eq s _ v _ _ _ rfl,
    storedWord_allRw v _ _ _ rfl rfl rfl]

/-- The HIU's range is live before READY too (R107). -/
theorem liveAt_hiu (h : off < 0x100000) : liveAt s off = true := by simp [liveAt, h]

/-- The low half of HIU_BAR4_BASE is staged. -/
theorem bar0Write_hiuBar4BaseLo :
    bar0Write s Reg.hiuBar4BaseLo 15 v = setStaged s .host Reg.hiuBar4BaseLo (some v) := by
  rw [bar0Write_dword s _ v (liveAt_hiu s _ (by decide)) rfl,
    dwordWrite_lo s _ v (not_ignored_of_alwaysWritable s _ (by decide +kernel)) rfl]

/-- The high half of HIU_BAR4_BASE is stored with what is staged, else alone, and nothing stays staged. -/
theorem bar0Write_hiuBar4BaseHi : ∃ u, bar0Write s Reg.hiuBar4BaseHi 15 v = wr u Reg.hiuBar4BaseHi v ∧
    rd u Reg.hiuBar4BaseLo = (stagedHalf s .host Reg.hiuBar4BaseLo).getD (rd s Reg.hiuBar4BaseLo) ∧
    stagedHalf u .host Reg.hiuBar4BaseLo = none ∧ RegsOnly s u [Reg.hiuBar4BaseLo, Reg.hiuBar4BaseHi] := by
  have hi : writeIgnored s Reg.hiuBar4BaseHi = false := not_ignored_of_alwaysWritable s _ (by decide +kernel)
  rw [bar0Write_dword s _ v (liveAt_hiu s _ (by decide)) rfl]
  cases h : stagedHalf s .host Reg.hiuBar4BaseLo with
  | some lo =>
    rw [dwordWrite_hi_staged s _ v hi rfl lo h, show Reg.hiuBar4BaseHi - 4 = Reg.hiuBar4BaseLo from rfl,
      regWrite_hiuBar4BaseHi, regWrite_hiuBar4BaseLo]
    exact ⟨_, rfl, rd_wr_same _ _ _, stagedHalf_setStaged s _ _ none,
      ((RegsOnly.refl s _).setStaged _ _ _).wr _ _ (by simp) (by decide) (by decide)⟩
  | none =>
    rw [dwordWrite_hi_alone s _ v hi rfl h, regWrite_hiuBar4BaseHi]
    exact ⟨s, rfl, rfl, h, RegsOnly.refl s _⟩

/-- Settles O32: the low half is staged, and the write of the high half stores both. -/
theorem bar4BaseIsWrittenAsAPair : Obligations.Bar4BaseIsWrittenAsAPair := by
  intro s v hs
  constructor
  · have only : RegsOnly s _ [] := (RegsOnly.refl s []).setStaged .host Reg.hiuBar4BaseLo (some v)
    obtain ⟨hregs, hunits, hpins⟩ := only.frame
    exact ⟨_, (exec_pairLowWrite_host s _ 15 v hs).trans (next_after (bar0Write_hiuBar4BaseLo s v)), hregs, hunits, hpins,
      (only.stagedHalf_after _ _).trans (stagedHalf_setStaged s _ _ _)⟩
  · obtain ⟨u, effect, hlo, hstaged, low⟩ := bar0Write_hiuBar4BaseHi s v
    have only := low.wr Reg.hiuBar4BaseHi v (by simp) (by decide) (by decide)
    obtain ⟨hregs, hunits, hpins⟩ := only.frame
    refine ⟨_, (exec_pairHighWrite_host s _ 15 v hs).trans (next_after effect), ?_, ?_, hregs, hunits, hpins, ?_⟩
    · rw [only.rd_after _ (by decide), rd_wr_same]
    · rw [only.rd_after _ (by decide), rd_wr_ne _ _ _ _ (by decide), hlo]
    · rw [only.stagedHalf_after]
      exact hstaged

end Sys2Proof.Machine
end

section
/-!
The statement on narrow writes: what an error of HIU_ERR sets and captures (R102 to R104), and which writes end in one.
-/

namespace Sys2Proof.Machine

/-! ### Errors of the host interface -/

/-- The capture of an error: its address, and its byte enables with the space (R104). -/
def hiuErrCapture (s : State) (addr be space : Nat) : State :=
  wrN (wrN s Reg.hiuErrAddrLo (addr % 2 ^ 32)) Reg.hiuErrAddrHi (be % 16 * 16 + space % 4)

/-- An error captures if HIU_ERR was 0, and then sets its bit. -/
theorem hiuErr_eq (s : State) (b addr be space : Nat) :
    hiuErr s b addr be space = setEv (if rd s Reg.hiuErr = 0 then hiuErrCapture s addr be space else s) Reg.hiuErr b :=
  captureErr_eq s Reg.hiuErr b _

/-- An error changes HIU_ERR and its capture alone. -/
theorem hiuErr_regsOnly (s : State) (b addr be space : Nat) :
    RegsOnly s (hiuErr s b addr be space) [Reg.hiuErr, Reg.hiuErrAddrLo, Reg.hiuErrAddrHi] := by
  rw [hiuErr_eq]
  refine RegsOnly.setEv ?_ _ b (by simp) (by decide) (by decide)
  split
  · exact ((RegsOnly.refl s _).wr _ _ (by simp) (by decide) (by decide)).wr _ _ (by simp) (by decide) (by decide)
  · exact RegsOnly.refl s _

theorem rd_hiuErr_bits (s : State) (b addr be space : Nat) :
    rd (hiuErr s b addr be space) Reg.hiuErr = rd s Reg.hiuErr ||| BitVec.ofNat 32 (2 ^ b) := by
  rw [hiuErr_eq, rd_setEv, if_pos rfl]
  split
  · rw [hiuErrCapture, rd_wrN, if_neg (by decide), rd_wrN, if_neg (by decide)]
  · rfl

/-- The first error captures its address, byte enables and space. -/
theorem rd_hiuErr_captured (s : State) (b addr be space : Nat) (h : rd s Reg.hiuErr = 0) (hbe : be < 16) (hsp : space < 4) :
    rd (hiuErr s b addr be space) Reg.hiuErrAddrLo = BitVec.ofNat 32 addr ∧
      rd (hiuErr s b addr be space) Reg.hiuErrAddrHi = BitVec.ofNat 32 (be * 16 + space) := by
  rw [hiuErr_eq, if_pos h, rd_setEv, if_neg (by decide), rd_setEv, if_neg (by decide), hiuErrCapture, rd_wrN, if_neg (by decide),
    rd_wrN, if_pos rfl, rd_wrN, if_pos rfl, Nat.mod_eq_of_lt hbe, Nat.mod_eq_of_lt hsp]
  exact ⟨BitVec.eq_of_toNat_eq (by simp), rfl⟩

/-- A later one leaves the capture as it was. -/
theorem rd_hiuErr_kept (s : State) (b addr be space : Nat) (h : rd s Reg.hiuErr ≠ 0) :
    rd (hiuErr s b addr be space) Reg.hiuErrAddrLo = rd s Reg.hiuErrAddrLo ∧
      rd (hiuErr s b addr be space) Reg.hiuErrAddrHi = rd s Reg.hiuErrAddrHi := by
  rw [hiuErr_eq, if_neg h, rd_setEv, if_neg (by decide), rd_setEv, if_neg (by decide)]
  exact ⟨rfl, rfl⟩

/-! ### Narrow writes -/

/-- A narrow write of BAR0 is discarded with NARROW_WRITE (R18, R103). -/
theorem bar0Write_narrow (s : State) (off be : Nat) (v : Word) (hready : ready s = true) (hbe : be ≠ 15) :
    bar0Write s off be v = hiuErr s 0 off be 0 := by
  simp [bar0Write, liveAt_of_ready s off hready, hbe]

/-- A narrow doorbell is discarded with BAR2_NARROW (R92, R103). -/
theorem doorbellGate_narrow (s : State) (ring off be kind : Nat) (v : Word) (f : State → State) (hready : ready s = true)
    (hd : hostDropped s = false) (hbe : be ≠ 15) : doorbellGate s ring off be kind v f = hiuErr s 1 (ring * 0x1000 + off) be 1 := by
  simp [doorbellGate, hready, hd, hbe]

theorem sqDoorbell_narrow (s : State) (ring be : Nat) (v : Word) (hready : ready s = true) (hd : hostDropped s = false)
    (hbe : be ≠ 15) : sqDoorbell s ring be v = hiuErr s 1 (ring * 0x1000 + 0) be 1 := by
  rw [sqDoorbell, doorbellGate_narrow s ring 0 be 0 v _ hready hd hbe]

theorem cqRelease_narrow (s : State) (ring be : Nat) (v : Word) (hready : ready s = true) (hd : hostDropped s = false)
    (hbe : be ≠ 15) : cqRelease s ring be v = hiuErr s 1 (ring * 0x1000 + 4) be 1 := by
  rw [cqRelease, doorbellGate_narrow s ring 4 be 1 v _ hready hd hbe]

/-- So is a narrow write of any other dword of a doorbell page. -/
theorem pageWrite_narrow (s : State) (ring dw be : Nat) (v : Word) (hready : ready s = true) (hd : hostDropped s = false)
    (hbe : be ≠ 15) : pageWrite s ring dw be v = hiuErr s 1 (ring * 0x1000 + 4 * dw) be 1 := by
  match dw with
  | 0 => exact sqDoorbell_narrow s ring be v hready hd hbe
  | 1 => exact cqRelease_narrow s ring be v hready hd hbe
  | dw + 2 => simp [pageWrite, hready, hd, hbe]

theorem exec_broadcastWrite (s : State) (off : BitVec 20) (be : BitVec 4) (v : Word) (h : HostServes s) :
    exec (.broadcastWrite off be v) s = .next (after s (bar0Write s (0xA00000 + off.toNat / 4 * 4) be.toNat v)) :=
  viaHiu_now _ (fun u => bar0Write u (0xA00000 + off.toNat / 4 * 4) be.toNat v) s h

/-- SQ_DOORBELL of one dword. -/
theorem exec_sqDoorbell_dword (s : State) (ring : Fin 64) (dw : Fin 1024) (be : BitVec 4) (v : Word) (h : HostServes s) :
    exec (.sqDoorbell ring dw [(be, v)]) s = .next (after s (pageWrite s ring.val dw.val be.toNat v)) := by
  have hp : payloadBytes (.sqDoorbell ring dw [(be, v)]) ≤ maxPayload s := four_le_maxPayload s
  refine (viaHiu_now _ _ s h).trans ?_
  rw [ifPayloadFits, if_pos hp]
  rfl

theorem exec_cqRelease (s : State) (ring : Fin 64) (be : BitVec 4) (v : Word) (h : HostServes s) :
    exec (.cqRelease ring be v) s = .next (after s (cqRelease s ring.val be.toNat v)) :=
  viaHiu_now _ (fun u => cqRelease u ring.val be.toNat v) s h

/-- Settles O33: each of the writes ends in the error of its space, whose bit, capture and frame are those of hiuErr. -/
theorem narrowWritesAreDiscarded : Obligations.NarrowWritesAreDiscarded := by
  intro s be v hs hready hbe off c o b space hc
  have hn : be.toNat ≠ 15 := fun e => hbe (BitVec.eq_of_toNat_eq e)
  obtain ⟨hspace, effect⟩ : space < 4 ∧ exec c s = .next (after s (hiuErr s b o be.toNat space)) := by
    rcases hc with ⟨rfl, rfl, rfl, rfl⟩ | ⟨rfl, rfl, rfl, rfl⟩ | ⟨hd, rfl, rfl, ring, ⟨dw, rfl, rfl⟩ | ⟨rfl, rfl⟩⟩
    · exact ⟨by decide, (exec_registerWrite_dword s off be v hs).trans (next_after (bar0Write_narrow s _ _ v hready hn))⟩
    · exact ⟨by decide, (exec_broadcastWrite s _ be v hs).trans (next_after (bar0Write_narrow s _ _ v hready hn))⟩
    · exact ⟨by decide, (exec_sqDoorbell_dword s ring dw be v hs).trans (next_after (pageWrite_narrow s _ _ _ v hready hd hn))⟩
    · exact ⟨by decide, (exec_cqRelease s ring be v hs).trans (next_after (cqRelease_narrow s _ _ v hready hd hn))⟩
  have only := hiuErr_regsOnly s b o be.toNat space
  obtain ⟨hregs, hunits, hpins⟩ := only.frame
  refine ⟨_, effect, ?_, fun h0 => ?_, fun h0 => ?_, hregs, hunits, hpins⟩
  · rw [only.rd_after _ (by decide), rd_hiuErr_bits]
  · rw [only.rd_after _ (by decide), only.rd_after _ (by decide)]
    exact rd_hiuErr_captured s b o be.toNat space h0 be.isLt hspace
  · rw [only.rd_after _ (by decide), only.rd_after _ (by decide)]
    exact rd_hiuErr_kept s b o be.toNat space h0

end Sys2Proof.Machine
end

section
/-!
The statements that each command of the host interface and each command of power, clocks and power states completes with
its own effect: one rule per way in which a command is answered, applied row by row.
-/

namespace Sys2Proof.Machine

/-! ### Ways in which a command is answered -/

/-- A write TLP within Max Payload Size acts at once where the HIU serves it (R93). -/
theorem viaHiu_payload (i : Instr) (f : State → State) (s : State) (h : HostServes s) (hp : payloadBytes i ≤ maxPayload s) :
    viaHiu i (ifPayloadFits i f) s = .next (after s (f s)) := by
  rw [viaHiu_now _ _ s h, ifPayloadFits, if_pos hp]

/-- A BAR4 write whose mirror records have room does not wait for them (R540). -/
theorem bar4WriteVia_of_fits (base : Nat) (off : BitVec 32) (bytes : List (Option Byte)) (s : State)
    (hf : bar4Fits s base off.toNat bytes = true) : bar4WriteVia base off bytes s =
      viaHiuAt base (.bar4Write off bytes) (ifPayloadFits (.bar4Write off bytes) fun u => bar4Write u base off.toNat bytes) s := by
  simp [bar4WriteVia, hf]

theorem exec_bar4Write_of_fits (s : State) (off : BitVec 32) (bytes : List (Option Byte)) (h : HostServes s)
    (hf : bar4Fits s (bar4Base s) off.toNat bytes = true) (hp : payloadBytes (.bar4Write off bytes) ≤ maxPayload s) :
    exec (.bar4Write off bytes) s = .next (after s (bar4Write s (bar4Base s) off.toNat bytes)) :=
  (bar4WriteVia_of_fits (bar4Base s) off bytes s hf).trans (viaHiu_payload _ _ s h hp)

theorem exec_bar4Read (s : State) (off : BitVec 32) (len : Fin 4097) (h : HostServes s) :
    exec (.bar4Read off len) s = .next (after s (bar4Read s (bar4Base s) off.toNat len.val)) :=
  viaHiuAt_now _ _ (fun u => bar4Read u (bar4Base s) off.toNat len.val) s h

/-! ### The host interface -/

/-- Settles O1: host requests act at once; a write TLP also has to be within Max Payload Size, a BAR4 write to have room for
its mirror records, and a ring's command to meet a live register. The SPI target and the mirror answer while the units run. -/
theorem hostAccessCommandsComplete : Obligations.HostAccessCommandsComplete := by
  refine ⟨?registerWrite, ?pairLowRead, ?pairLowReadSpit, ?pairHighRead, ?pairHighReadSpit, ?pairLowWrite, ?pairHighWrite,
    ?broadcastWrite, ?bar4Write, ?bar4Read, ?poisonedWrite, ?msixUnmask, ?hiuIrqAck, ?hiuSwint, ?resizableBar, ?sqDoorbell,
    ?cqRelease, ?ringEnable, ?ringDisable, ?mirrorThrottleRelease, ?spitRead, ?spitOtherCommand, ?configurationRequest,
    ?notReadyRead⟩
  case registerWrite => exact fun s h _ _ _ hp => viaHiu_payload _ _ s h hp
  case sqDoorbell => exact fun s h _ _ _ hp => viaHiu_payload _ _ s h hp
  case bar4Write => exact fun s h off bytes hf hp => exec_bar4Write_of_fits s off bytes h hf hp
  case pairLowRead => exact fun s h off be => exec_pairLowRead_host s ⟨off, be⟩ h
  case pairHighRead => exact fun s h off be => exec_pairHighRead_host s ⟨off, be⟩ h
  case pairLowWrite => exact fun s h off be v => exec_pairLowWrite_host s off be v h
  case pairHighWrite => exact fun s h off be v => exec_pairHighWrite_host s off be v h
  case broadcastWrite => exact fun s h off be v => exec_broadcastWrite s off be v h
  case cqRelease => exact fun s h ring be v => exec_cqRelease s ring be v h
  case notReadyRead => exact fun s h space off bes => exec_notReadyRead s space ⟨off, bes⟩ h
  case bar4Read => exact fun s h off len => exec_bar4Read s off len h
  case poisonedWrite => exact fun s h space off be hdr => viaHiu_now _ (poisonedWrite · space.val off.toNat be.toNat hdr) s h
  case msixUnmask => exact fun s h w => viaHiu_now _ (msixUnmaskEffect · w) s h
  case hiuIrqAck => exact fun s h k v => viaHiu_now _ (irqAck · k.val v) s h
  case hiuSwint => exact fun s h v => viaHiu_now _ (swInt · v) s h
  case resizableBar => exact fun s h log2 => viaHiu_now _ (resizableBarEffect · log2) s h
  case configurationRequest => exact fun s h r => viaHiu_now _ (cfgRequest · r) s h
  case ringEnable => exact fun s h _ _ hl => viaHiu_live _ _ _ s h hl
  case ringDisable => exact fun s h _ _ hl => viaHiu_live _ _ _ s h hl
  case pairLowReadSpit => exact fun s h _ _ => clocked_running s _ h
  case pairHighReadSpit => exact fun s h _ _ => clocked_running s _ h
  case mirrorThrottleRelease => exact fun s h => clocked_running s _ h
  case spitRead => exact fun s h _ _ => clocked_running s _ h
  case spitOtherCommand => exact fun s h _ _ => clocked_running s _ h

/-! ### Power, clocks and power states -/

/-- Settles O15: the loops answer in the groomer's domain, the power states' events in that of the HIU, and PMU_PSTATE is
written by a host request. -/
theorem powerCommandsComplete : Obligations.PowerCommandsComplete := by
  refine ⟨?dvfsReevaluate, ?dvfsChangeComplete, ?powerSample, ?thermalSample, ?thermtrip, ?pstateActive, ?pstateStandby,
    ?pstateOff, ?standbyEntry, ?standbyExit, ?offReady⟩
  case dvfsReevaluate => exact fun s h => groomed_running s _ h
  case dvfsChangeComplete => exact fun s h => groomed_running s _ h
  case powerSample => exact fun s h _ => groomed_running s _ h
  case thermalSample => exact fun s h _ => groomed_running s _ h
  case thermtrip => exact fun s h _ => served_running s _ h
  case standbyEntry => exact fun s h => served_running s _ h
  case standbyExit => exact fun s h => served_running s _ h
  case offReady => exact fun s h => served_running s _ h
  case pstateActive => exact fun s h hl => viaHiu_live _ _ _ s h hl
  case pstateStandby => exact fun s h hl => viaHiu_live _ _ _ s h hl
  case pstateOff => exact fun s h hl => viaHiu_live _ _ _ s h hl

end Sys2Proof.Machine
end

section
/-!
The statement on the ranges of the clusters: what a broadcast write reaches, and what a removed cluster answers
(R39 to R41).
-/

namespace Sys2Proof.Machine

section
variable (s : State) (off : Nat) (v : Word)

/-! ### The broadcast range -/

/-- Of a live broadcast range, a whole dword is stored in each cluster in service (R39, R41). -/
theorem bar0Write_broadcast (hl : liveAt s off = true) (hb : inBroadcast off = true) :
    bar0Write s off 15 v = broadcastStore s off v := by
  simp [bar0Write, hl, hb]

/-- The broadcast range repeats each cluster's offsets. -/
theorem broadcastAt_rel (c rel : Nat) : broadcastAt c (0xA00000 + rel) = 0x1000000 + c * 0x100000 + rel := by
  unfold broadcastAt; omega

theorem inBroadcast_rel (rel : Nat) (h : rel < 0x100000) : inBroadcast (0xA00000 + rel) = true := by
  simp only [inBroadcast, Bool.and_eq_true, decide_eq_true_eq]; omega

/-- A broadcast write, from its offset in the range, cluster by cluster. -/
theorem broadcastStore_rel (rel : Nat) : broadcastStore s (0xA00000 + rel) v =
    (clustersInService s).foldl (fun u c => dwordWrite u (0x1000000 + c * 0x100000 + rel) v) s := by
  simp only [broadcastStore, broadcastAt_rel]

theorem broadcastStore_noCluster (h : clustersInService s = []) : broadcastStore s off v = s := by
  rw [broadcastStore, h, List.foldl_nil]

/-- BROADCAST_WRITE of a whole dword, once BAR0 is live there. -/
theorem exec_broadcastWrite_dword (rel : BitVec 20) (h : HostServes s) (hready : ready s = true) :
    exec (.broadcastWrite rel 15 v) s = .next (after s (broadcastStore s (0xA00000 + rel.toNat / 4 * 4) v)) :=
  have hb := inBroadcast_rel (rel.toNat / 4 * 4) (by omega)
  (exec_broadcastWrite s rel 15 v h).trans (next_after (bar0Write_broadcast s _ v (liveAt_of_ready s _ hready) hb))

/-! ### Removed clusters -/

/-- The clusters' own ranges lie outside the broadcast range. -/
theorem noBroadcast_of_removed (h : inRemovedCluster s off = true) : inBroadcast off = false := by
  simp only [inRemovedCluster, Bool.and_eq_true, decide_eq_true_eq] at h
  obtain ⟨⟨hlow, -⟩, -⟩ := h
  have : ¬ off < 0xB00000 := by omega
  simp only [inBroadcast, this, decide_false, Bool.and_false]

theorem dwordWrite_removed (h : inRemovedCluster s off = true) : dwordWrite s off v = s := by
  simp [dwordWrite, h]

theorem pathRead_removed (path : Path) (h : inRemovedCluster s off = true) : pathRead s path off = (s, 0) :=
  pathRead_unreached s path off (noBroadcast_of_removed s off h) (by rw [h, Bool.true_or])

end

/-- Settles O26: the broadcast write is the fold of broadcastStore, and a removed cluster is out of reach of a dword. -/
theorem clusterRangesFollowTheMap : Obligations.ClusterRangesFollowTheMap := by
  refine ⟨fun s off v hs hready => ⟨?_, fun hnone => ?_⟩, fun s off hs ha hl hr => ⟨fun v => ?_, ?_⟩⟩
  · rw [exec_broadcastWrite_dword s v off hs hready, broadcastStore_rel]
  · rw [exec_broadcastWrite_dword s v off hs hready, broadcastStore_noCluster s _ v hnone]
  · rw [exec_registerWrite_aligned s off v hs ha hl (noBroadcast_of_removed s _ hr), dwordWrite_removed s _ v hr]
  · rw [exec_bar0_read_dword s off hs ha, bar0Read_live s _ 15 hl (by decide), pathRead_removed s _ .host hr]
    rfl

end Sys2Proof.Machine
end

section
/-!
The statements on the line timebase: its commands complete with their own effects, what an event of a source makes of LT
(R52), and that LT stands while LTB_CTRL.ENABLE is 0 (R712).
-/

namespace Sys2Proof.Machine

/-! ### Completion -/

/-- Settles O19: on an empty queue the block idles, and idle is clocked. -/
theorem emptyQueuePassesOneCycle : Obligations.EmptyQueuePassesOneCycle := by
  intro s hq
  have hidle : step s = clocked s (coreTick s) := by
    rw [step, hq]
    rfl
  rw [hidle]
  rfl

theorem exec_lineEvent (s : State) (src : Fin 11) (h : running s = true) :
    exec (.lineEvent src) s = .next (after s (if src.val = 9 then s else sourceLine s src.val)) := clocked_running s _ h

theorem exec_frameEvent (s : State) (src : Fin 11) (h : running s = true) :
    exec (.frameEvent src) s = .next (after s (frameEventEffect s src)) := clocked_running s _ h

theorem exec_synthesisedLineEvent_lt (s : State) (h : running s = true) :
    exec (.synthesisedLineEvent none) s = .next (after s (ltSynthLine s)) := clocked_running s _ h

theorem exec_synthesisedLineEvent_pos (s : State) (k : Fin 11) (h : running s = true) :
    exec (.synthesisedLineEvent (some k)) s = .next (after s (posSynthLine s k)) := clocked_running s _ h

theorem exec_sourceLost (s : State) (h : running s = true) :
    exec .sourceLost s = .next (after s (if ltbLossDue s then ltbLose s else s)) := clocked_running s _ h

theorem exec_sourceRecovered (s : State) (h : running s = true) :
    exec .sourceRecovered s = .next (after s (ltbRecover s)) := clocked_running s _ h

theorem exec_lossToleranceExpiry (s : State) (h : running s = true) :
    exec .lossToleranceExpiry s = .next (after s (ltbToleranceExpiry s)) := clocked_running s _ h

/-- Settles O2: the events of the LTB are clocked, and its two registers are written by host requests. -/
theorem lineTimeCommandsComplete : Obligations.LineTimeCommandsComplete := by
  refine ⟨?lineEvent, ?frameEvent, ?synthesisedLt, ?synthesisedPos, ?sourceLost, ?sourceRecovered, ?ltbSrcWrite, ?ltbEnable,
    ?lsyncOutEnd, ?fsyncOutEnd, ?lossToleranceExpiry⟩
  case lineEvent => exact fun s h src => exec_lineEvent s src h
  case frameEvent => exact fun s h src => exec_frameEvent s src h
  case synthesisedLt => exact fun s h => exec_synthesisedLineEvent_lt s h
  case synthesisedPos => exact fun s h k => exec_synthesisedLineEvent_pos s k h
  case sourceLost => exact fun s h => exec_sourceLost s h
  case sourceRecovered => exact fun s h => exec_sourceRecovered s h
  case lossToleranceExpiry => exact fun s h => exec_lossToleranceExpiry s h
  case lsyncOutEnd => exact fun s h => clocked_running s _ h
  case fsyncOutEnd => exact fun s h => clocked_running s _ h
  case ltbSrcWrite => exact fun s h _ hl => viaHiu_live _ _ _ s h hl
  case ltbEnable => exact fun s h _ hl => viaHiu_live _ _ _ s h hl

/-! ### What LT is made of -/

/-- What decides where LT stands and whether it follows its source: the LTB but for measurement, loss counters, sync pins
and source positions; and LTB_CTRL. -/
structure LtView where
  frame : Nat
  line : Nat
  elapsed : Rat
  fracFloor : Nat
  active : Nat
  pendingSrc : Option Nat
  flywheel : Flywheel
  resumeHold : Bool
  twinHold : Bool
  ctrl : Word

/-- That part of a state. -/
def ltView (s : State) : LtView :=
  { frame := s.ltb.frame, line := s.ltb.line, elapsed := s.ltb.elapsed, fracFloor := s.ltb.fracFloor, active := s.ltb.active
    pendingSrc := s.ltb.pendingSrc, flywheel := s.ltb.flywheel, resumeHold := s.ltb.resumeHold, twinHold := s.ltb.twinHold
    ctrl := rd s Reg.ltbCtrl }

/-- The view at the start of a line: no time has passed in it. -/
def LtView.lineStart (v : LtView) (frame line : Nat) : LtView :=
  { v with frame := frame, line := line, elapsed := 0, fracFloor := 0 }

section
variable {s t : State}

theorem ltbEnabled_of_view (h : ltView t = ltView s) : ltbEnabled t = ltbEnabled s :=
  congrArg (fun v : LtView => bit v.ctrl 0) h

theorem ltFollows_of_view (h : ltView t = ltView s) : ltFollows t = ltFollows s := by
  have hfly : t.ltb.flywheel = s.ltb.flywheel := congrArg LtView.flywheel h
  have hresume : t.ltb.resumeHold = s.ltb.resumeHold := congrArg LtView.resumeHold h
  have hhold : t.ltb.twinHold = s.ltb.twinHold := congrArg LtView.twinHold h
  rw [ltFollows, ltFollows, ltbEnabled_of_view h, hfly, hresume, hhold]

/-- While LTB_CTRL.ENABLE is 0, FRAC depends on no time and no period. -/
theorem ltFrac_of_disabled (h : ltbEnabled s = false) : ltFrac s = if s.ltb.twinHold then 0xFFFF else s.ltb.fracFloor := by
  simp [ltFrac, h]

theorem ltNow_of_disabled (h : ltView t = ltView s) (he : ltbEnabled s = false) : ltNow t = ltNow s := by
  have hframe : t.ltb.frame = s.ltb.frame := congrArg LtView.frame h
  have hline : t.ltb.line = s.ltb.line := congrArg LtView.line h
  have hfloor : t.ltb.fracFloor = s.ltb.fracFloor := congrArg LtView.fracFloor h
  have hhold : t.ltb.twinHold = s.ltb.twinHold := congrArg LtView.twinHold h
  rw [ltNow, ltNow, ltFrac_of_disabled he, ltFrac_of_disabled ((ltbEnabled_of_view h).trans he), hframe, hline, hfloor, hhold]

/-- LTB_CTRL.ENABLE is 1, and no flywheel and no hold stands, where LT follows its source. -/
theorem ltFollows_iff : ltFollows s = true ↔
    ltbEnabled s = true ∧ s.ltb.flywheel = .none ∧ s.ltb.resumeHold = false ∧ s.ltb.twinHold = false := by
  simp [ltFollows, and_assoc]

/-- At the start of a line LT reads as its frame and line with FRAC 0, whatever the period (R52). -/
theorem lt_at_lineStart {v : LtView} {frame line : Nat} (h : ltView s = v.lineStart frame line) (hv : v.twinHold = false) :
    s.ltb.line = line ∧ s.ltb.frame = frame ∧ ltFrac s = 0 := by
  have he : s.ltb.elapsed = 0 := congrArg LtView.elapsed h
  have hf : s.ltb.fracFloor = 0 := congrArg LtView.fracFloor h
  have ht : s.ltb.twinHold = false := (congrArg LtView.twinHold h).trans hv
  exact ⟨congrArg LtView.line h, congrArg LtView.frame h, by simp [ltFrac, he, hf, ht, fracOf]⟩

end

/-! ### What leaves the view as it was -/

section
variable (s : State)

theorem ltView_foldl {α : Type} (f : State → α → State) (l : List α) (h : ∀ u, ∀ a ∈ l, ltView (f u a) = ltView u) :
    ltView (l.foldl f s) = ltView s :=
  List.foldlRecOn (motive := fun u => ltView u = ltView s) l f rfl fun u hu a ha => (h u a ha).trans hu

theorem ltView_ite {s a b : State} (p : Prop) [Decidable p] (ha : ltView a = ltView s) (hb : ltView b = ltView s) :
    ltView (if p then a else b) = ltView s := by
  split
  · exact ha
  · exact hb

theorem ltView_wr (off : Nat) (v : Word) (h : off ≠ Reg.ltbCtrl) : ltView (wr s off v) = ltView s := by
  simp only [ltView, wr_ltb, rd_wr_ne s off _ v h.symm]

theorem ltView_wrN (off v : Nat) (h : off ≠ Reg.ltbCtrl) : ltView (wrN s off v) = ltView s := ltView_wr s off _ h

theorem ltView_setEv (off b : Nat) (h : off ≠ Reg.ltbCtrl) : ltView (setEv s off b) = ltView s := ltView_wr s off _ h

/-! The pads -/

theorem ltView_pinFlags : ltView (pinFlags s) = ltView s := by
  have hconflict : ∀ u c, ltView (wrN u Reg.pinConflict c) = ltView u := fun u c => ltView_wr u _ _ (by decide)
  have hevent : ∀ u b, ltView (setEv u Reg.pinEvents b) = ltView u := fun u b => ltView_setEv u _ b (by decide)
  unfold pinFlags
  dsimp only
  split <;> split <;> simp only [hevent, hconflict] <;> rfl

theorem ltView_pinShow (k : Nat) : ltView (pinShow s k) = ltView s := by
  have hedge : ∀ u, ltView (setEv u (Reg.pinEdge (k / 8)) (k % 8)) = ltView u := fun u =>
    ltView_setEv u _ _ (by simp only [Reg.pinEdge, Reg.ltbCtrl]; omega)
  exact ltView_ite _ rfl (ltView_ite _ (hedge _) rfl)

/-- The input functions move the recognised levels of the sync inputs, and nothing of LT. -/
theorem ltView_fnSettle : ltView (fnSettle s) = ltView s := ltView_wr (onTwin s _) Reg.hltTwinStatus _ (by decide)

theorem ltView_pinEvaluate : ltView (pinEvaluate s) = ltView s := by
  unfold pinEvaluate
  dsimp only
  rw [ltView_fnSettle, ltView_foldl _ _ _ fun u k _ => ltView_pinShow u k]
  split <;> exact ltView_pinFlags s

theorem ltView_padFollow (t : State) : ltView (padFollow s t) = ltView t := by
  unfold padFollow pinSettle
  split
  · rfl
  · exact ltView_ite _ (ltView_pinEvaluate t) rfl

theorem ltView_irqSettle : ltView (irqSettle s) = ltView s := by
  simp only [ltView, irqSettle_ltb, rd_irqSettle_above s Reg.ltbCtrl (by decide)]

theorem ltView_conSettle : ltView (conSettle s) = ltView s := rfl

theorem ltView_confine (t : State) : ltView (confine s t) = ltView t := rfl

/-- The end of a cycle leaves LT as the command's effect has it. -/
theorem ltView_after (t : State) : ltView (after s t) = ltView t := by
  rw [after, ltView_confine, cycleEnd, ltView_conSettle, ltView_irqSettle, ltView_padFollow]

/-! Real events -/

theorem ltView_noteReal (src : Nat) (isFrame : Bool) : ltView (noteReal s src isFrame) = ltView s := by
  unfold noteReal
  dsimp only
  split
  · rfl
  · split <;> rfl

theorem ltView_measureLt : ltView (measureLt s) = ltView s := rfl

theorem ltView_layerFrameStart (n : Nat) : ltView (layerFrameStart s n) = ltView s := rfl

theorem ltView_toggleAlive : ltView (toggleAlive s) = ltView s := rfl

/-- What each line brings beside LT itself. -/
theorem ltView_lineEffects (frameEvent : Bool) : ltView (lineEffects s frameEvent) = ltView s := by
  unfold lineEffects
  dsimp only
  split <;> rfl

theorem ltView_refillBudgets : ltView (refillBudgets s) = ltView s := by
  refine ltView_foldl s _ _ fun u c hc => ?_
  have hlt : c < 128 := List.mem_range.mp hc
  split
  · exact ltView_wr u _ _ (by simp only [Reg.conBudget, Reg.ltbCtrl]; omega)
  · rfl

/-! ### Lines and frames of LT -/

/-- A frame starts: the holds of LT end with it (R52, R74, R712). -/
theorem ltView_ltStartFrame (frame : Nat) : ltView (ltStartFrame s frame) =
    { (ltView s).lineStart (frame % 2 ^ 32) 0 with resumeHold := false, twinHold := false } := by
  unfold ltStartFrame
  dsimp only
  rw [ltView_lineEffects, ltView_toggleAlive, ltView_refillBudgets]
  rfl

/-- A frame event of the followed source: FRAME + 1, LINE 0, FRAC 0 (R52). -/
theorem ltView_ltFrame (real : Bool) : ltView (ltFrame s real) =
    { (ltView s).lineStart ((s.ltb.frame + 1) % 2 ^ 32) 0 with resumeHold := false, twinHold := false } := by
  unfold ltFrame
  dsimp only
  rw [ltView_ltStartFrame]
  split
  · rw [ltView_setEv _ _ _ (by decide), nextFrame, Nat.mod_mod]
    rfl
  · rw [nextFrame, Nat.mod_mod]

/-- A line event of LT below line 0xFFFF: LINE + 1, FRAC 0 (R52). -/
theorem ltView_ltLine (h : s.ltb.line < 0xFFFF) :
    ltView (ltLine s) = (ltView s).lineStart s.ltb.frame (s.ltb.line + 1) := by
  unfold ltLine
  dsimp only
  rw [if_neg (by omega), ltView_lineEffects]
  split
  · exact ltView_setEv _ _ _ (by decide)
  · rfl

end

/-! ### Events of the source that LT follows -/

/-- A camera's frame event is that of its source, beside the port's registers and LAYERs. -/
theorem ltView_camFrame (s : State) (n : Nat) : ltView (camFrame s n) = ltView (sourceFrame s (4 + n) none) := by
  unfold camFrame
  dsimp only
  rw [ltView_layerFrameStart, wr64, ltView_wrN _ _ _ (by simp only [Reg.csiFsLtLo, Reg.ltbCtrl]; omega),
    ltView_wrN _ _ _ (by simp only [Reg.csiFsLtLo, Reg.ltbCtrl]; omega)]

/-- The frame event of a source, a camera's with its own registers and its LAYERs. -/
theorem ltView_frameEventEffect (s : State) (src : Fin 11) : ∃ u, u.ltb = s.ltb ∧ ltView u = ltView s ∧
    ltView (frameEventEffect s src) = ltView (sourceFrame u src.val none) := by
  unfold frameEventEffect
  split
  · next hcam =>
    have hsrc : 4 + (src.val - 4) = src.val := by omega
    refine ⟨onCam s (src.val - 4) fun p => { p with started := true }, rfl, rfl, ?_⟩
    rw [ltView_camFrame, hsrc]
  · exact ⟨s, rfl, rfl, rfl⟩

section
variable {s : State} {src : Nat}

theorem srcProceeds_notHeld (s : State) : srcProceeds false s = s := by simp [srcProceeds]

/-- LT's source and its holds, as far as they decide what an event of a source does. -/
theorem follows_of_view {u : State} (hv : ltView u = ltView s) (ha : s.ltb.active = src) (hf : ltFollows s = true) :
    u.ltb.active = src ∧ ltbEnabled u = true ∧ u.ltb.flywheel = .none ∧ u.ltb.resumeHold = false ∧ u.ltb.twinHold = false :=
  ⟨(congrArg LtView.active hv).trans ha, ltFollows_iff.mp ((ltFollows_of_view hv).trans hf)⟩

/-- A line event of the source that LT follows is a line event of LT, once it is noted and measured. -/
theorem ltbLineEvent_followed (ha : s.ltb.active = src) (hf : ltFollows s = true) :
    ltbLineEvent s src = ltLine (measureLt (noteReal s src false)) := by
  have hv : ltView (measureLt (noteReal s src false)) = ltView s := ltView_noteReal s src false
  obtain ⟨hactive, -, hfly, -, -⟩ := follows_of_view (ltView_noteReal s src false) ha hf
  obtain ⟨-, henabled, -, -, hhold⟩ := follows_of_view hv ha hf
  unfold ltbLineEvent
  dsimp only
  rw [if_pos ⟨hactive.symm, hfly⟩, henabled, hhold, (ltFollows_of_view hv).trans hf]
  rfl

/-- A source's frame event as the LTB counts it: noted for loss and recovery, and measured where it is a line's start or
EXT_F's edge (R55, R78, R80). -/
def frameNoted (s : State) (src : Nat) : State :=
  if srcInLines src || decide (src = 9) then measureLt (noteReal s src true) else noteReal s src true

theorem ltView_frameNoted (s : State) (src : Nat) : ltView (frameNoted s src) = ltView s :=
  ltView_ite _ (ltView_noteReal s src true) (ltView_noteReal s src true)

/-- A frame event of the source that LT follows, taken by no pending switch and no re-lock, is a frame event of LT. -/
theorem ltbFrameEvent_followed (ha : s.ltb.active = src) (hf : ltFollows s = true) (hp : s.ltb.pendingSrc ≠ some src)
    (hl : ∀ x ∈ s.ltb.losts, x.src ≠ src) : ltbFrameEvent s [src] = ltFrame (frameNoted s src) true := by
  have hback : (s.ltb.losts.find? fun x => x.recovered && [src].contains x.src) = none :=
    List.find?_eq_none.mpr fun x hx => by simp [hl x hx]
  obtain ⟨hactive, -, hfly, -, -⟩ := follows_of_view (ltView_noteReal s src true) ha hf
  have hview := ltView_frameNoted s src
  obtain ⟨-, henabled, -, hresume, hhold⟩ := follows_of_view hview ha hf
  have hpending : (frameNoted s src).ltb.pendingSrc ≠ some src := fun e => hp ((congrArg LtView.pendingSrc hview).symm.trans e)
  have hswitch : ([src].find? fun k => decide ((frameNoted s src).ltb.pendingSrc = some k)) = none := by simp [hpending]
  have hmine : [src].contains src = true := by simp
  unfold ltbFrameEvent
  dsimp only
  rw [hback, List.foldl_cons, List.foldl_nil, hactive, hfly, hmine]
  simp only [decide_true, Bool.true_and]
  rw [← frameNoted, henabled, hresume, hhold, hswitch]
  simp only [Bool.not_true, Bool.false_eq_true, if_false, srcProceeds_notHeld]

/-- A line event of the source that LT follows starts the next line (R52). -/
theorem ltView_sourceLine_followed (ha : s.ltb.active = src) (hf : ltFollows s = true) (hline : s.ltb.line < 0xFFFF) :
    ltView (sourceLine s src) = (ltView s).lineStart s.ltb.frame (s.ltb.line + 1) := by
  have hview : ltView (measureLt (noteReal (posLine s src true) src false)) = ltView s :=
    ltView_noteReal (posLine s src true) src false
  have hl : (measureLt (noteReal (posLine s src true) src false)).ltb.line = s.ltb.line := congrArg LtView.line hview
  have hfr : (measureLt (noteReal (posLine s src true) src false)).ltb.frame = s.ltb.frame := congrArg LtView.frame hview
  rw [sourceLine, ltbLineEvent_followed (s := posLine s src true) ha hf, ltView_ltLine _ (hl ▸ hline), hview, hl, hfr]

/-- A frame event of the source that LT follows starts the next frame (R52). -/
theorem ltView_sourceFrame_followed (ha : s.ltb.active = src) (hf : ltFollows s = true) (hp : s.ltb.pendingSrc ≠ some src)
    (hl : ∀ x ∈ s.ltb.losts, x.src ≠ src) : ltView (sourceFrame s src none) =
      { (ltView s).lineStart ((s.ltb.frame + 1) % 2 ^ 32) 0 with resumeHold := false, twinHold := false } := by
  have hview : ltView (frameNoted (posFrame s src none) src) = ltView s := ltView_frameNoted (posFrame s src none) src
  have hfr : (frameNoted (posFrame s src none) src).ltb.frame = s.ltb.frame := congrArg LtView.frame hview
  rw [sourceFrame, ltbFrameEvent_followed (s := posFrame s src none) ha hf hp hl, ltView_ltFrame, hview, hfr]

end

/-- Settles O45: the event of the followed source starts a line or a frame, and the end of the cycle leaves LT there. -/
theorem lineEventAdvancesLt : Obligations.LineEventAdvancesLt := by
  intro s src hrun hactive hfollows
  refine ⟨fun hextf hline => ?_, fun hpending hlosts => ?_⟩
  · have hview := (ltView_after s _).trans (ltView_sourceLine_followed hactive hfollows hline)
    obtain ⟨-, -, -, hhold⟩ := ltFollows_iff.mp hfollows
    exact ⟨_, (exec_lineEvent s src hrun).trans (next_after (if_neg hextf)), lt_at_lineStart hview hhold⟩
  · obtain ⟨u, hltb, hu, heffect⟩ := ltView_frameEventEffect s src
    have hframe := ltView_sourceFrame_followed (hltb ▸ hactive) ((ltFollows_of_view hu).trans hfollows) (hltb ▸ hpending)
      (hltb ▸ hlosts)
    rw [hu, hltb] at hframe
    have hview := ((ltView_after s _).trans heffect).trans hframe
    exact ⟨_, exec_frameEvent s src hrun,
      lt_at_lineStart (v := { ltView s with resumeHold := false, twinHold := false }) hview rfl⟩

/-! ### LT while it is disabled -/

/-- A synthesised line of a source position is none of LT. -/
theorem ltView_posSynthLine (s : State) (k : Nat) : ltView (posSynthLine s k) = ltView s := by
  unfold posSynthLine
  refine ltView_ite _ rfl (ltView_ite _ rfl (ltView_ite _ ?_ rfl))
  exact ltView_ite _ rfl (ltView_ite _ rfl (ltView_ite _ rfl rfl))

section
variable {s : State} (he : ltbEnabled s = false)
include he

theorem noteReal_of_disabled (src : Nat) (isFrame : Bool) : noteReal s src isFrame = s := by simp [noteReal, he]

theorem ltView_ltbLineEvent_of_disabled (src : Nat) : ltView (ltbLineEvent s src) = ltView s := by
  have hm : ltbEnabled (measureLt s) = false := he
  simp only [ltbLineEvent, noteReal_of_disabled he, hm, Bool.not_false, if_true]
  exact ltView_ite _ (ltView_measureLt s) rfl

theorem ltView_sourceLine_of_disabled (src : Nat) : ltView (sourceLine s src) = ltView s :=
  ltView_ltbLineEvent_of_disabled (s := posLine s src true) he src

theorem ltView_ltbFrameEvent_of_disabled (src : Nat) : ltView (ltbFrameEvent s [src]) = ltView s := by
  have hm : ltbEnabled (measureLt s) = false := he
  unfold ltbFrameEvent
  dsimp only
  rw [List.foldl_cons, List.foldl_nil, noteReal_of_disabled he]
  split <;> simp only [he, hm, Bool.not_false, if_true]
  rfl

theorem ltView_frameEventEffect_of_disabled (src : Fin 11) : ltView (frameEventEffect s src) = ltView s := by
  obtain ⟨u, -, hu, heffect⟩ := ltView_frameEventEffect s src
  have hdisabled : ltbEnabled (posFrame u src.val none) = false := (ltbEnabled_of_view hu).trans he
  exact (heffect.trans (ltView_ltbFrameEvent_of_disabled hdisabled src.val)).trans hu

theorem ltSynthLine_of_disabled : ltSynthLine s = s := by simp [ltSynthLine, he]

theorem ltbLossDue_of_disabled : ltbLossDue s = false := by simp [ltbLossDue, he]

theorem ltbRecover_of_disabled : ltbRecover s = s := by simp [ltbRecover, he]

theorem ltbToleranceExpiry_of_disabled : ltbToleranceExpiry s = s := by simp [ltbToleranceExpiry, he]

end

/-- Settles O46: the effect of each of the commands leaves LT as it was, and so does the end of the cycle. -/
theorem ltHoldsWhileDisabled : Obligations.LtHoldsWhileDisabled := by
  intro s c hrun he hc
  suffices hkeeps : ∃ u, exec c s = .next (after s u) ∧ ltView u = ltView s by
    obtain ⟨u, hexec, hview⟩ := hkeeps
    exact ⟨_, hexec, ltNow_of_disabled ((ltView_after s u).trans hview) he⟩
  rcases hc with ⟨src, rfl⟩ | ⟨src, rfl⟩ | ⟨pos, rfl⟩ | rfl | rfl | rfl
  · exact ⟨_, exec_lineEvent s src hrun, ltView_ite _ rfl (ltView_sourceLine_of_disabled he src)⟩
  · exact ⟨_, exec_frameEvent s src hrun, ltView_frameEventEffect_of_disabled he src⟩
  · cases pos with
    | none => exact ⟨_, exec_synthesisedLineEvent_lt s hrun, congrArg ltView (ltSynthLine_of_disabled he)⟩
    | some k => exact ⟨_, exec_synthesisedLineEvent_pos s k hrun, ltView_posSynthLine s k⟩
  · exact ⟨_, exec_sourceLost s hrun, congrArg ltView (if_neg (by simp [ltbLossDue_of_disabled he]))⟩
  · exact ⟨_, exec_sourceRecovered s hrun, congrArg ltView (ltbRecover_of_disabled he)⟩
  · exact ⟨_, exec_lossToleranceExpiry s hrun, congrArg ltView (ltbToleranceExpiry_of_disabled he)⟩

end Sys2Proof.Machine
end

section
/-!
The L2 and the DRAM behind it, as BAR4 accesses meet them (R89, R93, R184, R187): which operations leave both as they
were, what each cache operation makes of the bytes that a read through the L2 finds, and that each keeps L2Ok.
-/

namespace Sys2Proof.Machine

/-! ### States with the same memory -/

/-- Two states hold the same lines in the L2 and the same bytes in DRAM. -/
structure SameMemory (s t : State) : Prop where
  ways : ∀ key, (l2Set t key).ways = (l2Set s key).ways
  dram : t.dram = s.dram

namespace SameMemory

variable {s t u : State}

theorem refl (s : State) : SameMemory s s := ⟨fun _ => rfl, rfl⟩

theorem trans (h : SameMemory s t) (k : SameMemory t u) : SameMemory s u :=
  ⟨fun key => (k.ways key).trans (h.ways key), k.dram.trans h.dram⟩

/-- An update of other fields than the L2 and DRAM. -/
theorem of_eq (hl : t.mem.l2 = s.mem.l2) (hd : t.dram = s.dram) : SameMemory s t :=
  ⟨fun key => by rw [l2Set, l2Set, hl], hd⟩

theorem foldl {α : Type} (f : State → α → State) (l : List α) (s : State)
    (h : ∀ u, ∀ a ∈ l, SameMemory u (f u a)) : SameMemory s (l.foldl f s) :=
  List.foldlRecOn (motive := SameMemory s) l f (refl s) fun u hu a ha => hu.trans (h u a ha)

theorem ite (p : Prop) [Decidable p] (ht : SameMemory s t) (hu : SameMemory s u) : SameMemory s (if p then t else u) := by
  split
  · exact ht
  · exact hu

end SameMemory

section
variable (s : State)

theorem sameMemory_wr (off : Nat) (v : Word) : SameMemory s (wr s off v) := .of_eq rfl rfl

theorem sameMemory_setEv (off b : Nat) : SameMemory s (setEv s off b) := .of_eq rfl rfl

theorem sameMemory_onHiu (f : Hiu → Hiu) : SameMemory s (onHiu s f) := .of_eq rfl rfl

/-- An update of the memory units beside the L2. -/
theorem sameMemory_onMem (f : MemSys → MemSys) (h : (f s.mem).l2 = s.mem.l2) : SameMemory s (onMem s f) := .of_eq h rfl

theorem sameMemory_captureErr (off b : Nat) (cap : State → State) (h : SameMemory s (cap s)) :
    SameMemory s (captureErr s off b cap) := by
  rw [captureErr_eq]
  exact (SameMemory.ite _ h (.refl s)).trans (sameMemory_setEv _ off b)

theorem sameMemory_hiuErr (b addr be space : Nat) : SameMemory s (hiuErr s b addr be space) :=
  sameMemory_captureErr s _ b _ (.of_eq rfl rfl)

theorem sameMemory_eccReport (events b addrReg addr count : Nat) : SameMemory s (eccReport s events b addrReg addr count) :=
  (sameMemory_captureErr s events b _ (.of_eq rfl rfl)).trans (sameMemory_wr _ count _)

theorem sameMemory_lpIssue (pa n : Nat) (write : Bool) : SameMemory s (lpIssue s pa n write) :=
  .ite _ (.refl s) (.of_eq rfl rfl)

/-- The check of a DRAM word reports, and clears the mark of a corrected one. -/
theorem sameMemory_dramCheckWord (pa : Nat) : SameMemory s (dramCheckWord s pa) := by
  unfold dramCheckWord
  dsimp only
  split
  · exact .refl s
  · exact (sameMemory_onMem s _ rfl).trans (sameMemory_eccReport _ ..)
  · exact sameMemory_eccReport s ..

theorem sameMemory_dramRead (pa n : Nat) : SameMemory s (dramRead s pa n).1 :=
  (sameMemory_lpIssue s pa n false).trans (.foldl _ _ _ fun u w _ => sameMemory_dramCheckWord u w)

/-- The pseudo-LRU bits of a set are no line. -/
theorem sameMemory_plru (key plru : Nat) : SameMemory s (l2PutSet s key { l2Set s key with plru := plru }) := by
  refine ⟨fun k => ?_, rfl⟩
  rw [l2Set, l2PutSet, onMem, storeGet_put]
  split
  · next e => rw [e]
  · rfl

end

/-! ### The end of a cycle -/

/-- What the evaluation of the pads leaves as it was: all but the pins, the levels that the LTB and the twin logic see,
registers outside the HIU's range, and the free values drawn. -/
structure PadsOnly (s t : State) : Prop where
  rest : ∃ regs ltb twin pins ctr sets,
    t = { s with regs := regs, ltb := ltb, twin := twin, pins := pins, freeCtr := ctr, cycleSets := sets }
  rd_hiu : ∀ off < 0x100000, rd t off = rd s off

namespace PadsOnly

variable {s t u : State}

theorem refl (s : State) : PadsOnly s s := ⟨⟨_, _, _, _, _, _, rfl⟩, fun _ _ => rfl⟩

theorem trans (h : PadsOnly s t) (k : PadsOnly t u) : PadsOnly s u := by
  obtain ⟨⟨_, _, _, _, _, _, ht⟩, hr⟩ := h
  obtain ⟨⟨_, _, _, _, _, _, hu⟩, kr⟩ := k
  exact ⟨⟨_, _, _, _, _, _, by rw [hu, ht]⟩, fun off ho => (kr off ho).trans (hr off ho)⟩

theorem ite (p : Prop) [Decidable p] (ht : PadsOnly s t) (hu : PadsOnly s u) : PadsOnly s (if p then t else u) := by
  split
  · exact ht
  · exact hu

theorem onPins (s : State) (f : Pins → Pins) : PadsOnly s (onPins s f) := ⟨⟨_, _, _, _, _, _, rfl⟩, fun _ _ => rfl⟩

theorem onTwin (s : State) (f : Twin → Twin) : PadsOnly s (onTwin s f) := ⟨⟨_, _, _, _, _, _, rfl⟩, fun _ _ => rfl⟩

theorem onLtb (s : State) (f : Ltb → Ltb) : PadsOnly s (onLtb s f) := ⟨⟨_, _, _, _, _, _, rfl⟩, fun _ _ => rfl⟩

theorem wr (s : State) (off : Nat) (v : Word) (h : 0x100000 ≤ off) : PadsOnly s (wr s off v) :=
  ⟨⟨_, _, _, _, _, _, rfl⟩, fun o ho => rd_wr_ne s off o v (by omega)⟩

theorem setEv (s : State) (off b : Nat) (h : 0x100000 ≤ off) : PadsOnly s (setEv s off b) :=
  ⟨⟨_, _, _, _, _, _, rfl⟩, fun o ho => rd_wr_ne s off o _ (by omega)⟩

end PadsOnly

section
variable (s : State)

theorem padsOnly_pinFlags : PadsOnly s (pinFlags s) := by
  unfold pinFlags
  dsimp only
  have conflict : PadsOnly s (wrN (onPins s fun p => { p with inert := inertBits s, conflict := conflictBits s })
      Reg.pinConflict (conflictBits s).toNat) := (PadsOnly.onPins s _).trans (.wr _ _ _ (by decide))
  have inert := PadsOnly.ite (inertBits s &&& ~~~ s.pins.inert = 0) conflict
    (conflict.trans (.setEv _ Reg.pinEvents 1 (by decide)))
  exact .ite _ inert (inert.trans (.setEv _ _ _ (by decide)))

theorem padsOnly_pinShow (k : Nat) : PadsOnly s (pinShow s k) := by
  have shown := PadsOnly.onPins s fun p => { p with shown := p.shown ^^^ BitVec.ofNat 64 (2 ^ k) }
  exact .ite _ (.refl s) (.ite _ (shown.trans (.setEv _ _ _ (by simp only [Reg.pinEdge]; omega))) shown)

theorem padsOnly_fnSettle : PadsOnly s (fnSettle s) := by
  unfold fnSettle
  dsimp only
  have takeover := PadsOnly.onTwin s fun x => { x with takeover := fnInput s 11 }
  exact (takeover.trans (.wr _ Reg.hltTwinStatus _ (by decide))).trans (.onLtb _ _)

theorem padsOnly_pinEvaluate : PadsOnly s (pinEvaluate s) := by
  have shows : ∀ (l : List Nat) (u : State), PadsOnly u (l.foldl pinShow u) := fun l u =>
    List.foldlRecOn (motive := PadsOnly u) l pinShow (.refl u) fun v hv k _ => hv.trans (padsOnly_pinShow v k)
  unfold pinEvaluate
  dsimp only
  refine .trans ?_ (padsOnly_fnSettle _)
  refine .trans ?_ (shows _ _)
  refine .trans ?_ (.onPins _ _)
  split
  · exact (padsOnly_pinFlags s).trans ⟨⟨_, _, _, _, _, _, rfl⟩, fun _ _ => rfl⟩
  · exact padsOnly_pinFlags s

theorem padsOnly_pinSettle : PadsOnly s (pinSettle s) := .ite _ (padsOnly_pinEvaluate s) (.refl s)

theorem padsOnly_padFollow (t : State) : PadsOnly t (padFollow s t) := .ite _ (.refl t) (padsOnly_pinSettle t)

theorem sameMemory_after (t : State) : SameMemory t (after s t) := by
  obtain ⟨⟨_, _, _, _, _, _, hp⟩, -⟩ := padsOnly_padFollow s t
  refine .of_eq ?_ ?_
  · rw [after, confine_mem, cycleEnd, conSettle_mem, irqSettle_mem, hp]
  · rw [after, confine_dram, cycleEnd, conSettle_dram, irqSettle_dram, hp]

end

end Sys2Proof.Machine
end

section
/-!
The lines of the L2 as parts of L2Ok: where a line stands, what a read of its bytes finds, and what replacing one way of
one set makes of both.
-/

namespace Sys2Proof.Machine

/-! ### Lines and where they stand -/

/-- Way w of a set of the L2 holds line l. -/
def LineAt (s : State) (key w : Nat) (l : Line) : Prop := (l2Set s key).ways[w]? = some (some l)

/-- Some way of the set of line l holds it. -/
def Held (s : State) (l : Line) : Prop := ∃ w, LineAt s (l2Key (l.tag * 128)) w l

/-- No way of the set of a line address holds it. -/
def Absent (s : State) (tag : Nat) : Prop := ∀ w l, LineAt s (l2Key (tag * 128)) w l → l.tag ≠ tag

theorem LineAt.unique {s : State} {key w : Nat} {l l' : Line} (h : LineAt s key w l) (h' : LineAt s key w l') : l' = l :=
  Option.some.inj (Option.some.inj (h'.symm.trans h))

/-- A whole line, whose clean bytes are those of DRAM. -/
structure LineOk (s : State) (l : Line) : Prop where
  data : l.data.length = 128
  dirty : l.dirty.length = 128
  clean : ∀ o < 128, l.dirty[o]? = some false → l.data[o]? = some (memByte s.dram (l.tag * 128 + o))

/-- L2Ok, line by line. -/
theorem l2Ok_iff (s : State) : L2Ok s ↔ (∀ key, (l2Set s key).ways.length = 16) ∧ ∀ key w l, LineAt s key w l →
    l2Key (l.tag * 128) = key ∧ LineOk s l ∧ ∀ w' l', LineAt s key w' l' → l'.tag = l.tag → w' = w := by
  constructor
  · refine fun h => ⟨fun key => (h key).1, fun key w l hl => ?_⟩
    obtain ⟨hkey, hdata, hdirty, hclean, honly⟩ := (h key).2 w l hl
    exact ⟨hkey, ⟨hdata, hdirty, hclean⟩, honly⟩
  · refine fun ⟨hways, hlines⟩ key => ⟨hways key, fun w l hl => ?_⟩
    obtain ⟨hkey, ⟨hdata, hdirty, hclean⟩, honly⟩ := hlines key w l hl
    exact ⟨hkey, hdata, hdirty, hclean, honly⟩

/-- The L2 set of an address is that of its line. -/
theorem l2Key_line (a : Nat) : l2Key (a / 128 * 128) = l2Key a := by
  have h7 : a / 128 * 128 / 2 ^ 7 = a / 2 ^ 7 := by omega
  have h15 : a / 128 * 128 / 2 ^ 15 = a / 2 ^ 15 := by omega
  have h11 : a / 128 * 128 / 2 ^ 11 = a / 2 ^ 11 := by omega
  simp only [l2Key, nfld, Nat.shiftRight_eq_div_pow, h7, h15, h11]

section
variable {s t : State}

theorem L2Ok.ways_length (h : L2Ok s) (key : Nat) : (l2Set s key).ways.length = 16 := (h key).1

theorem L2Ok.line (h : L2Ok s) {key w : Nat} {l : Line} (hl : LineAt s key w l) : LineOk s l :=
  (((l2Ok_iff s).mp h).2 key w l hl).2.1

theorem L2Ok.key (h : L2Ok s) {key w : Nat} {l : Line} (hl : LineAt s key w l) : l2Key (l.tag * 128) = key :=
  (((l2Ok_iff s).mp h).2 key w l hl).1

theorem L2Ok.only (h : L2Ok s) {key w w' : Nat} {l l' : Line} (hl : LineAt s key w l) (hl' : LineAt s key w' l')
    (ht : l'.tag = l.tag) : w' = w := (((l2Ok_iff s).mp h).2 key w l hl).2.2 w' l' hl' ht

theorem L2Ok.way_lt (h : L2Ok s) {key w : Nat} {l : Line} (hl : LineAt s key w l) : w < 16 := by
  have := (List.getElem?_eq_some_iff.mp hl).1
  rwa [h.ways_length] at this

theorem Held.lineOk {l : Line} (hl : Held s l) (h : L2Ok s) : LineOk s l := by
  obtain ⟨w, hw⟩ := hl
  exact h.line hw

theorem SameMemory.lineAt (h : SameMemory s t) (key w : Nat) (l : Line) : LineAt t key w l ↔ LineAt s key w l := by
  rw [LineAt, h.ways, LineAt]

theorem SameMemory.lineOk (h : SameMemory s t) {l : Line} (hl : LineOk s l) : LineOk t l :=
  ⟨hl.data, hl.dirty, h.dram ▸ hl.clean⟩

theorem SameMemory.held (h : SameMemory s t) {l : Line} (hl : Held s l) : Held t l := by
  obtain ⟨w, hw⟩ := hl
  exact ⟨w, (h.lineAt _ w l).mpr hw⟩

theorem SameMemory.absent (h : SameMemory s t) {tag : Nat} (ha : Absent s tag) : Absent t tag :=
  fun w l hl => ha w l ((h.lineAt _ w l).mp hl)

theorem SameMemory.l2Ok (h : SameMemory s t) (hs : L2Ok s) : L2Ok t := by
  rw [l2Ok_iff]
  refine ⟨fun key => by rw [h.ways]; exact hs.ways_length key, fun key w l hl => ?_⟩
  have hl := (h.lineAt key w l).mp hl
  exact ⟨hs.key hl, h.lineOk (hs.line hl), fun w' l' hl' ht => hs.only hl ((h.lineAt key w' l').mp hl') ht⟩

/-! ### Finding a line -/

/-- A set answers the way of the line with a line address. -/
theorem cacheFind_eq_some {c : CacheSet} {tag w : Nat} (h : cacheFind c tag = some w) :
    ∃ l, c.ways[w]? = some (some l) ∧ l.tag = tag := by
  obtain ⟨hw, hl, -⟩ := List.findIdx?_eq_some_iff_getElem.mp h
  cases hway : c.ways[w] with
  | none => simp [hway] at hl
  | some l => exact ⟨l, by rw [List.getElem?_eq_getElem hw, hway], by simpa [hway] using hl⟩

theorem cacheFind_eq_none {c : CacheSet} {tag : Nat} (h : cacheFind c tag = none) (w : Nat) (l : Line)
    (hl : c.ways[w]? = some (some l)) : l.tag ≠ tag := by
  have := List.findIdx?_eq_none_iff.mp h _ (List.mem_of_getElem? hl)
  simpa using this

theorem cacheWay_eq_some {c : CacheSet} {w : Nat} {l : Line} (h : c.ways[w]? = some (some l)) : cacheWay c w = some l := by
  rw [cacheWay, h, Option.getD_some]

theorem getElem?_of_cacheWay {c : CacheSet} {w : Nat} {l : Line} (h : cacheWay c w = some l) :
    c.ways[w]? = some (some l) := by
  unfold cacheWay at h
  cases hw : c.ways[w]? with
  | none => simp [hw] at h
  | some o => simpa [hw] using h

/-- In a set in order, a held line is found in its way. -/
theorem L2Ok.cacheFind (h : L2Ok s) {key w : Nat} {l : Line} (hl : LineAt s key w l) :
    cacheFind (l2Set s key) l.tag = some w := by
  cases hf : Machine.cacheFind (l2Set s key) l.tag with
  | none => exact absurd rfl (cacheFind_eq_none hf w l hl)
  | some w' =>
    obtain ⟨l', hl', ht⟩ := cacheFind_eq_some hf
    rw [h.only hl hl' ht]

/-! ### What a read through the L2 finds -/

theorem l2View_lineAt (h : L2Ok s) {w a : Nat} {l : Line} (hl : LineAt s (l2Key a) w l) (ht : l.tag = a / 128) :
    l2View s a = (l.data[a % 128]?).getD 0 := by
  rw [l2View, ← ht, h.cacheFind hl]
  simp only [cacheWay_eq_some hl, Option.map_some, Option.getD_some]

theorem l2View_held (h : L2Ok s) {l : Line} (hl : Held s l) {a : Nat} (ht : a / 128 = l.tag) :
    l2View s a = (l.data[a % 128]?).getD 0 := by
  obtain ⟨w, hw⟩ := hl
  rw [← ht, l2Key_line] at hw
  exact l2View_lineAt h hw ht.symm

theorem l2View_absent {a : Nat} (h : Absent s (a / 128)) : l2View s a = memByte s.dram a := by
  rw [l2View]
  cases hf : cacheFind (l2Set s (l2Key a)) (a / 128) with
  | none => rfl
  | some w =>
    obtain ⟨l, hl, ht⟩ := cacheFind_eq_some hf
    exact absurd ht (h w l (by rw [l2Key_line]; exact hl))

/-- An address is that of a held line or of none. -/
theorem held_or_absent (s : State) (tag : Nat) : (∃ l, Held s l ∧ l.tag = tag) ∨ Absent s tag := by
  by_cases hex : ∃ w l, LineAt s (l2Key (tag * 128)) w l ∧ l.tag = tag
  · obtain ⟨w, l, hl, ht⟩ := hex
    exact .inl ⟨l, ⟨w, ht ▸ hl⟩, ht⟩
  · exact .inr fun w l hl ht => hex ⟨w, l, hl, ht⟩

theorem SameMemory.l2View (h : SameMemory s t) (hs : L2Ok s) (a : Nat) : l2View t a = l2View s a := by
  rcases held_or_absent s (a / 128) with ⟨l, hl, ht⟩ | ha
  · rw [l2View_held hs hl ht.symm, l2View_held (h.l2Ok hs) (h.held hl) ht.symm]
  · rw [l2View_absent ha, l2View_absent (h.absent ha), h.dram]

/-! ### Replacing one way -/

/-- The state with line l in way w of its set. -/
def putLine (s : State) (w : Nat) (l : Line) (plru : Nat) : State :=
  l2PutSet s (l2Key (l.tag * 128)) { ways := setAt (l2Set s (l2Key (l.tag * 128))).ways w (some l), plru := plru }

theorem l2Set_putLine (s : State) (w : Nat) (l : Line) (plru key : Nat) : l2Set (putLine s w l plru) key =
    if key = l2Key (l.tag * 128) then { ways := (l2Set s key).ways.set w (some l), plru := plru } else l2Set s key := by
  rw [putLine, l2Set, l2PutSet, onMem, storeGet_put]
  split
  · next e => rw [e]; rfl
  · rfl

/-- The replaced way holds the new line, and every other one what it held. -/
theorem lineAt_putLine (h : L2Ok s) {w : Nat} (hw : w < 16) (l : Line) (plru key w' : Nat) (l' : Line) :
    LineAt (putLine s w l plru) key w' l' ↔
      if key = l2Key (l.tag * 128) ∧ w' = w then l' = l else LineAt s key w' l' := by
  have hlen : w < (l2Set s key).ways.length := by rw [h.ways_length]; exact hw
  rw [LineAt, l2Set_putLine]
  by_cases hkey : key = l2Key (l.tag * 128)
  · by_cases hway : w' = w
    · subst hway
      simp only [hkey, and_self, if_true] at hlen ⊢
      simp [hlen, eq_comm]
    · simp only [hkey, hway, if_true, and_false, if_false]
      rw [List.getElem?_set_ne (Ne.symm hway)]
      rfl
  · simp only [hkey, false_and, if_false]
    rfl

theorem held_putLine (h : L2Ok s) {w : Nat} (hw : w < 16) (l : Line) (plru : Nat) : Held (putLine s w l plru) l :=
  ⟨w, (lineAt_putLine h hw l plru _ w l).mpr (by simp)⟩

section
variable {w : Nat} {l : Line} (plru : Nat) (h : L2Ok s) (hw : w < 16) (hl : LineOk s l)
  (honly : ∀ w' v, LineAt s (l2Key (l.tag * 128)) w' v → v.tag = l.tag → w' = w)
include h hw hl honly

/-- A whole line that no other way holds may stand in any way of its set. -/
theorem l2Ok_putLine : L2Ok (putLine s w l plru) := by
  rw [l2Ok_iff]
  refine ⟨fun key => ?_, fun key w' l' hl' => ?_⟩
  · have hlen := h.ways_length key
    rw [l2Set_putLine]
    split
    · rwa [List.length_set]
    · exact hlen
  · rw [lineAt_putLine h hw] at hl'
    split at hl'
    · next e =>
      obtain ⟨rfl, rfl⟩ := e
      subst hl'
      refine ⟨rfl, ⟨hl.data, hl.dirty, hl.clean⟩, fun w'' v hv ht => ?_⟩
      rw [lineAt_putLine h hw] at hv
      split at hv
      · next e => exact e.2
      · exact honly w'' v hv ht
    · next e =>
      have hok := h.line hl'
      refine ⟨h.key hl', ⟨hok.data, hok.dirty, hok.clean⟩, fun w'' v hv ht => ?_⟩
      rw [lineAt_putLine h hw] at hv
      split at hv
      · next e' =>
        obtain ⟨hkey, hway⟩ := e'
        exact absurd ⟨hkey, honly w' l' (hkey ▸ hl') (by rw [← ht, hv])⟩ e
      · exact h.only hl' hv ht

/-- The new line answers for its address; the bytes of a line that it replaces have to be those of DRAM. -/
theorem l2View_putLine (hold : ∀ v, LineAt s (l2Key (l.tag * 128)) w v → v.tag ≠ l.tag →
      ∀ o < 128, v.data[o]? = some (memByte s.dram (v.tag * 128 + o))) (a : Nat) :
    l2View (putLine s w l plru) a = if a / 128 = l.tag then (l.data[a % 128]?).getD 0 else l2View s a := by
  have hok := l2Ok_putLine plru h hw hl honly
  split
  · next ht => exact l2View_held hok (held_putLine h hw l plru) ht
  · next ht =>
    rcases held_or_absent (putLine s w l plru) (a / 128) with ⟨v, ⟨w', hv⟩, hvt⟩ | habsent
    · have hvs := (lineAt_putLine h hw l plru _ w' v).mp hv
      rw [if_neg fun e => ht (by rw [← hvt, (by simpa [e] using hvs : v = l)])] at hvs
      rw [l2View_held hok ⟨w', hv⟩ hvt.symm, l2View_held h ⟨w', hvs⟩ hvt.symm]
    · rw [l2View_absent habsent]
      rcases held_or_absent s (a / 128) with ⟨v, ⟨w', hv⟩, hvt⟩ | hs
      · have hput : ¬ LineAt (putLine s w l plru) (l2Key (v.tag * 128)) w' v := fun hc =>
          habsent w' v (by rwa [← hvt]) hvt
        rw [lineAt_putLine h hw] at hput
        split at hput
        · next e =>
          obtain ⟨hkey, rfl⟩ := e
          have hbyte := hold v (hkey ▸ hv) (hvt ▸ ht) (a % 128) (Nat.mod_lt _ (by decide))
          have ha : v.tag * 128 + a % 128 = a := by omega
          rw [l2View_held h ⟨w', hv⟩ hvt.symm, hbyte, ha]
          rfl
        · exact absurd hv hput
      · rw [l2View_absent hs]
        rfl

end

end

end Sys2Proof.Machine
end

section
/-!
What an operation on device memory stores, as read through the L2; and the bytes of DRAM after a write and after a line is
written back (R176, R187).
-/

namespace Sys2Proof.Machine

/-! ### What an operation stores -/

/-- The byte that a write of bytes at a PA stores at an address, if it stores one there. -/
def putAt (pa : Nat) (bs : List (Option Byte)) (a : Nat) : Option Byte :=
  if pa ≤ a then (bs[a - pa]?).getD none else none

/-- An operation from state s to state t stores the bytes p, as read through the L2, and keeps memory in order. -/
structure Stores (s t : State) (p : Nat → Option Byte) : Prop where
  ok : L2Ok t
  wf : memWf s.dram = true → memWf t.dram = true
  view : ∀ a, l2View t a = (p a).getD (l2View s a)

section
variable {s t u : State} {p q : Nat → Option Byte}

theorem SameMemory.stores (h : SameMemory s t) (hs : L2Ok s) : Stores s t fun _ => none :=
  ⟨h.l2Ok hs, fun hw => h.dram ▸ hw, h.l2View hs⟩

/-- Of two operations, the later one's bytes come first. -/
theorem Stores.trans (h : Stores s t p) (k : Stores t u q) : Stores s u fun a => (q a).or (p a) := by
  refine ⟨k.ok, fun hw => k.wf (h.wf hw), fun a => ?_⟩
  rw [k.view, h.view]
  cases q a <;> rfl

theorem Stores.congr (h : Stores s t p) (hp : ∀ a, q a = p a) : Stores s t q :=
  ⟨h.ok, h.wf, fun a => by rw [hp]; exact h.view a⟩

/-- Operations that store nothing, one after another. -/
theorem Stores.trans_none (h : Stores s t fun _ => none) (k : Stores t u p) : Stores s u p :=
  (h.trans k).congr fun a => (Option.or_none (o := p a)).symm

theorem Stores.then_same (h : Stores s t p) (k : SameMemory t u) : Stores s u p :=
  (h.trans (k.stores h.ok)).congr fun _ => rfl

/-! ### DRAM -/

theorem putAt_cons (pa : Nat) (b : Option Byte) (bs : List (Option Byte)) (a : Nat) :
    putAt pa (b :: bs) a = if a = pa then b else putAt (pa + 1) bs a := by
  by_cases ha : a = pa
  · simp [putAt, ha]
  · by_cases hle : pa ≤ a
    · have e : a - pa = a - (pa + 1) + 1 := by omega
      rw [if_neg ha, putAt, if_pos hle, putAt, if_pos (by omega), e, List.getElem?_cons_succ]
    · rw [if_neg ha, putAt, if_neg hle, putAt, if_neg (by omega)]

theorem putAt_before (pa : Nat) (bs : List (Option Byte)) (a : Nat) (h : a < pa) : putAt pa bs a = none := by
  rw [putAt, if_neg (by omega)]

theorem dramWriteBytes_spec (pa : Nat) (bs : List (Option Byte)) (s : State) :
    (dramWriteBytes s pa bs).mem = s.mem ∧ (memWf s.dram = true → memWf (dramWriteBytes s pa bs).dram = true) ∧
      ∀ a, memByte (dramWriteBytes s pa bs).dram a = (putAt pa bs a).getD (memByte s.dram a) := by
  induction bs generalizing s pa with
  | nil => exact ⟨rfl, id, fun a => by simp [putAt, dramWriteBytes]⟩
  | cons b bs ih =>
    have before : ∀ u, memByte (dramWriteBytes u (pa + 1) bs).dram pa = memByte u.dram pa := fun u => by
      rw [(ih (pa + 1) u).2.2, putAt_before _ _ _ (Nat.lt_succ_self pa)]
      rfl
    cases b with
    | none =>
      obtain ⟨hmem, hwf, hbyte⟩ := ih (pa + 1) s
      refine ⟨hmem, hwf, fun a => ?_⟩
      rw [putAt_cons]
      split
      · next ha => exact ha ▸ before s
      · exact hbyte a
    | some v =>
      obtain ⟨hmem, hwf, hbyte⟩ := ih (pa + 1) { s with dram := memPutByte s.dram pa v }
      refine ⟨hmem, fun hw => hwf (memWf_putByte _ _ _ hw), fun a => ?_⟩
      have stored := memByte_putByte s.dram pa a v
      rw [putAt_cons]
      split
      · next ha =>
        rw [if_pos ha] at stored
        subst ha
        exact (before _).trans stored
      · next ha =>
        rw [if_neg ha] at stored
        rw [← stored]
        exact hbyte a

/-- The state in which a write of DRAM stores its bytes, its words checked and merged. -/
theorem sameMemory_dramMerge (s : State) (pa : Nat) (bs : List (Option Byte)) :
    SameMemory s ((wordsMerged pa bs).foldl dramCheckWord (lpIssue s pa bs.length true)) :=
  (sameMemory_lpIssue s pa bs.length true).trans (.foldl _ _ _ fun u w _ => sameMemory_dramCheckWord u w)

/-- What a write of DRAM makes of its bytes; the lines of the L2 stay. -/
theorem dramWrite_spec (s : State) (pa : Nat) (bs : List (Option Byte)) :
    (∀ key, (l2Set (dramWrite s pa bs) key).ways = (l2Set s key).ways) ∧
      (memWf s.dram = true → memWf (dramWrite s pa bs).dram = true) ∧
      ∀ a, memByte (dramWrite s pa bs).dram a = (putAt pa bs a).getD (memByte s.dram a) := by
  have merge := sameMemory_dramMerge s pa bs
  obtain ⟨hmem, hwf, hbyte⟩ := dramWriteBytes_spec pa bs
    ((wordsMerged pa bs).foldl dramCheckWord (lpIssue s pa bs.length true))
  refine ⟨fun key => ?_, fun hw => hwf (merge.dram ▸ hw), fun a => ?_⟩
  · rw [← merge.ways key, dramWrite, dramClearMarks, l2Set, onMem, hmem, l2Set]
  · rw [← merge.dram]
    exact hbyte a

theorem memRead_length (m : Mem) (a n : Nat) : (memRead m a n).length = n := by
  induction n generalizing a with
  | zero => rfl
  | succ n ih => rw [memRead, List.length_cons, ih]

theorem getElem?_memRead (m : Mem) (a n i : Nat) (h : i < n) : (memRead m a n)[i]? = some (memByte m (a + i)) := by
  induction n generalizing a i with
  | zero => omega
  | succ n ih =>
    cases i with
    | zero => rfl
    | succ i =>
      rw [memRead, List.getElem?_cons_succ, ih _ _ (by omega)]
      congr 2
      omega

/-! ### The bytes of a write-back -/

theorem getElem?_lineDirtyBytes (l : Line) (hd : l.data.length = 128) (hm : l.dirty.length = 128) (o : Nat) (ho : o < 128) :
    (lineDirtyBytes l)[o]? = some (if l.dirty[o]'(hm ▸ ho) then some (l.data[o]'(hd ▸ ho)) else none) := by
  rw [lineDirtyBytes, List.getElem?_zipWith, List.getElem?_eq_getElem (hd ▸ ho), List.getElem?_eq_getElem (hm ▸ ho)]

/-- After a write-back the bytes of the line are those of DRAM, and every byte outside it is as before. -/
theorem memByte_dramWrite_line {l : Line} (hl : LineOk s l) (a : Nat) :
    memByte (dramWrite s (l.tag * 128) (lineDirtyBytes l)).dram a =
      if a / 128 = l.tag then (l.data[a % 128]?).getD 0 else memByte s.dram a := by
  have hlen : (lineDirtyBytes l).length = 128 := by simp [lineDirtyBytes, hl.data, hl.dirty]
  rw [(dramWrite_spec s _ _).2.2, putAt]
  by_cases ht : a / 128 = l.tag
  · have ho : a % 128 < 128 := Nat.mod_lt _ (by decide)
    have hsub : a - l.tag * 128 = a % 128 := by omega
    have ha : l.tag * 128 + a % 128 = a := by omega
    have clean := hl.clean _ ho
    rw [ha, List.getElem?_eq_getElem (hl.dirty ▸ ho), List.getElem?_eq_getElem (hl.data ▸ ho)] at clean
    rw [if_pos (by omega), if_pos ht, hsub, getElem?_lineDirtyBytes l hl.data hl.dirty _ ho, Option.getD_some,
      List.getElem?_eq_getElem (hl.data ▸ ho), Option.getD_some]
    cases hdirty : l.dirty[a % 128]'(hl.dirty ▸ ho) with
    | true => rfl
    | false =>
      rw [hdirty] at clean
      exact (Option.some.inj (clean rfl)).symm
  · rw [if_neg ht]
    split
    · rw [List.getElem?_eq_none (by omega)]
      rfl
    · rfl

end

end Sys2Proof.Machine
end

section
/-!
The lines of the L2 (R184, R187): a write-back and a fill store nothing, and a line that is installed or stored again
stores its bytes.
-/

namespace Sys2Proof.Machine

section
variable {s t : State}

/-- What is stored may be named by any bytes that make the same of the view. -/
theorem Stores.of_view {p q : Nat → Option Byte} (h : Stores s t p)
    (hv : ∀ a, (p a).getD (l2View s a) = (q a).getD (l2View s a)) : Stores s t q :=
  ⟨h.ok, h.wf, fun a => (h.view a).trans (hv a)⟩

theorem LineOk.getElem?_data {l : Line} (hl : LineOk s l) {o : Nat} (ho : o < 128) :
    l.data[o]? = some (l.data[o]'(hl.data ▸ ho)) := List.getElem?_eq_getElem _

/-! ### Writing a line back -/

theorem l2WriteBack_spec (s : State) (l : Line) :
    (∀ key, (l2Set (l2WriteBack s l) key).ways = (l2Set s key).ways) ∧
      (memWf s.dram = true → memWf (l2WriteBack s l).dram = true) ∧
      (l2WriteBack s l).dram = (dramWrite s (l.tag * 128) (lineDirtyBytes l)).dram := by
  obtain ⟨hways, hwf, -⟩ := dramWrite_spec s (l.tag * 128) (lineDirtyBytes l)
  exact ⟨hways, hwf, rfl⟩

theorem lineAt_l2WriteBack (s : State) (v : Line) (key w : Nat) (l : Line) :
    LineAt (l2WriteBack s v) key w l ↔ LineAt s key w l := by
  rw [LineAt, (l2WriteBack_spec s v).1, LineAt]

theorem memByte_l2WriteBack {v : Line} (hv : LineOk s v) (a : Nat) : memByte (l2WriteBack s v).dram a =
    if a / 128 = v.tag then (v.data[a % 128]?).getD 0 else memByte s.dram a := by
  rw [(l2WriteBack_spec s v).2.2, memByte_dramWrite_line hv]

/-- Every byte of a line is that of DRAM. -/
def WrittenBack (s : State) (l : Line) : Prop := ∀ o < 128, l.data[o]? = some (memByte s.dram (l.tag * 128 + o))

theorem writtenBack_l2WriteBack {v : Line} (hv : LineOk s v) : WrittenBack (l2WriteBack s v) v := by
  intro o ho
  have htag : (v.tag * 128 + o) / 128 = v.tag := by omega
  have hoff : (v.tag * 128 + o) % 128 = o := by omega
  rw [memByte_l2WriteBack hv, if_pos htag, hoff, List.getElem?_eq_getElem (hv.data ▸ ho)]
  rfl

/-- Writing a held line back stores nothing: the bytes go from the line to DRAM. -/
theorem stores_l2WriteBack (h : L2Ok s) {key w : Nat} {v : Line} (hv : LineAt s key w v) :
    Stores s (l2WriteBack s v) fun _ => none := by
  have hok := h.line hv
  have hlines := lineAt_l2WriteBack s v
  have l2Ok : L2Ok (l2WriteBack s v) := by
    rw [l2Ok_iff]
    refine ⟨fun k => by rw [(l2WriteBack_spec s v).1]; exact h.ways_length k, fun k w' l hl => ?_⟩
    have hl := (hlines k w' l).mp hl
    have hlok := h.line hl
    refine ⟨h.key hl, ⟨hlok.data, hlok.dirty, fun o ho hclean => ?_⟩,
      fun w'' l' hl' ht => h.only hl ((hlines k w'' l').mp hl') ht⟩
    by_cases htag : l.tag = v.tag
    · have hkey : k = key := by rw [← h.key hl, ← h.key hv, htag]
      subst hkey
      have hway := h.only hv hl htag
      subst hway
      obtain rfl := hv.unique hl
      exact writtenBack_l2WriteBack hok o ho
    · rw [memByte_l2WriteBack hok, if_neg (by omega)]
      exact hlok.clean o ho hclean
  refine ⟨l2Ok, (l2WriteBack_spec s v).2.1, fun a => ?_⟩
  rcases held_or_absent s (a / 128) with ⟨l, ⟨w', hl⟩, ht⟩ | ha
  · rw [l2View_held h ⟨w', hl⟩ ht.symm, l2View_held l2Ok ⟨w', (hlines _ w' l).mpr hl⟩ ht.symm]
    rfl
  · have hne : a / 128 ≠ v.tag := fun e => ha w v (by rwa [e, h.key hv]) e.symm
    rw [l2View_absent ha, l2View_absent fun w' l hl => ha w' l ((hlines _ w' l).mp hl), memByte_l2WriteBack hok, if_neg hne]
    rfl

/-! ### Installing a line -/

/-- The state in which a dirty line of a way is written back, before another takes its place (R187). -/
def makeRoom (s : State) (key w : Nat) : State :=
  match cacheWay (l2Set s key) w with
  | some v => if lineDirty v then l2WriteBack s v else s
  | none => s

theorem getElem?_dirty_of_not_lineDirty {l : Line} (hd : lineDirty l = false) (hm : l.dirty.length = 128) (o : Nat)
    (ho : o < 128) : l.dirty[o]? = some false := by
  rw [lineDirty, List.any_eq_false] at hd
  rw [List.getElem?_eq_getElem (hm ▸ ho)]
  have := hd _ (List.getElem_mem (hm ▸ ho))
  simpa using this

theorem makeRoom_spec (h : L2Ok s) (key w : Nat) : Stores s (makeRoom s key w) (fun _ => none) ∧
    (∀ k w' l, LineAt (makeRoom s key w) k w' l ↔ LineAt s k w' l) ∧
    ∀ v, LineAt s key w v → WrittenBack (makeRoom s key w) v := by
  unfold makeRoom
  cases hw : cacheWay (l2Set s key) w with
  | none =>
    refine ⟨(SameMemory.refl s).stores h, fun _ _ _ => Iff.rfl, fun v hv => ?_⟩
    rw [cacheWay_eq_some hv] at hw
    cases hw
  | some v =>
    have hv : LineAt s key w v := getElem?_of_cacheWay hw
    cases hd : lineDirty v with
    | true =>
      dsimp only
      rw [hd, if_pos rfl]
      refine ⟨stores_l2WriteBack h hv, lineAt_l2WriteBack s v, fun v' hv' => ?_⟩
      rw [hv.unique hv']
      exact writtenBack_l2WriteBack (h.line hv)
    | false =>
      dsimp only
      rw [hd, if_neg Bool.false_ne_true]
      refine ⟨(SameMemory.refl s).stores h, fun _ _ _ => Iff.rfl, fun v' hv' o ho => ?_⟩
      rw [hv.unique hv']
      exact (h.line hv).clean o ho (getElem?_dirty_of_not_lineDirty hd (h.line hv).dirty o ho)

/-- The pseudo-LRU tree of d levels below a node points into the node's subtree. -/
theorem plruVictim_bounds (bits d node : Nat) :
    node * 2 ^ d ≤ plruVictim bits d node ∧ plruVictim bits d node < (node + 1) * 2 ^ d := by
  induction d generalizing node with
  | zero => simp [plruVictim]
  | succ d ih =>
    have hb : b2n (bits.testBit node) ≤ 1 := by
      unfold b2n
      split <;> decide
    obtain ⟨lo, hi⟩ := ih (2 * node + b2n (bits.testBit node))
    rw [plruVictim, Nat.pow_succ]
    constructor
    · refine le_trans ?_ lo
      nlinarith [Nat.two_pow_pos d]
    · refine lt_of_lt_of_le hi ?_
      nlinarith [Nat.two_pow_pos d]

theorem cacheVictim_lt {c : CacheSet} (h : c.ways.length = 16) : cacheVictim 4 c < 16 := by
  unfold cacheVictim
  split
  · next w hw =>
    obtain ⟨hlt, -⟩ := List.findIdx?_eq_some_iff_getElem.mp hw
    rwa [h] at hlt
  · have := (plruVictim_bounds c.plru 4 1).2
    omega

/-- The bytes of a line, by address. -/
def lineBytes (l : Line) (a : Nat) : Option Byte := if a / 128 = l.tag then l.data[a % 128]? else none

/-- Replacing a way whose line is in DRAM, or has the new line's address, stores the new line's bytes. -/
theorem stores_putLine (plru : Nat) (h : L2Ok s) {w : Nat} (hw : w < 16) {l : Line} (hl : LineOk s l)
    (honly : ∀ w' v, LineAt s (l2Key (l.tag * 128)) w' v → v.tag = l.tag → w' = w)
    (hold : ∀ v, LineAt s (l2Key (l.tag * 128)) w v → v.tag ≠ l.tag → WrittenBack s v) :
    Stores s (putLine s w l plru) (lineBytes l) := by
  refine ⟨l2Ok_putLine plru h hw hl honly, id, fun a => ?_⟩
  rw [l2View_putLine plru h hw hl honly hold, lineBytes]
  split
  · rw [hl.getElem?_data (Nat.mod_lt a (by decide))]
    rfl
  · rfl

theorem l2Install_eq (h : L2Ok s) (l : Line) : ∃ w plru, w < 16 ∧
    l2Install s l = putLine (makeRoom s (l2Key (l.tag * 128)) w) w l plru := by
  have hways : ∀ key w, (l2Set (makeRoom s key w) key).ways = (l2Set s key).ways := by
    intro key w
    unfold makeRoom
    split
    · split
      · exact (l2WriteBack_spec s _).1 _
      · rfl
    · rfl
  refine ⟨cacheVictim 4 (l2Set s (l2Key (l.tag * 128))),
    plruTouch 4 (cacheVictim 4 (l2Set s (l2Key (l.tag * 128)))) (l2Set s (l2Key (l.tag * 128))).plru,
    cacheVictim_lt (h.ways_length _), ?_⟩
  rw [putLine, hways]
  rfl

/-- A line that no way holds is installed: its bytes are stored, a dirty victim's go to DRAM. -/
theorem stores_l2Install (h : L2Ok s) {l : Line} (hl : LineOk s l) (ha : Absent s l.tag) :
    Stores s (l2Install s l) (lineBytes l) ∧ Held (l2Install s l) l := by
  obtain ⟨w, plru, hw, heq⟩ := l2Install_eq h l
  obtain ⟨hroom, hlines, hback⟩ := makeRoom_spec h (l2Key (l.tag * 128)) w
  have absent : Absent (makeRoom s (l2Key (l.tag * 128)) w) l.tag := fun w' v hv => ha w' v ((hlines _ w' v).mp hv)
  have lineOk : LineOk (makeRoom s (l2Key (l.tag * 128)) w) l := by
    refine ⟨hl.data, hl.dirty, fun o ho hclean => ?_⟩
    have htag : (l.tag * 128 + o) / 128 = l.tag := by omega
    have hview := hroom.view (l.tag * 128 + o)
    rw [l2View_absent (by rwa [htag]), l2View_absent (by rwa [htag])] at hview
    rw [hview]
    exact hl.clean o ho hclean
  rw [heq]
  refine ⟨hroom.trans_none (stores_putLine plru hroom.ok hw lineOk ?_ ?_), held_putLine hroom.ok hw l plru⟩
  · exact fun w' v hv ht => absurd ht (absent w' v hv)
  · exact fun v hv _ => hback v ((hlines _ w v).mp hv)

/-! ### The line of an address -/

/-- A line shows, at its addresses, what a read through the L2 finds. -/
def Shows (s : State) (l : Line) : Prop := ∀ a, a / 128 = l.tag → l.data[a % 128]? = some (l2View s a)

theorem shows_held (h : L2Ok s) {l : Line} (hl : Held s l) : Shows s l := by
  intro a ha
  obtain ⟨w, hw⟩ := hl
  rw [l2View_held h ⟨w, hw⟩ ha, (h.line hw).getElem?_data (Nat.mod_lt a (by decide))]
  rfl

/-- A line that shows what is stored anyway stores nothing. -/
theorem Stores.of_shows {l : Line} (h : Stores s t (lineBytes l)) (hl : Shows s l) : Stores s t fun _ => none := by
  refine h.of_view fun a => ?_
  rw [lineBytes]
  split
  · next ht => rw [hl a ht]; rfl
  · rfl

/-- The line read from DRAM at a line address that no way holds. -/
theorem lineFill_spec (s : State) (tag : Nat) (ha : Absent s tag) : SameMemory s (lineFill s tag).1 ∧
    (lineFill s tag).2.1.tag = tag ∧ LineOk s (lineFill s tag).2.1 ∧ Shows s (lineFill s tag).2.1 := by
  have hbyte : ∀ o < 128, (lineFill s tag).2.1.data[o]? = some (memByte s.dram (tag * 128 + o)) :=
    fun o ho => getElem?_memRead s.dram (tag * 128) 128 o ho
  refine ⟨sameMemory_dramRead s _ _, rfl, ⟨memRead_length _ _ _, List.length_replicate, fun o ho _ => hbyte o ho⟩,
    fun a ht => ?_⟩
  have ht : a / 128 = tag := ht
  have hsum : tag * 128 + a % 128 = a := by omega
  rw [hbyte _ (Nat.mod_lt a (by decide)), hsum, l2View_absent (by rwa [ht])]

theorem l2Line_hit {pa w : Nat} {l : Line} (hf : cacheFind (l2Set s (l2Key pa)) (pa / 128) = some w)
    (hl : LineAt s (l2Key pa) w l) : l2Line s pa =
      (l2PutSet s (l2Key pa) { l2Set s (l2Key pa) with plru := plruTouch 4 w (l2Set s (l2Key pa)).plru }, l, none) := by
  simp only [l2Line, hf, cacheWay_eq_some hl, Option.getD_some]

theorem l2Line_filled {pa : Nat} (hf : cacheFind (l2Set s (l2Key pa)) (pa / 128) = none)
    (hb : (lineFill s (pa / 128)).2.2 = none) : l2Line s pa =
      (l2Install (lineFill s (pa / 128)).1 (lineFill s (pa / 128)).2.1, (lineFill s (pa / 128)).2.1, none) := by
  simp only [l2Line, hf, hb]

theorem l2Line_unfilled {pa a : Nat} (hf : cacheFind (l2Set s (l2Key pa)) (pa / 128) = none)
    (hb : (lineFill s (pa / 128)).2.2 = some a) : l2Line s pa =
      ((lineFill s (pa / 128)).1, (lineFill s (pa / 128)).2.1, some a) := by
  simp only [l2Line, hf, hb]

/-- What the access of a PA makes of its line: it is held afterwards, or its fill meets an uncorrectable word and nothing
is installed (R203). -/
inductive LineOf (s : State) (pa : Nat) : State × Line × Option Nat → Prop
  | held (t : State) (l : Line) (stores : Stores s t fun _ => none) (tag : l.tag = pa / 128) (held : Held t l) :
      LineOf s pa (t, l, none)
  | bad (t : State) (l : Line) (a : Nat) (same : SameMemory s t) (tag : l.tag = pa / 128) (absent : Absent s l.tag)
      (ok : LineOk s l) (shows' : Shows s l) : LineOf s pa (t, l, some a)

theorem l2Line_spec (h : L2Ok s) (pa : Nat) : LineOf s pa (l2Line s pa) := by
  cases hf : cacheFind (l2Set s (l2Key pa)) (pa / 128) with
  | some w =>
    obtain ⟨l, hl, ht⟩ := cacheFind_eq_some hf
    have touch := sameMemory_plru s (l2Key pa) (plruTouch 4 w (l2Set s (l2Key pa)).plru)
    have held : Held s l := ⟨w, by rw [ht, l2Key_line]; exact hl⟩
    rw [l2Line_hit hf hl]
    exact .held _ l (touch.stores h) ht (touch.held held)
  | none =>
    have absent : Absent s (pa / 128) := fun w l hl => cacheFind_eq_none hf w l (by rwa [l2Key_line] at hl)
    obtain ⟨hsame, htag, hok, hshows⟩ := lineFill_spec s (pa / 128) absent
    rw [← htag] at absent
    cases hb : (lineFill s (pa / 128)).2.2 with
    | some a =>
      rw [l2Line_unfilled hf hb]
      exact .bad _ _ a hsame htag absent hok hshows
    | none =>
      obtain ⟨hput, hheld⟩ := stores_l2Install (hsame.l2Ok h) (hsame.lineOk hok) (hsame.absent absent)
      have shows' : Shows (lineFill s (pa / 128)).1 (lineFill s (pa / 128)).2.1 := fun a ha => by
        rw [hsame.l2View h]
        exact hshows a ha
      rw [l2Line_filled hf hb]
      exact .held _ _ ((hsame.stores h).trans_none (hput.of_shows shows')) htag hheld

/-- A held line is stored again, with other bytes or marks. -/
theorem stores_l2Update (h : L2Ok s) {l : Line} (hl : Held s l) (l' : Line) (ht : l'.tag = l.tag) (hok : LineOk s l') :
    Stores s (l2Update s l') (lineBytes l') ∧ Held (l2Update s l') l' := by
  obtain ⟨w, hw⟩ := hl
  rw [← ht] at hw
  have hf : cacheFind (l2Set s (l2Key (l'.tag * 128))) l'.tag = some w := by rw [ht] at hw ⊢; exact h.cacheFind hw
  have heq : l2Update s l' = putLine s w l' (l2Set s (l2Key (l'.tag * 128))).plru := by
    rw [l2Update]
    simp only [hf]
    rfl
  rw [heq]
  refine ⟨stores_putLine _ h (h.way_lt hw) hok ?_ ?_, held_putLine h (h.way_lt hw) l' _⟩
  · exact fun w' v hv hvt => h.only hw hv (hvt.trans ht)
  · intro v hv hne
    obtain rfl : v = l := hw.unique hv
    exact absurd ht.symm hne

end

end Sys2Proof.Machine
end

section
/-!
Reads and writes through the L2 (R184, R203): a write stores its bytes and nothing else, and a read stores nothing, over
fills, evictions and the checks of stored words.
-/

namespace Sys2Proof.Machine

section
variable {s t : State}

/-! ### Writing in one line -/

theorem getElem?_lineWrite_data (l : Line) (o : Nat) (bs : List (Option Byte)) (i : Nat) :
    (lineWrite l o bs).data[i]? = (l.data[i]?).map (putAt o bs i).getD := by
  rw [lineWrite, List.getElem?_mapIdx]
  congr 1
  funext b
  unfold putAt
  split
  · rcases bs[i - o]? with - | - | v <;> rfl
  · rfl

theorem getElem?_lineWrite_dirty (l : Line) (o : Nat) (bs : List (Option Byte)) (i : Nat) :
    (lineWrite l o bs).dirty[i]? = (l.dirty[i]?).map (· || (putAt o bs i).isSome) := by
  rw [lineWrite, List.getElem?_mapIdx]
  congr 1
  funext d
  unfold putAt
  by_cases hle : o ≤ i
  · rw [if_pos hle, decide_eq_true hle, Bool.true_and]
    rcases bs[i - o]? with - | - | v <;> rfl
  · rw [if_neg hle, decide_eq_false hle, Bool.false_and]
    rfl

/-- A write marks the bytes that it changes. -/
theorem LineOk.lineWrite {l : Line} (hl : LineOk s l) (o : Nat) (bs : List (Option Byte)) : LineOk s (lineWrite l o bs) := by
  refine ⟨(List.length_mapIdx).trans hl.data, (List.length_mapIdx).trans hl.dirty, fun i hi hclean => ?_⟩
  rw [getElem?_lineWrite_dirty, Option.map_eq_some_iff] at hclean
  obtain ⟨d, hd, hor⟩ := hclean
  obtain ⟨rfl, hput⟩ := Bool.or_eq_false_iff.mp hor
  have hkept : putAt o bs i = none := by simpa using hput
  rw [getElem?_lineWrite_data, hkept, hl.clean i hi hd]
  rfl

/-- Offsets in a line count as addresses do. -/
theorem putAt_offset (pa : Nat) (bs : List (Option Byte)) (a : Nat) (h : a / 128 = pa / 128) :
    putAt (pa % 128) bs (a % 128) = putAt pa bs a := by
  have hsub : a % 128 - pa % 128 = a - pa := by omega
  have hle : pa % 128 ≤ a % 128 ↔ pa ≤ a := by omega
  simp only [putAt, hsub, hle]

/-- A write within one line stores nothing outside it. -/
theorem putAt_other_line {pa : Nat} {bs : List (Option Byte)} (hfit : pa % 128 + bs.length ≤ 128) {a : Nat}
    (h : a / 128 ≠ pa / 128) : putAt pa bs a = none := by
  rw [putAt]
  split
  · rw [List.getElem?_eq_none (by omega)]
    rfl
  · rfl

/-- A line that showed what was stored is stored again with the bytes of a write. -/
theorem Stores.of_lineWrite {l : Line} {pa : Nat} {bs : List (Option Byte)} (htag : l.tag = pa / 128)
    (hfit : pa % 128 + bs.length ≤ 128) (hshow : Shows s l)
    (h : Stores s t (lineBytes (Machine.lineWrite l (pa % 128) bs))) : Stores s t (putAt pa bs) := by
  refine h.of_view fun a => ?_
  have same : (Machine.lineWrite l (pa % 128) bs).tag = l.tag := rfl
  rw [lineBytes, same]
  split
  · next ht =>
    rw [getElem?_lineWrite_data, putAt_offset pa bs a (ht.trans htag), hshow a ht]
    rfl
  · next ht => rw [putAt_other_line hfit (htag ▸ ht)]

/-- A write of bytes in one line stores them (R184). -/
theorem stores_l2Write (h : L2Ok s) (pa : Nat) (bs : List (Option Byte)) (hfit : pa % 128 + bs.length ≤ 128) :
    Stores s (l2Write s pa bs) (putAt pa bs) := by
  have hline := l2Line_spec h pa
  unfold l2Write
  generalize l2Line s pa = r at hline
  cases hline with
  | held t l hstores htag hheld =>
    have hok := (hheld.lineOk hstores.ok).lineWrite (pa % 128) bs
    have hput := (stores_l2Update hstores.ok hheld (lineWrite l (pa % 128) bs) rfl hok).1
    exact hstores.trans_none (hput.of_lineWrite htag hfit (shows_held hstores.ok hheld))
  | bad t l a hsame htag habsent hok hshows =>
    dsimp only
    generalize (List.range 16).foldl _ 0 = marks
    have hshow : Shows t { l with uncorr := marks } := fun a ha => by rw [hsame.l2View h]; exact hshows a ha
    have hokt : LineOk t { l with uncorr := marks } :=
      ⟨hok.data, hok.dirty, fun o ho hc => (hsame.lineOk hok).clean o ho hc⟩
    have hput := (stores_l2Install (hsame.l2Ok h) (hokt.lineWrite (pa % 128) bs) (hsame.absent habsent)).1
    exact (hsame.stores h).trans_none (hput.of_lineWrite htag hfit hshow)

/-! ### Writing in several lines -/

theorem putAt_past {pa : Nat} {bs : List (Option Byte)} {a : Nat} (h : pa + bs.length ≤ a) : putAt pa bs a = none := by
  rw [putAt, if_pos (by omega), List.getElem?_eq_none (by omega)]
  rfl

/-- Part of a write stores what the whole write stores there. -/
theorem putAt_part {pa lo : Nat} (bs : List (Option Byte)) (m a : Nat) (hlo : pa ≤ lo) :
    putAt lo ((bs.drop (lo - pa)).take m) a = if lo ≤ a ∧ a < lo + m then putAt pa bs a else none := by
  by_cases hle : lo ≤ a
  · have hsum : lo - pa + (a - lo) = a - pa := by omega
    have hlt : a - lo < m ↔ a < lo + m := by omega
    rw [putAt, if_pos hle, List.getElem?_take, List.getElem?_drop, hsum, putAt, if_pos (hlo.trans hle)]
    simp only [hlt, hle, true_and]
    by_cases hm : a < lo + m
    · rw [if_pos hm, if_pos hm]
    · rw [if_neg hm, if_neg hm]
      rfl
  · rw [putAt, if_neg hle, if_neg fun h => hle h.1]

/-- Piece i of n bytes at a PA: its address, its offset in the bytes and its length. -/
def linePiece (pa n i : Nat) : Nat × Nat × Nat :=
  (max pa ((pa / 128 + i) * 128), max pa ((pa / 128 + i) * 128) - pa,
    min (pa + n) ((pa / 128 + i + 1) * 128) - max pa ((pa / 128 + i) * 128))

/-- The pieces of an access are as many as the lines that it touches. -/
theorem linePieces_eq (pa n : Nat) :
    linePieces pa n = (List.range (if n = 0 then 0 else (pa % 128 + n + 127) / 128)).map (linePiece pa n) := rfl

/-- The first address past the first k pieces of n bytes at a PA. -/
def pieceEnd (pa n k : Nat) : Nat := max pa (min (pa + n) ((pa / 128 + k) * 128))

theorem pieceEnd_last (pa n : Nat) : pa + n ≤ pieceEnd pa n (if n = 0 then 0 else (pa % 128 + n + 127) / 128) := by
  unfold pieceEnd
  split <;> omega

/-- A write, piece by piece: after k pieces the bytes before their end are stored. -/
theorem stores_pieces (h : L2Ok s) (pa : Nat) (bs : List (Option Byte)) (k : Nat) :
    Stores s (((List.range k).map (linePiece pa bs.length)).foldl
        (fun s p => l2Write s p.1 ((bs.drop p.2.1).take p.2.2)) s)
      fun a => if a < pieceEnd pa bs.length k then putAt pa bs a else none := by
  induction k with
  | zero =>
    refine ((SameMemory.refl s).stores h).congr fun a => ?_
    split
    · next ha => exact putAt_before pa bs a (by unfold pieceEnd at ha; omega)
    · rfl
  | succ k ih =>
    rw [List.range_succ, List.map_append, List.foldl_append]
    simp only [List.map_cons, List.map_nil, List.foldl_cons, List.foldl_nil]
    refine (ih.trans (stores_l2Write ih.ok _ _ ?_)).congr fun a => ?_
    · rw [List.length_take]
      simp only [linePiece]
      omega
    · simp only [linePiece]
      rw [putAt_part bs _ a (Nat.le_max_left _ _)]
      by_cases hdone : a < pieceEnd pa bs.length k
      · rw [if_pos (by unfold pieceEnd at *; omega), if_neg (by unfold pieceEnd at *; omega), if_pos hdone, Option.none_or]
      · rw [if_neg hdone, Option.or_none]
        refine if_congr ?_ rfl rfl
        unfold pieceEnd at *
        omega

/-- A write of bytes through the L2 stores them, and nothing else. -/
theorem stores_l2WriteN (h : L2Ok s) (pa : Nat) (bs : List (Option Byte)) : Stores s (l2WriteN s pa bs) (putAt pa bs) := by
  rw [l2WriteN, linePieces_eq]
  refine (stores_pieces h pa bs _).congr fun a => ?_
  by_cases ha : a < pieceEnd pa bs.length (if bs.length = 0 then 0 else (pa % 128 + bs.length + 127) / 128)
  · rw [if_pos ha]
  · rw [if_neg ha, putAt_past ((pieceEnd_last pa bs.length).trans (Nat.le_of_not_lt ha))]

/-! ### Reading -/

/-- The state in which correctable words of a line have been reported, and the line is stored without their marks. -/
def correctWords (s : State) (l : Line) (ws : List Nat) : State :=
  let u := ws.foldl (fun s w => eccReport s Reg.l2cEvents 0 Reg.l2cEccAddrLo (l.tag * 128 + 8 * w) Reg.l2cEccCorrCount) s
  if ws = [] then u else l2Update u { l with corr := ws.foldl (fun c w => c - 2 ^ w) l.corr }

theorem l2CheckWords_state (s : State) (l : Line) (o n : Nat) :
    ∃ ws, SameMemory (correctWords s l ws) (l2CheckWords s l o n).1 := by
  refine ⟨((List.range 16).filter fun w => decide (o < 8 * w + 8) && decide (8 * w < o + n)).filter
    fun w => l.corr.testBit w, ?_⟩
  unfold l2CheckWords
  dsimp only
  split
  · exact sameMemory_eccReport _ ..
  · exact .refl _

/-- A corrected line keeps its bytes. -/
theorem stores_correctWords (h : L2Ok s) {l : Line} (hl : Held s l) (ws : List Nat) :
    Stores s (correctWords s l ws) fun _ => none := by
  unfold correctWords
  dsimp only
  have reports : SameMemory s (ws.foldl (fun s w =>
      eccReport s Reg.l2cEvents 0 Reg.l2cEccAddrLo (l.tag * 128 + 8 * w) Reg.l2cEccCorrCount) s) :=
    .foldl _ ws s fun v w _ => sameMemory_eccReport v ..
  split
  · exact reports.stores h
  · have hok := reports.l2Ok h
    have held := reports.held hl
    obtain ⟨hdata, hdirty, hclean⟩ := held.lineOk hok
    have hput := (stores_l2Update hok held { l with corr := ws.foldl (fun c w => c - 2 ^ w) l.corr } rfl
      ⟨hdata, hdirty, hclean⟩).1
    exact (reports.stores h).trans_none (hput.of_shows fun a ha => shows_held hok held a ha)

/-- A read in one line stores nothing. -/
theorem stores_l2Read (h : L2Ok s) (pa n : Nat) : Stores s (l2Read s pa n).1 fun _ => none := by
  have hline := l2Line_spec h pa
  unfold l2Read
  generalize l2Line s pa = r at hline
  cases hline with
  | held t l hstores htag hheld =>
    obtain ⟨ws, hws⟩ := l2CheckWords_state t l (pa % 128) n
    exact hstores.trans_none ((stores_correctWords hstores.ok hheld ws).then_same hws)
  | bad t l a hsame htag habsent hok hshows => exact hsame.stores h

/-- A read through the L2 stores nothing. -/
theorem stores_l2ReadN (h : L2Ok s) (pa n : Nat) : Stores s (l2ReadN s pa n).1 fun _ => none :=
  List.foldlRecOn (motive := fun acc : State × List Byte × Option Nat => Stores s acc.1 fun _ => none) (linePieces pa n) _
    ((SameMemory.refl s).stores h) fun _ hacc p _ => hacc.trans_none (stores_l2Read hacc.ok p.1 p.2.2)

end

end Sys2Proof.Machine
end

section
/-!
The statements on BAR4: what a write changes of device memory as read through the L2, and that a read changes none of it
(R89, R93, R103).
-/

namespace Sys2Proof.Machine

/-! ### The end of a request -/

section
variable {s u : State} {p : Nat → Option Byte}

theorem served_same (h : SameMemory s u) : ∃ t, served s u = .next t ∧ SameMemory s t := by
  cases hr : hiuRunning s with
  | true => exact ⟨_, served_running s u hr, h.trans (sameMemory_after s u)⟩
  | false => exact ⟨s, served_stopped s u hr, .refl s⟩

theorem served_stores_none (hs : L2Ok s) (h : Stores s u fun _ => none) :
    ∃ t, served s u = .next t ∧ Stores s t fun _ => none := by
  cases hr : hiuRunning s with
  | true => exact ⟨_, served_running s u hr, h.then_same (sameMemory_after s u)⟩
  | false => exact ⟨s, served_stopped s u hr, (SameMemory.refl s).stores hs⟩

end

section
variable (s : State)

theorem sameMemory_holdRequest (base : Nat) (i : Instr) : SameMemory s (holdRequest base i s) :=
  .ite _ (sameMemory_onHiu s _) (sameMemory_onHiu s _)

/-! ### A BAR4 write -/

theorem sameMemory_sendData (r : TwinRec) : SameMemory s (sendData s r) := .of_eq rfl rfl

theorem usable_sendData (r : TwinRec) : usable (sendData s r) = usable s := by
  have hregs : ∀ off, off ≠ Reg.hltMirrorQueue → rd (sendData s r) off = rd s off := fun off ho => rd_wr_ne _ _ _ _ ho
  rw [usable, usable, rd64, rd64, rdN, rdN, rdN, rdN, hregs _ (by decide), hregs _ (by decide)]

/-- Mirror records go to the twin's queue, beside memory. -/
theorem mirrored_spec (rs : List TwinRec) : SameMemory s (rs.foldl sendData s) ∧ usable (rs.foldl sendData s) = usable s :=
  List.foldlRecOn (motive := fun u => SameMemory s u ∧ usable u = usable s) rs sendData ⟨.refl s, rfl⟩
    fun u hu r _ => ⟨hu.1.trans (sameMemory_sendData u r), (usable_sendData u r).trans hu.2⟩

theorem bar4Write_notReady (base off : Nat) (bytes : List (Option Byte)) (h : ready s = false) :
    bar4Write s base off bytes = hiuErr s 6 off (firstBe off bytes) 2 := by simp [bar4Write, h]

theorem bar4Write_dropped (base off : Nat) (bytes : List (Option Byte)) (h : ready s = true) (hd : hostDropped s = true) :
    bar4Write s base off bytes = hostDrop s := by simp [bar4Write, h, hd]

/-- A write that is discarded leaves memory as it was (R103, R536). -/
theorem sameMemory_bar4Write (base off : Nat) (bytes : List (Option Byte)) (h : ready s = false ∨ hostDropped s = true) :
    SameMemory s (bar4Write s base off bytes) := by
  cases hr : ready s with
  | false =>
    rw [bar4Write_notReady s base off bytes hr]
    exact sameMemory_hiuErr s ..
  | true =>
    rw [bar4Write_dropped s base off bytes hr (h.resolve_left (by simp [hr]))]
    exact (sameMemory_wr s _ _).trans (sameMemory_setEv _ _ _)

/-- A write that is taken in stores its bytes below usable DRAM (R89, R93). -/
theorem stores_bar4Write (h : L2Ok s) (base off : Nat) (bytes : List (Option Byte)) (hr : ready s = true)
    (hd : hostDropped s = false) : Stores s (bar4Write s base off bytes)
      (putAt (bar4Addr s base off) (bytes.take (usable s - bar4Addr s base off))) := by
  obtain ⟨hsent, husable⟩ := mirrored_spec s (mirrorWrites s (bar4Addr s base off) bytes)
  have hput := (hsent.stores h).trans_none (stores_l2WriteN (hsent.l2Ok h) (bar4Addr s base off)
    (bytes.take (usable s - bar4Addr s base off)))
  simp only [bar4Write, hr, hd, Bool.not_true, Bool.false_eq_true, if_false, husable]
  exact hput.then_same (.ite _ (sameMemory_hiuErr _ ..) (.refl _))

end

section
variable (s : State) (off : BitVec 32) (bytes : List (Option Byte))

/-- What a write that is taken in stores, as a write of bytes at its PA. -/
theorem bar4Stored_taken (h : bar4Taken s off bytes = true) (a : Nat) : bar4Stored s off bytes a =
    putAt (bar4Addr s (bar4Base s) off.toNat) (bytes.take (usable s - bar4Addr s (bar4Base s) off.toNat)) a := by
  rw [bar4Stored, bar4Target, putAt]
  by_cases hle : bar4Addr s (bar4Base s) off.toNat ≤ a
  · have hlt : a - bar4Addr s (bar4Base s) off.toNat < usable s - bar4Addr s (bar4Base s) off.toNat ↔ a < usable s := by
      omega
    simp only [h, hle, true_and, if_true, List.getElem?_take, hlt]
    split <;> rfl
  · simp only [hle, false_and, and_false, if_false]

theorem bar4Stored_untaken (h : bar4Taken s off bytes = false) (a : Nat) : bar4Stored s off bytes a = none := by
  simp [bar4Stored, h]

/-- What BAR4_WRITE does while the HIU runs: it waits for room for its mirror records or behind another request, or it
acts. -/
def bar4WriteEffect : State :=
  if s.hiu.posted.isEmpty && !bar4Fits s (bar4Base s) off.toNat bytes &&
      decide (payloadBytes (.bar4Write off bytes) ≤ maxPayload s)
  then onHiu s fun h => { h with posted := [(.bar4Write off bytes, bar4Base s)] }
  else if s.hiu.posted.isEmpty
  then ifPayloadFits (.bar4Write off bytes) (fun u => bar4Write u (bar4Base s) off.toNat bytes) s
  else holdRequest (bar4Base s) (.bar4Write off bytes) s

theorem exec_bar4Write : exec (.bar4Write off bytes) s = served s (bar4WriteEffect s off bytes) := by
  show bar4WriteVia (bar4Base s) off bytes s = _
  unfold bar4WriteVia bar4WriteEffect
  dsimp only
  split <;> rfl

/-- Where it is not taken in, it leaves memory as it was. -/
theorem sameMemory_bar4WriteEffect (hrun : hiuRunning s = true) (h : bar4Taken s off bytes = false) :
    SameMemory s (bar4WriteEffect s off bytes) := by
  unfold bar4WriteEffect
  split
  · exact sameMemory_onHiu s _
  · next hfits =>
    split
    · next hposted =>
      unfold ifPayloadFits
      split
      · next hpayload =>
        refine sameMemory_bar4Write s _ _ _ ?_
        simp only [hposted, hpayload, Bool.true_and, decide_true, Bool.and_true, Bool.not_eq_true', Bool.not_eq_false] at hfits
        simp only [bar4Taken, hrun, hposted, hpayload, hfits, decide_true, Bool.true_and, Bool.and_eq_false_iff,
          Bool.not_eq_false'] at h
        exact h
      · exact .of_eq rfl rfl
    · exact sameMemory_holdRequest s _ _

/-- BAR4_WRITE that is not taken in now leaves memory as it was. -/
theorem exec_bar4Write_untaken (h : bar4Taken s off bytes = false) :
    ∃ t, exec (.bar4Write off bytes) s = .next t ∧ SameMemory s t := by
  rw [exec_bar4Write]
  cases hrun : hiuRunning s with
  | true => exact served_same (sameMemory_bar4WriteEffect s off bytes hrun h)
  | false => exact ⟨s, served_stopped s _ hrun, .refl s⟩

/-- BAR4_WRITE that is taken in now acts at once. -/
theorem exec_bar4Write_taken (h : bar4Taken s off bytes = true) :
    exec (.bar4Write off bytes) s = .next (after s (bar4Write s (bar4Base s) off.toNat bytes)) ∧ ready s = true ∧
      hostDropped s = false := by
  simp only [bar4Taken, Bool.and_eq_true, decide_eq_true_eq, List.isEmpty_iff, Bool.not_eq_true'] at h
  obtain ⟨⟨⟨⟨⟨hrun, hposted⟩, hpayload⟩, hfits⟩, hready⟩, hdropped⟩ := h
  exact ⟨exec_bar4Write_of_fits s off bytes ⟨hrun, hposted⟩ hfits hpayload, hready, hdropped⟩

end

/-- Settles O47: a write that is taken in stores its bytes through the L2, any other one leaves memory as it was. -/
theorem bar4WriteChangesOnlyItsBytes : Obligations.Bar4WriteChangesOnlyItsBytes := by
  intro s off bytes hs
  suffices hstores : ∃ t, exec (.bar4Write off bytes) s = .next t ∧ Stores s t (bar4Stored s off bytes) by
    obtain ⟨t, hexec, hok, hwf, hview⟩ := hstores
    exact ⟨t, hexec, hok, hwf, hview⟩
  cases htaken : bar4Taken s off bytes with
  | true =>
    obtain ⟨hexec, hready, hdropped⟩ := exec_bar4Write_taken s off bytes htaken
    have hput := stores_bar4Write s hs (bar4Base s) off.toNat bytes hready hdropped
    exact ⟨_, hexec, (hput.then_same (sameMemory_after s _)).congr (bar4Stored_taken s off bytes htaken)⟩
  | false =>
    obtain ⟨t, hexec, hsame⟩ := exec_bar4Write_untaken s off bytes htaken
    exact ⟨t, hexec, (hsame.stores hs).congr (bar4Stored_untaken s off bytes htaken)⟩

/-! ### A BAR4 read -/

/-- A read stores nothing, whether it is answered before READY, in part beyond usable DRAM or in full. -/
theorem stores_bar4Read {s : State} (h : L2Ok s) (base off n : Nat) : Stores s (bar4Read s base off n) fun _ => none := by
  have fetched : Stores s (bar4Fetch s base off n (firstDwBe off n)).1 fun _ => none := by
    unfold bar4Fetch
    split
    · exact (sameMemory_hiuErr s ..).stores h
    · exact (stores_l2ReadN h _ _).then_same (.ite _ (sameMemory_hiuErr _ ..) (.refl _))
  exact fetched.then_same (.of_eq rfl rfl)

/-- Settles O48: the read acts at once and stores nothing, or waits, which changes the host interface alone. -/
theorem bar4ReadLeavesMemory : Obligations.Bar4ReadLeavesMemory := by
  intro s off len hs
  have heffect : Stores s (if s.hiu.posted.isEmpty then bar4Read s (bar4Base s) off.toNat len.val
      else holdRequest (bar4Base s) (.bar4Read off len) s) fun _ => none := by
    split
    · exact stores_bar4Read hs _ _ _
    · exact (sameMemory_holdRequest s _ _).stores hs
  obtain ⟨t, hexec, hok, hwf, hview⟩ := served_stores_none hs heffect
  exact ⟨t, hexec, hok, hwf, hview⟩

end Sys2Proof.Machine
end

section
/-!
The interrupt rule (R100, R101, R536): what it leaves as it was, what it makes of each vector, and which messages it sends.
-/

namespace Sys2Proof.Machine

/-! ### What the rule reads -/

theorem rd0_wr_ne (s : State) (a b : Nat) (v : Word) (h : b ≠ a) : rd0 (wr s a v) b = rd0 s b := by
  rw [rd0, rd0, wr_regs, storePut]
  split
  · exact storeGet_erase_ne _ _ _ _ h
  · rw [storeGet_insert_ne _ _ _ _ _ h, storeGet_erase_ne _ _ _ _ h]

/-- A register of outstanding bits. -/
def isIrqAck (off : Nat) : Prop := ∃ i < 4, off = Reg.hiuIrqAck i

/-- Two states agree in all that the interrupt rule reads beside the outstanding bits and the PBA. -/
structure SameCauses (s t : State) : Prop where
  regs : ∀ off, ¬ isIrqAck off → rd0 t off = rd0 s off
  hiu : ∃ m p, t.hiu = { s.hiu with msgs := m, pba := p }

namespace SameCauses

variable {s t u : State}

theorem refl (s : State) : SameCauses s s := ⟨fun _ _ => rfl, _, _, rfl⟩

theorem trans (h : SameCauses s t) (k : SameCauses t u) : SameCauses s u := by
  obtain ⟨m, p, ht⟩ := h.hiu
  obtain ⟨n, q, hu⟩ := k.hiu
  exact ⟨fun off ho => (k.regs off ho).trans (h.regs off ho), n, q, by rw [hu, ht]⟩

theorem evAnd_eq (h : SameCauses s t) (ev en : Nat) (hev : ¬ isIrqAck ev) (hen : ¬ isIrqAck en) :
    evAnd t ev en = evAnd s ev en := by rw [evAnd, h.regs ev hev, h.regs en hen, evAnd]

end SameCauses

theorem not_isIrqAck_above {off : Nat} (h : 0x30 ≤ off) : ¬ isIrqAck off := by
  rintro ⟨i, hi, rfl⟩
  simp only [Reg.hiuIrqAck] at h
  omega

theorem not_isIrqAck_below {off : Nat} (h : off < 0x20) : ¬ isIrqAck off := by
  rintro ⟨i, hi, rfl⟩
  simp only [Reg.hiuIrqAck] at h
  omega

/-- The drop of a SECONDARY is read from two registers that are no outstanding bits (R536). -/
theorem hostDropped_of_regs {s t : State} (h : ∀ off, ¬ isIrqAck off → rd0 t off = rd0 s off) :
    hostDropped t = hostDropped s := by
  have role : twinRole t = twinRole s := by
    rw [twinRole, h Reg.hltTwinCtrl (not_isIrqAck_above (by decide)), twinRole]
  have state : twinState t = twinState s := by
    rw [twinState, h Reg.hltTwinStatus (not_isIrqAck_above (by decide)), twinState]
  rw [hostDropped, role, state, hostDropped]

section
variable {s t : State} (h : SameCauses s t)
include h

theorem irqCause_same (v : Nat) : irqCause t v = irqCause s v := by
  have ev : ∀ e n, 0x30 ≤ e → 0x30 ≤ n → evAnd t e n = evAnd s e n := fun e n he hn =>
    h.evAnd_eq e n (not_isIrqAck_above he) (not_isIrqAck_above hn)
  have hiu : evAnd t Reg.hiuErr Reg.hiuErrEn = evAnd s Reg.hiuErr Reg.hiuErrEn :=
    h.evAnd_eq _ _ (not_isIrqAck_below (by decide)) (not_isIrqAck_below (by decide))
  have above : ∀ off, 0x30 ≤ off → rd0 t off = rd0 s off := fun off ho => h.regs off (not_isIrqAck_above ho)
  have csi : ∀ n, evAnd t (Reg.csiErr n) (Reg.csiErrEn n) = evAnd s (Reg.csiErr n) (Reg.csiErrEn n) := fun n =>
    ev _ _ (by simp only [Reg.csiErr]; omega) (by simp only [Reg.csiErrEn]; omega)
  have sheet : ∀ n, evAnd t (Reg.sheetEvents n) (Reg.sheetEventEn n) = evAnd s (Reg.sheetEvents n) (Reg.sheetEventEn n) :=
    fun n => ev _ _ (by simp only [Reg.sheetEvents]; omega) (by simp only [Reg.sheetEventEn]; omega)
  have edge : ∀ b, rd0 t (Reg.pinEdge b) = rd0 s (Reg.pinEdge b) := fun b => above _ (by simp only [Reg.pinEdge]; omega)
  have sw : t.hiu.swCause = s.hiu.swCause := by
    obtain ⟨m, p, ht⟩ := h.hiu
    rw [ht]
  unfold irqCause
  split
  case h_1 => exact hiu
  case h_8 => simp only [csi]
  case h_15 => simp only [edge, ev _ _ (show 0x30 ≤ Reg.pinEvents by decide) (show 0x30 ≤ Reg.pinEventEn by decide)]
  case h_16 =>
    simp only [sheet, ev _ _ (show 0x30 ≤ Reg.l2cEvents by decide) (show 0x30 ≤ Reg.l2cEventEn by decide),
      ev _ _ (show 0x30 ≤ Reg.memEvents by decide) (show 0x30 ≤ Reg.memEventEn by decide)]
  case h_17 =>
    simp only [above _ (show 0x30 ≤ Reg.cfeCqEvent0 by decide), above _ (show 0x30 ≤ Reg.cfeCqEventEn0 by decide),
      above _ (show 0x30 ≤ Reg.cfeCqEvent1 by decide), above _ (show 0x30 ≤ Reg.cfeCqEventEn1 by decide), sw]
  case h_7 =>
    rw [ev Reg.dspEvents Reg.dspEventEn (by decide) (by decide),
      ev Reg.dspRaceEvents Reg.dspRaceEventEn (by decide) (by decide)]
  all_goals exact ev _ _ (by decide) (by decide)

theorem hostDropped_same : hostDropped t = hostDropped s := hostDropped_of_regs h.regs

theorem msixWord_same (k : Nat) : msixWord t k = msixWord s k := by
  obtain ⟨m, p, ht⟩ := h.hiu
  rw [msixWord, msixWord, ht]

theorem irqMasked_same (v : Nat) : irqMasked t v = irqMasked s v := by
  have entry := msixWord_same h (4 * v + 3)
  obtain ⟨m, p, ht⟩ := h.hiu
  rw [irqMasked, irqMasked, entry, ht]

end

/-! ### Outstanding bits -/

theorem bit_ofNat_two_pow {n : Nat} (v w : Nat) (hw : w < n) : bit (BitVec.ofNat n (2 ^ v)) w = decide (v = w) := by
  rw [bit, BitVec.getLsbD_ofNat, decide_eq_true hw, Bool.true_and, Nat.testBit_two_pow]

theorem bit_or {n : Nat} (x y : BitVec n) (i : Nat) : bit (x ||| y) i = (bit x i || bit y i) := BitVec.getLsbD_or ..

theorem bit_clear {n : Nat} (x y : BitVec n) (i : Nat) (hi : i < n) : bit (x &&& ~~~ y) i = (bit x i && !bit y i) := by
  rw [bit, BitVec.getLsbD_and, BitVec.getLsbD_not, decide_eq_true hi, Bool.true_and]
  rfl

section
variable (s : State)

theorem rd0_hiuIrqAck (i : Nat) (hi : i < 4) : rd0 s (Reg.hiuIrqAck i) = rd s (Reg.hiuIrqAck i) :=
  rd0_eq_rd s _ ((by decide +kernel : ∀ i < 4, regReset (Reg.hiuIrqAck i) = 0) i hi)

theorem irqOutstanding_eq (v : Nat) (hv : v < 128) : irqOutstanding s v = bit (rd s (Reg.hiuIrqAck (v / 32))) (v % 32) := by
  rw [irqOutstanding, rd0_hiuIrqAck s _ (by omega)]

theorem irqOutstanding_irqMark (v w : Nat) (hw : w < 128) :
    irqOutstanding (irqMark s v) w = (irqOutstanding s w || decide (v = w)) := by
  rw [irqOutstanding_eq _ w hw, irqOutstanding_eq s w hw, irqMark, rd_wr]
  by_cases hword : w / 32 = v / 32
  · have hbit : v % 32 = w % 32 ↔ v = w := by omega
    rw [if_pos (by rw [hword]), bit_or, bit_ofNat_two_pow _ _ (Nat.mod_lt _ (by decide)), hword]
    simp only [hbit]
  · have hne : Reg.hiuIrqAck (w / 32) ≠ Reg.hiuIrqAck (v / 32) := by simp only [Reg.hiuIrqAck]; omega
    have hvw : v ≠ w := fun e => hword (by rw [e])
    rw [if_neg hne, decide_eq_false hvw, Bool.or_false]

theorem sameCauses_irqMark (v : Nat) (hv : v < 128) : SameCauses s (irqMark s v) :=
  ⟨fun off ho => rd0_wr_ne s _ off _ fun e => ho ⟨v / 32, by omega, e⟩, _, _, rfl⟩

theorem sameCauses_irqSend (v : Nat) : SameCauses s (irqSend s v) := ⟨fun _ _ => rfl, _, _, rfl⟩

/-! ### One vector -/

/-- Whether the rule makes a vector outstanding (R100, R536). -/
def irqRaises (v : Nat) : Bool := irqCause s v && !irqOutstanding s v && !(decide (v < 64) && hostDropped s)

/-- The message of a vector's table entry. -/
def irqMessage (v : Nat) : DWord × Word :=
  (BitVec.ofNat 64 ((msixWord s (4 * v)).toNat + 2 ^ 32 * (msixWord s (4 * v + 1)).toNat), msixWord s (4 * v + 2))

/-- What the rule makes of vector v: its outstanding bit and its message. -/
structure VectorSettled (s t : State) (v : Nat) : Prop where
  causes : SameCauses s t
  outstanding : ∀ w < 128, irqOutstanding t w = (irqOutstanding s w || (decide (v = w) && irqRaises s v))
  held : bit t.hiu.pba v = true → irqMasked s v = true
  others : ∀ w < 128, v ≠ w → bit t.hiu.pba w = bit s.hiu.pba w
  kept : ∀ m ∈ s.hiu.msgs, m ∈ t.hiu.msgs
  sent : irqRaises s v = true → irqMasked s v = false → irqMessage s v ∈ t.hiu.msgs

/-- A vector becomes outstanding, or it does not. -/
theorem irqRaise_spec (v : Nat) (hv : v < 128) : SameCauses s (irqRaise s v) ∧
    (∀ w < 128, irqOutstanding (irqRaise s v) w = (irqOutstanding s w || (decide (v = w) && irqRaises s v))) ∧
    (∀ w < 128, v ≠ w → bit (irqRaise s v).hiu.pba w = bit s.hiu.pba w) ∧
    (∀ m ∈ s.hiu.msgs, m ∈ (irqRaise s v).hiu.msgs) ∧
    (irqRaises s v = true → irqMasked s v = false → irqMessage s v ∈ (irqRaise s v).hiu.msgs) := by
  have mark := sameCauses_irqMark s v hv
  unfold irqRaise
  rw [← irqRaises]
  cases hr : irqRaises s v with
  | false =>
    rw [if_neg Bool.false_ne_true]
    exact ⟨.refl s, fun w _ => by simp, fun _ _ _ => rfl, fun _ hm => hm, fun h => absurd h Bool.false_ne_true⟩
  | true =>
    have outstanding : ∀ w < 128, irqOutstanding (irqMark s v) w = (irqOutstanding s w || (decide (v = w) && true)) :=
      fun w hw => by rw [irqOutstanding_irqMark s v w hw, Bool.and_true]
    rw [if_pos rfl]
    dsimp only
    rw [irqMasked_same mark v]
    cases hm : irqMasked s v with
    | true =>
      refine ⟨mark.trans ⟨fun _ _ => rfl, _, _, rfl⟩, outstanding, fun w hw hne => ?_, fun _ hm => hm,
        fun _ h => by cases h⟩
      rw [if_pos rfl]
      show bit (s.hiu.pba ||| BitVec.ofNat 128 (2 ^ v)) w = bit s.hiu.pba w
      rw [bit_or, bit_ofNat_two_pow _ _ hw, decide_eq_false hne, Bool.or_false]
    | false =>
      rw [if_neg Bool.false_ne_true]
      refine ⟨mark.trans (sameCauses_irqSend _ v), outstanding, fun _ _ _ => rfl,
        fun m hm => List.mem_append_left _ hm, fun _ _ => ?_⟩
      exact List.mem_append_right _ (List.mem_singleton.mpr rfl)

/-- A held message goes once its vector is no longer masked. -/
theorem irqRelease_spec (v : Nat) : SameCauses s (irqRelease s v) ∧
    (∀ w, irqOutstanding (irqRelease s v) w = irqOutstanding s w) ∧
    (v < 128 → bit (irqRelease s v).hiu.pba v = true → irqMasked s v = true) ∧
    (∀ w < 128, v ≠ w → bit (irqRelease s v).hiu.pba w = bit s.hiu.pba w) ∧
    (∀ m ∈ s.hiu.msgs, m ∈ (irqRelease s v).hiu.msgs) := by
  unfold irqRelease
  split
  · refine ⟨⟨fun _ _ => rfl, _, _, rfl⟩, fun _ => rfl, fun hv h => ?_, fun w hw hne => ?_,
      fun m hm => List.mem_append_left _ hm⟩
    · have cleared : bit (s.hiu.pba &&& ~~~ BitVec.ofNat 128 (2 ^ v)) v = true := h
      rw [bit_clear _ _ _ hv, bit_ofNat_two_pow _ _ hv, decide_eq_true rfl, Bool.not_true, Bool.and_false] at cleared
      cases cleared
    · show bit (s.hiu.pba &&& ~~~ BitVec.ofNat 128 (2 ^ v)) w = bit s.hiu.pba w
      rw [bit_clear _ _ _ hw, bit_ofNat_two_pow _ _ hw, decide_eq_false hne, Bool.not_false, Bool.and_true]
  · next hn =>
    refine ⟨.refl s, fun _ => rfl, fun _ h => ?_, fun _ _ _ => rfl, fun _ hm => hm⟩
    rw [h, Bool.true_and, Bool.not_eq_true', Bool.not_eq_false] at hn
    exact hn

theorem irqVector_spec (v : Nat) (hv : v < 128) : VectorSettled s (irqVector s v) v := by
  obtain ⟨rc, ro, rp, rm, rs⟩ := irqRaise_spec s v hv
  obtain ⟨lc, lo, lh, lp, lm⟩ := irqRelease_spec (irqRaise s v) v
  refine ⟨rc.trans lc, fun w hw => (lo w).trans (ro w hw), fun h => ?_, fun w hw hne => ?_, fun m hm => lm m (rm m hm),
    fun hr hm => lm _ (rs hr hm)⟩
  · rw [← irqMasked_same rc]
    exact lh hv h
  · exact (lp w hw hne).trans (rp w hw hne)

/-! ### All vectors -/

/-- What the rule makes of the vectors below n. -/
structure Settled (s t : State) (n : Nat) : Prop where
  causes : SameCauses s t
  outstanding : ∀ w < 128, irqOutstanding t w = (irqOutstanding s w || (decide (w < n) && irqRaises s w))
  held : ∀ w < n, bit t.hiu.pba w = true → irqMasked s w = true
  sent : ∀ w < n, irqRaises s w = true → irqMasked s w = false → irqMessage s w ∈ t.hiu.msgs

variable {s} in
/-- What is decided of a vector before its turn is what the state before the rule says. -/
theorem Settled.irqRaises_next {t : State} {n : Nat} (h : Settled s t n) (hn : n < 128) : irqRaises t n = irqRaises s n := by
  rw [irqRaises, irqRaises, irqCause_same h.causes, hostDropped_same h.causes, h.outstanding n hn,
    decide_eq_false (Nat.lt_irrefl n), Bool.false_and, Bool.or_false]

variable {s} in
theorem Settled.next {t : State} {n : Nat} (h : Settled s t n) (hn : n < 128) : Settled s (irqVector t n) (n + 1) := by
  have k := irqVector_spec t n hn
  have raises := h.irqRaises_next hn
  have masked := irqMasked_same h.causes
  have message : irqMessage t n = irqMessage s n := by simp only [irqMessage, msixWord_same h.causes]
  refine ⟨h.causes.trans k.causes, fun w hw => ?_, fun w hw hp => ?_, fun w hw hr hm => ?_⟩
  · rw [k.outstanding w hw, h.outstanding w hw, raises]
    rcases Nat.lt_trichotomy w n with hlt | rfl | hgt
    · rw [decide_eq_true hlt, decide_eq_true (Nat.lt_succ_of_lt hlt), decide_eq_false (Nat.ne_of_gt hlt),
        Bool.false_and, Bool.or_false]
    · rw [decide_eq_true rfl, decide_eq_true (Nat.lt_succ_self w), decide_eq_false (Nat.lt_irrefl w),
        Bool.false_and, Bool.or_false]
    · rw [decide_eq_false (by omega : ¬ w < n), decide_eq_false (by omega : ¬ w < n + 1),
        decide_eq_false (by omega : ¬ n = w), Bool.false_and, Bool.false_and, Bool.or_false]
  · rcases Nat.lt_succ_iff_lt_or_eq.mp hw with hlt | rfl
    · exact h.held w hlt (by rwa [← k.others w (by omega) (by omega)])
    · rw [← masked]
      exact k.held hp
  · rcases Nat.lt_succ_iff_lt_or_eq.mp hw with hlt | rfl
    · exact k.kept _ (h.sent w hlt hr hm)
    · rw [← message]
      exact k.sent (raises.trans hr) ((masked w).trans hm)

theorem settled_range (n : Nat) (hn : n ≤ 128) : Settled s ((List.range n).foldl irqVector s) n := by
  induction n with
  | zero =>
    exact ⟨.refl s, fun w _ => by simp, fun w hw => absurd hw (Nat.not_lt_zero w),
      fun w hw => absurd hw (Nat.not_lt_zero w)⟩
  | succ n ih =>
    rw [List.range_succ, List.foldl_append]
    exact (ih (by omega)).next (by omega)

/-- The interrupt rule settles the 128 vectors. -/
theorem irqSettle_spec : Settled s (irqSettle s) 128 := settled_range s 128 (Nat.le_refl _)

/-- A vector is outstanding after the rule if it was before, or if it has a cause and is not held back (R100, R536). -/
theorem irqOutstanding_irqSettle (v : Nat) (hv : v < 128) : irqOutstanding (irqSettle s) v =
    (irqOutstanding s v || (irqCause s v && !(decide (v < 64) && hostDropped s))) := by
  rw [(irqSettle_spec s).outstanding v hv, decide_eq_true hv, Bool.true_and, irqRaises]
  cases irqOutstanding s v <;> simp

/-- Settles O39: each vector's turn decides its outstanding bit and its PBA bit, and later turns leave both. -/
theorem everyCauseBecomesOutstanding : Obligations.EveryCauseBecomesOutstanding := by
  intro s v hv
  have h := irqSettle_spec s
  refine ⟨irqCause_same h.causes v, irqOutstanding_irqSettle s v hv, fun hp => ?_⟩
  rw [irqMasked_same h.causes]
  exact h.held v hv hp

end

end Sys2Proof.Machine
end

section
/-!
The statements on the registers of the interrupt rule: software vectors (R102) and acknowledgements (R100).
-/

namespace Sys2Proof.Machine

variable {s t : State} {offs : List Nat}

/-! ### The vectors after a command -/

theorem sameCauses_ended (s u : State) : SameCauses u (confine s (conSettle u)) := ⟨fun _ _ => rfl, _, _, rfl⟩

theorem irqOutstanding_ended (s u : State) (v : Nat) : irqOutstanding (confine s (conSettle u)) v = irqOutstanding u v := rfl

/-- The vectors after a command that changes registers and the host interface are those after the interrupt rule. -/
theorem RegsOnly.irqOutstanding_after (h : RegsOnly s t offs) (v : Nat) (hv : v < 128) : irqOutstanding (after s t) v =
    (irqOutstanding t v || (irqCause t v && !(decide (v < 64) && hostDropped t))) := by
  rw [after, cycleEnd_same s t h.padOutputs_eq, irqOutstanding_ended, irqOutstanding_irqSettle t v hv]

theorem RegsOnly.irqCause_after (h : RegsOnly s t offs) (v : Nat) : irqCause (after s t) v = irqCause t v := by
  rw [after, cycleEnd_same s t h.padOutputs_eq, irqCause_same (sameCauses_ended s _), irqCause_same (irqSettle_spec t).causes]

theorem RegsOnly.msgs_after (h : RegsOnly s t offs) : (after s t).hiu.msgs = (irqSettle t).hiu.msgs := by
  rw [after, cycleEnd_same s t h.padOutputs_eq, confine_hiu, conSettle_hiu]

/-- The causes of vectors 80 to 127 are software's. -/
theorem irqCause_software (s : State) (v : Nat) (hv : 80 ≤ v) : irqCause s v = bit s.hiu.swCause v := by
  unfold irqCause
  split
  case h_17 => rw [if_neg (by omega), if_neg (by omega)]
  all_goals omega

/-! ### Software vectors -/

theorem exec_hiuSwint (s : State) (v : Word) (h : HostServes s) : exec (.hiuSwint v) s = .next (after s (swInt s v)) :=
  viaHiu_now _ (swInt · v) s h

theorem swInt_ignored (s : State) (v : Word) (h : fld v 0 7 < 80) : swInt s v = s := by
  rw [swInt]
  exact if_neg (by omega)

theorem swInt_raises (s : State) (v : Word) (h : 80 ≤ fld v 0 7) :
    swInt s v = onHiu s fun x => { x with swCause := x.swCause ||| BitVec.ofNat 128 (2 ^ fld v 0 7) } := by
  rw [swInt]
  exact if_pos h

theorem fld_seven_lt (v : Word) : fld v 0 7 < 128 := by
  unfold fld
  exact Nat.mod_lt _ (by decide)

/-- Settles O40: the cause is set, and the interrupt rule makes the vector outstanding and sends its message. -/
theorem softwareVectorsAreRaised : Obligations.SoftwareVectorsAreRaised := by
  intro s v hs
  refine ⟨fun hlow => ?_, fun hhigh => ?_⟩
  · rw [exec_hiuSwint s v hs, swInt_ignored s v hlow]
  · have hlt := fld_seven_lt v
    refine ⟨_, (exec_hiuSwint s v hs).trans (next_after (swInt_raises s v hhigh)), ?_⟩
    generalize fld v 0 7 = n at hhigh hlt
    have only : RegsOnly s (onHiu s fun x => { x with swCause := x.swCause ||| BitVec.ofNat 128 (2 ^ n) }) [] :=
      (RegsOnly.refl s []).onHiu _
    generalize hu : (onHiu s fun x => { x with swCause := x.swCause ||| BitVec.ofNat 128 (2 ^ n) }) = u at only
    have hsw : u.hiu.swCause = s.hiu.swCause ||| BitVec.ofNat 128 (2 ^ n) := by rw [← hu]; rfl
    have cause : irqCause u n = true := by
      rw [irqCause_software u n hhigh, hsw, bit_or, bit_ofNat_two_pow n n hlt, decide_eq_true rfl, Bool.or_true]
    have free : (!(decide (n < 64) && hostDropped u)) = true := by rw [decide_eq_false (by omega)]; rfl
    obtain ⟨hregs, hunits, hpins⟩ := only.frame
    refine ⟨(only.irqCause_after n).trans cause, ?_, hregs, hunits, hpins, fun hout hmask => ?_⟩
    · rw [only.irqOutstanding_after n hlt, cause, free, Bool.true_and, Bool.or_true]
    · have raises : irqRaises u n = true := by
        have hout' : irqOutstanding u n = false := by rw [← hout, ← hu]; rfl
        rw [irqRaises, cause, hout', free]
        rfl
      have masked : irqMasked u n = false := by rw [← hmask, ← hu]; rfl
      refine ⟨irqMessage u n, ?_, ?_⟩
      · rw [only.msgs_after]
        exact (irqSettle_spec u).sent n hlt raises masked
      · rw [← hu]
        rfl

/-! ### Acknowledgements -/

theorem exec_hiuIrqAck (s : State) (k : Fin 4) (v : Word) (h : HostServes s) :
    exec (.hiuIrqAck k v) s = .next (after s (irqAck s k.val v)) := viaHiu_now _ (irqAck · k.val v) s h

/-- An acknowledgement changes its word and the causes of software vectors. -/
theorem irqAck_regsOnly (s : State) (k : Nat) (hk : k < 4) (v : Word) : RegsOnly s (irqAck s k v) [Reg.hiuIrqAck k] := by
  have hword := (RegsOnly.refl s [Reg.hiuIrqAck k]).wr (Reg.hiuIrqAck k) (rd s (Reg.hiuIrqAck k) &&& ~~~ v) (by simp)
    (by simp only [Reg.hiuIrqAck, Reg.hltStatus]; omega) (by simp only [Reg.hiuIrqAck, Reg.pmuStatus]; omega)
  rw [irqAck]
  exact hword.onHiu _

/-- It clears the outstanding bits that it names. -/
theorem irqOutstanding_irqAck (s : State) (k j : Nat) (hk : k < 4) (v : Word) (hj : j < 32) (hv : bit v j = true) :
    irqOutstanding (irqAck s k v) (32 * k + j) = false := by
  have hword : (32 * k + j) / 32 = k := by omega
  have hbit : (32 * k + j) % 32 = j := by omega
  have hrd : rd (irqAck s k v) (Reg.hiuIrqAck k) = rd s (Reg.hiuIrqAck k) &&& ~~~ v := rd_wr_same s _ _
  rw [irqOutstanding_eq _ _ (by omega), hword, hbit, hrd, bit_clear _ _ _ hj, hv, Bool.not_true, Bool.and_false]

/-- It clears the causes of the software vectors that it names (R102). -/
theorem irqCause_irqAck (s : State) (k j : Nat) (hk : k < 4) (v : Word) (hj : j < 32) (hv : bit v j = true)
    (hsw : 80 ≤ 32 * k + j) : irqCause (irqAck s k v) (32 * k + j) = false := by
  have named : bit (BitVec.ofNat 128 (v.toNat * 2 ^ (32 * k))) (32 * k + j) = true := by
    rw [bit, BitVec.getLsbD_ofNat, decide_eq_true (by omega : 32 * k + j < 128), Bool.true_and, Nat.testBit_mul_two_pow,
      decide_eq_true (by omega : 32 * k ≤ 32 * k + j), Nat.add_sub_cancel_left, Bool.true_and]
    exact hv
  have cleared : bit (s.hiu.swCause &&& ~~~ BitVec.ofNat 128 (v.toNat * 2 ^ (32 * k))) (32 * k + j) = false := by
    rw [bit_clear _ _ _ (by omega), named, Bool.not_true, Bool.and_false]
  rw [irqCause_software _ _ hsw]
  exact cleared

/-- Settles O41: the bits are cleared, and the interrupt rule sets again those with a cause. -/
theorem acknowledgeRearmsTheVector : Obligations.AcknowledgeRearmsTheVector := by
  intro s k v hs
  have only := irqAck_regsOnly s k.val k.isLt v
  obtain ⟨hregs, hunits, hpins⟩ := only.frame
  refine ⟨_, exec_hiuIrqAck s k v hs, fun off hack _ => ?_, hunits, hpins, fun j hj hbit => ⟨?_, fun hsw => ?_⟩⟩
  · exact hregs off hack (by simpa using hack k.val k.isLt)
  · have dropped : hostDropped (irqAck s k.val v) = hostDropped s :=
      hostDropped_of_regs fun off ho => rd0_wr_ne s _ off _ fun e => ho ⟨k.val, k.isLt, e⟩
    rw [only.irqOutstanding_after _ (by omega), irqOutstanding_irqAck s _ _ k.isLt v hj hbit, only.irqCause_after,
      Bool.false_or, dropped]
  · rw [only.irqCause_after]
    exact irqCause_irqAck s _ _ k.isLt v hj hbit hsw

end Sys2Proof.Machine
end

section
/-!
The statements on requests that are refused or wait: accesses before READY (R103, R107), and requests behind a throttled
write (R94, R96, R540); and on the size of BAR4 (R88).
-/

namespace Sys2Proof.Machine

/-! ### Accesses before READY -/

section
variable {s : State}

theorem bar0Write_notLive (off be : Nat) (v : Word) (h : liveAt s off = false) :
    bar0Write s off be v = hiuErr s 6 off be 0 := by
  simp [bar0Write, h]

theorem doorbellGate_notReady (ring off be kind : Nat) (v : Word) (f : State → State) (h : ready s = false) :
    doorbellGate s ring off be kind v f = hiuErr s 6 (ring * 0x1000 + off) be 1 := by
  simp [doorbellGate, h]

theorem sqDoorbell_notReady (ring be : Nat) (v : Word) (h : ready s = false) :
    sqDoorbell s ring be v = hiuErr s 6 (ring * 0x1000 + 0) be 1 := by
  rw [sqDoorbell, doorbellGate_notReady ring 0 be 0 v _ h]

theorem cqRelease_notReady (ring be : Nat) (v : Word) (h : ready s = false) :
    cqRelease s ring be v = hiuErr s 6 (ring * 0x1000 + 4) be 1 := by
  rw [cqRelease, doorbellGate_notReady ring 4 be 1 v _ h]

/-- Every dword of a doorbell page is refused before READY. -/
theorem pageWrite_notReady (ring dw be : Nat) (v : Word) (h : ready s = false) :
    pageWrite s ring dw be v = hiuErr s 6 (ring * 0x1000 + 4 * dw) be 1 := by
  match dw with
  | 0 => exact sqDoorbell_notReady ring be v h
  | 1 => exact cqRelease_notReady ring be v h
  | dw + 2 => simp [pageWrite, h]

theorem bar4Read_notReady (base off n : Nat) (h : ready s = false) : bar4Read s base off n =
    answer (hiuErr s 6 off (firstDwBe off n) 2) (.bytes (List.replicate n 0)) := by
  have fetched : bar4Fetch s base off n (firstDwBe off n) =
      (hiuErr s 6 off (firstDwBe off n) 2, List.replicate n 0) := by simp [bar4Fetch, h]
  rw [bar4Read, fetched]

/-- An access that ends in NOT_READY: its effect is the error, with an answer if it is a read. -/
theorem notReady_after {t : State} {addr be space : Nat}
    (h : RegsOnly s t [Reg.hiuErr, Reg.hiuErrAddrLo, Reg.hiuErrAddrHi])
    (hregs : t.regs = (hiuErr s 6 addr be space).regs) : rd (after s t) Reg.hiuErr = rd s Reg.hiuErr ||| 64 ∧
      RegsKept s (after s t) [Reg.hiuErr, Reg.hiuErrAddrLo, Reg.hiuErrAddrHi] ∧ SameUnits s (after s t) ∧
      (after s t).pins = s.pins := by
  refine ⟨?_, h.frame⟩
  rw [h.rd_after _ (by decide), rd_of_regs _ _ hregs, rd_hiuErr_bits]
  rfl

/-- A write that ends in NOT_READY. -/
theorem notReady_write {c : Instr} {addr be space : Nat} (hc : ∀ off n, c ≠ .bar4Read off n)
    (hexec : exec c s = .next (after s (hiuErr s 6 addr be space))) :
    ∃ t, exec c s = .next t ∧ rd t Reg.hiuErr = rd s Reg.hiuErr ||| 64 ∧
      RegsKept s t [Reg.hiuErr, Reg.hiuErrAddrLo, Reg.hiuErrAddrHi] ∧ SameUnits s t ∧ t.pins = s.pins ∧
      ∀ (off : BitVec 32) (n : Fin 4097), c = .bar4Read off n → t.hiu.reply = .bytes (List.replicate n.val 0) := by
  obtain ⟨herr, hregs, hunits, hpins⟩ := notReady_after (hiuErr_regsOnly s 6 addr be space) rfl
  exact ⟨_, hexec, herr, hregs, hunits, hpins, fun off n e => absurd e (hc off n)⟩

end

/-- Settles O34: each of the writes ends in NOT_READY, a narrow one too (log entry 8), and the read does and answers
zeros. -/
theorem accessBeforeReadyIsDiscarded : Obligations.AccessBeforeReadyIsDiscarded := by
  intro s c hs hc
  rcases hc with ⟨off, be, v, rfl, hlive⟩ |
    ⟨hready, ⟨ring, be, v, ⟨dw, rfl⟩ | rfl⟩ | ⟨off, bytes, rfl, hpayload, hfits⟩ | ⟨off, n, rfl⟩⟩
  · exact notReady_write nofun ((exec_registerWrite_dword s off be v hs).trans (next_after (bar0Write_notLive _ _ v hlive)))
  · exact notReady_write nofun ((exec_sqDoorbell_dword s ring dw be v hs).trans
      (next_after (pageWrite_notReady _ _ _ v hready)))
  · exact notReady_write nofun ((exec_cqRelease s ring be v hs).trans (next_after (cqRelease_notReady _ _ v hready)))
  · exact notReady_write nofun ((exec_bar4Write_of_fits s off bytes hs hfits hpayload).trans
      (next_after (bar4Write_notReady s _ _ bytes hready)))
  · have only := (hiuErr_regsOnly s 6 off.toNat (firstDwBe off.toNat n.val) 2).answer (.bytes (List.replicate n.val 0))
    obtain ⟨herr, hregs, hunits, hpins⟩ := notReady_after only rfl
    refine ⟨_, (exec_bar4Read s off n hs).trans (next_after (bar4Read_notReady _ _ _ hready)), herr, hregs, hunits, hpins,
      fun off' n' e => ?_⟩
    obtain ⟨-, rfl⟩ := Instr.bar4Read.inj e
    exact only.reply_after

/-! ### Requests that wait -/

/-- A request is received while the host has credits for it and holds back no other; else the host holds it back (R94,
log entry 70). -/
theorem holdRequest_eq_ite (s : State) (c : Instr) (base : Nat) : holdRequest base c s =
    if s.hiu.unsent = [] ∧ creditsFor s c = true then { s with hiu := { s.hiu with posted := s.hiu.posted ++ [(c, base)] } }
    else { s with hiu := { s.hiu with unsent := s.hiu.unsent ++ [c] } } := by
  unfold holdRequest
  simp only [Bool.and_eq_true, List.isEmpty_iff]
  rfl

theorem exec_bar4Write_waits (s : State) (off : BitVec 32) (bytes : List (Option Byte)) (h : hiuRunning s = true)
    (hp : s.hiu.posted ≠ []) :
    exec (.bar4Write off bytes) s = .next (after s (holdRequest (bar4Base s) (.bar4Write off bytes) s)) := by
  have hempty : s.hiu.posted.isEmpty = false := by simpa using hp
  rw [exec_bar4Write, served_running s _ h, bar4WriteEffect, hempty, Bool.false_and, Bool.false_and, if_neg Bool.false_ne_true,
    if_neg Bool.false_ne_true, after]

/-- Settles O60: each of the requests waits, with the BAR4 base of its receipt (log entry 10), or with the host for want of
credits (log entry 70). -/
theorem requestsWaitBehindAThrottledWrite : Obligations.RequestsWaitBehindAThrottledWrite := by
  intro s c h hp hc
  rw [← holdRequest_eq_ite]
  rcases hc with ⟨off, dws, same, rfl⟩ | ⟨off, bytes, rfl⟩ | ⟨off, n, rfl⟩ | ⟨ring, dw, dws, rfl⟩ | ⟨ring, v, rfl⟩ |
    ⟨r, rfl⟩ | ⟨k, v, rfl⟩
  · exact viaHiu_waits (.registerWrite off dws same)
      (ifPayloadFits (.registerWrite off dws same) (registerWrite · (dwordOff off) dws same)) s h hp
  · exact exec_bar4Write_waits s off bytes h hp
  · exact viaHiu_waits _ (fun u => bar4Read u (bar4Base s) off.toNat n.val) s h hp
  · exact viaHiu_waits (.sqDoorbell ring dw dws)
      (ifPayloadFits (.sqDoorbell ring dw dws) (pageWrites · ring.val dw.val dws)) s h hp
  · exact viaHiu_waits (.ringEnable ring v)
      (fun u => liveWrite u (Reg.ringCfg ring.val) (ringCfgWrite · ring.val (v ||| 1))) s h hp
  · exact viaHiu_waits _ (cfgRequest · r) s h hp
  · exact viaHiu_waits _ (irqAck · k.val v) s h hp

/-! ### The size of BAR4 -/

theorem exec_resizableBar (s : State) (log2 : Fin 64) (h : HostServes s) :
    exec (.resizableBar log2) s = .next (after s (resizableBarEffect s log2)) := viaHiu_now _ (resizableBarEffect · log2) s h

theorem exec_configurationRequest (s : State) (r : CfgReq) (h : HostServes s) :
    exec (.configurationRequest r) s = .next (after s (cfgRequest s r)) := viaHiu_now _ (cfgRequest · r) s h

/-- A legal size is stored, any other leaves it (R88). -/
theorem resizableBarEffect_eq (s : State) (log2 : Fin 64) (h : cfgRetry s = false) : resizableBarEffect s log2 =
    if 28 ≤ log2.val ∧ log2.val ≤ 32 then { s with hiu := { s.hiu with rbarLog2 := log2.val } } else s := by
  rw [resizableBarEffect, h, if_neg Bool.false_ne_true]
  rfl

theorem resizableBarEffect_regsOnly (s : State) (log2 : Fin 64) (h : cfgRetry s = false) :
    RegsOnly s (resizableBarEffect s log2) [] ∧ (resizableBarEffect s log2).hiu.bar4Log2 = s.hiu.bar4Log2 := by
  rw [resizableBarEffect_eq s log2 h]
  split
  · exact ⟨(RegsOnly.refl s []).onHiu fun x => { x with rbarLog2 := log2.val }, rfl⟩
  · exact ⟨RegsOnly.refl s [], rfl⟩

/-- Memory Space Enable going to 1 puts the stored size into effect (R88). -/
theorem cfgRequest_enable (s : State) (b : Bool) (h : cfgRetry s = false) (hm : s.hiu.memSpaceEn = false) :
    cfgRequest s (.command true b) =
      onHiu s fun x => { x with memSpaceEn := true, bar4Log2 := x.rbarLog2, busMasterEn := b } := by
  rw [cfgRequest, h, if_neg Bool.false_ne_true]
  simp [cfgApply, cfgMemSpace, onHiu, hm]

/-- Settles O42: the end of the cycle leaves both sizes and Memory Space Enable as the command's effect has them. -/
theorem bar4SizeFollowsMemorySpaceEnable : Obligations.Bar4SizeFollowsMemorySpaceEnable := by
  intro s hs hretry
  refine ⟨fun log2 => ?_, fun log2 t ht => ?_, fun b hm => ?_⟩
  · rw [exec_resizableBar s log2 hs, resizableBarEffect_eq s log2 hretry]
  · obtain ⟨only, hsize⟩ := resizableBarEffect_regsOnly s log2 hretry
    obtain ⟨m, p, hiu⟩ := only.hiu_after
    rw [exec_resizableBar s log2 hs] at ht
    obtain rfl : after s (resizableBarEffect s log2) = t := Host.Outcome.next.inj ht
    rw [hiu]
    exact hsize
  · have only := (RegsOnly.refl s []).onHiu fun x => { x with memSpaceEn := true, bar4Log2 := x.rbarLog2, busMasterEn := b }
    obtain ⟨m, p, hiu⟩ := only.hiu_after
    refine ⟨_, (exec_configurationRequest s _ hs).trans (next_after (cfgRequest_enable s b hretry hm)), ?_, ?_⟩
    · rw [hiu]
      rfl
    · rw [hiu]
      rfl

end Sys2Proof.Machine
end

section
/-!
The statement on resets of the FUNCTION scope (R88, R639, R640): what one leaves of the registers, the units and the host
interface, and that the end of the cycle leaves that as it is.
-/

namespace Sys2Proof.Machine

/-! ### What a FUNCTION reset clears -/

/-- A register that a reset drops from the store reads as its reset value. -/
theorem storeGet_filter_dropped {β : Type} (d : Nat → β) (m : Store β) (p : Nat × β → Bool) (k : Nat)
    (h : ∀ v, p (k, v) = false) : storeGet d (m.filter p) k = d k := by
  induction m with
  | nil => rfl
  | cons e m ih =>
    obtain ⟨j, v⟩ := e
    by_cases hj : j = k
    · subst hj
      rw [List.filter_cons_of_neg (by simp [h v])]
      exact ih
    · rw [List.filter_cons]
      split
      · rw [storeGet, if_neg hj]
        exact ih
      · exact ih

/-- The state of a FUNCTION reset, before the pads are evaluated. -/
def functionCleared (s : State) (c : FnCause) : State :=
  let u := functionUnits (katReset s)
  { u with regs := u.regs.filter fun r => keptByFunction r.1, hiu := hiuReset c u.hiu, pmu := pmuReset u.pmu }

/-- The answer of a waiting REQUEST_KAT is the groomer's. -/
theorem katReset_eq (s : State) : ∃ g, katReset s = { s with grm := g } := by
  unfold katReset
  split
  · unfold katAnswer
    split
    · exact ⟨_, rfl⟩
    · exact ⟨s.grm, rfl⟩
  · exact ⟨s.grm, rfl⟩

section
variable (s : State) (c : FnCause)

theorem functionCleared_hiu : (functionCleared s c).hiu = hiuReset c s.hiu := by
  obtain ⟨g, hg⟩ := katReset_eq s
  rw [functionCleared, hg]
  rfl

theorem functionCleared_dram : (functionCleared s c).dram = s.dram := by
  obtain ⟨g, hg⟩ := katReset_eq s
  rw [functionCleared, hg]
  rfl

/-- HIU_BAR4_BASE is of the FUNCTION scope. -/
theorem functionCleared_bar4Base : rd64 (functionCleared s c) Reg.hiuBar4BaseLo = 0 := by
  have cleared : ∀ off, keptByFunction off = false → rd (functionCleared s c) off = regReset off := fun off ho =>
    storeGet_filter_dropped regReset _ _ off fun _ => ho
  rw [rd64, rdN, rdN, cleared _ (by decide +kernel), cleared _ (by decide +kernel)]
  decide +kernel

theorem padsOnly_functionReset : PadsOnly (functionCleared s c) (functionReset s c) := padsOnly_pinSettle (functionCleared s c)

end

/-! ### The end of the cycle of a FUNCTION reset -/

/-- What the end of a cycle leaves as it was, once the units are in reset: their states, DRAM, and the sizes and base of
BAR4. -/
structure ResetStands (u t : State) : Prop where
  cfe : t.cfe = u.cfe
  ctx : t.ctx = u.ctx
  con : t.con = u.con
  work : t.work = u.work
  clu : t.clu = u.clu
  dsp : t.dsp = u.dsp
  cam : t.cam = u.cam
  dram : t.dram = u.dram
  hiu : ∃ m p, t.hiu = { u.hiu with msgs := m, pba := p }
  base : rd64 t Reg.hiuBar4BaseLo = rd64 u Reg.hiuBar4BaseLo

section
variable {s u v t : State}

theorem PadsOnly.resetStands (h : PadsOnly u v) : ResetStands u v := by
  have hbase : rd64 v Reg.hiuBar4BaseLo = rd64 u Reg.hiuBar4BaseLo := by
    rw [rd64, rd64, rdN, rdN, rdN, rdN, h.rd_hiu _ (by decide), h.rd_hiu _ (by decide)]
  obtain ⟨⟨_, _, _, _, _, _, rfl⟩, -⟩ := h
  exact ⟨rfl, rfl, rfl, rfl, rfl, rfl, rfl, rfl, ⟨_, _, rfl⟩, hbase⟩

theorem ResetStands.trans (h : ResetStands u v) (k : ResetStands v t) : ResetStands u t := by
  obtain ⟨m, p, hv⟩ := h.hiu
  obtain ⟨n, q, ht⟩ := k.hiu
  exact ⟨k.cfe.trans h.cfe, k.ctx.trans h.ctx, k.con.trans h.con, k.work.trans h.work, k.clu.trans h.clu,
    k.dsp.trans h.dsp, k.cam.trans h.cam, k.dram.trans h.dram, ⟨n, q, by rw [ht, hv]⟩, k.base.trans h.base⟩

theorem resetStands_irqSettle (u : State) : ResetStands u (irqSettle u) := by
  have hbase : rd64 (irqSettle u) Reg.hiuBar4BaseLo = rd64 u Reg.hiuBar4BaseLo := by
    rw [rd64, rd64, rdN, rdN, rdN, rdN, rd_irqSettle u _ (by decide), rd_irqSettle u _ (by decide)]
  exact ⟨by simp, by simp, by simp, by simp, by simp, by simp, by simp, by simp, (irqSettle_spec u).causes.hiu, hbase⟩

/-- With the units stopped, the schedulers stand. -/
theorem resetStands_conSettle (u : State) (h : running u = false) : ResetStands u (conSettle u) :=
  ⟨rfl, rfl, conNext_stopped u h, rfl, rfl, rfl, rfl, rfl, ⟨_, _, rfl⟩, rfl⟩

theorem resetStands_confine (s u : State) : ResetStands u (confine s u) :=
  ⟨rfl, rfl, rfl, rfl, rfl, rfl, rfl, rfl, ⟨_, _, rfl⟩, rfl⟩

theorem pmu_of_padsOnly (h : PadsOnly u v) : v.pmu = u.pmu := by
  obtain ⟨⟨_, _, _, _, _, _, rfl⟩, -⟩ := h
  rfl

theorem running_of_inReset (u : State) (h : u.pmu.inReset = true) : running u = false := by simp [running, h]

/-- The whole command: its effect is a FUNCTION reset, and its cycle ends. -/
theorem resetStands_after (s : State) (c : FnCause) : ResetStands (functionCleared s c) (after s (functionReset s c)) := by
  have pads : PadsOnly (functionCleared s c) (padFollow s (functionReset s c)) :=
    (padsOnly_functionReset s c).trans (padsOnly_padFollow s _)
  have stopped : running (irqSettle (padFollow s (functionReset s c))) = false :=
    running_of_inReset _ (by rw [irqSettle_pmu, pmu_of_padsOnly pads]; rfl)
  exact ((pads.resetStands.trans (resetStands_irqSettle _)).trans (resetStands_conSettle _ stopped)).trans
    (resetStands_confine s _)

/-- PERST_N_ASSERT acts in every state, and its cycle ends while the HIU runs. -/
theorem exec_perstNAssert (s : State) (h : hiuRunning s = true) :
    exec .perstNAssert s = .next (after s (functionReset s .perst)) := by
  show aside s (functionReset s .perst) = _
  rw [aside, h, if_pos rfl, after]

theorem exec_functionLevelReset (s : State) (h : hiuRunning s = true) (hr : cfgRetry s = false) :
    exec .functionLevelReset s = .next (after s (functionReset s .flr)) := by
  show served s (if cfgRetry s then answer s .cfgRetry else functionReset s .flr) = _
  rw [hr, if_neg Bool.false_ne_true]
  exact served_running s _ h

end

/-- Settles O43: each of the four commands is a reset of the FUNCTION scope, of which an FLR keeps the two sizes. -/
theorem functionResetsAndBar4Size : Obligations.FunctionResetsAndBar4Size := by
  intro s c size rbar hrun hc
  obtain ⟨cause, hexec, hsize, hrbar⟩ : ∃ cause, exec c s = .next (after s (functionReset s cause)) ∧
      (hiuReset cause s.hiu).bar4Log2 = size ∧ (hiuReset cause s.hiu).rbarLog2 = rbar := by
    rcases hc with ⟨rfl, hretry, rfl, rfl⟩ | ⟨rfl | rfl | rfl, rfl, rfl⟩
    · exact ⟨.flr, exec_functionLevelReset s hrun hretry, rfl, rfl⟩
    · exact ⟨.hot, served_running s _ hrun, rfl, rfl⟩
    · exact ⟨.linkDown, served_running s _ hrun, rfl, rfl⟩
    · exact ⟨.perst, exec_perstNAssert s hrun, rfl, rfl⟩
  have stands := resetStands_after s cause
  obtain ⟨m, p, hiu⟩ := stands.hiu
  rw [functionCleared_hiu] at hiu
  refine ⟨_, hexec, ?_, ?_, stands.base.trans (functionCleared_bar4Base s cause), stands.cfe, stands.ctx, stands.con,
    stands.work, stands.clu, stands.dsp, stands.cam, stands.dram.trans (functionCleared_dram s cause)⟩
  · rw [hiu]
    exact hsize
  · rw [hiu]
    exact hrbar

end Sys2Proof.Machine
end

section
/-!
The statements on the command engine's commands and on the pairs whose writes are ignored: its rows are answered by the
units' clock, and a pair that is in use keeps both halves (R139, R233).
-/

namespace Sys2Proof.Machine

/-! ### Completion -/

/-- Settles O3: each of the rows is a command of a unit, which answers while the units run. -/
theorem commandEngineCommandsComplete : Obligations.CommandEngineCommandsComplete := by
  refine ⟨?cplError, ?cplTimeout, ?descriptorFetch, ?cfeDispatch, ?retirement, ?nop, ?signal, ?timestamp, ?chain,
    ?cancelStop, ?watchdog⟩
  case cplError | cplTimeout => exact fun s h _ => clocked_running s _ h
  case cancelStop => exact fun s h _ _ _ => clocked_running s _ h
  case watchdog => exact fun s h _ _ => clocked_running s _ h
  case descriptorFetch | cfeDispatch | retirement | nop | signal | timestamp | chain =>
    exact fun s h => clocked_running s _ h

/-! ### Pairs in use -/

section
variable (s : State) (off : Nat) (v : Word)

/-- What the host has staged has no part in whether a register ignores writes. -/
theorem writeIgnored_setStaged (path : Path) (lo : Nat) (w : Option Word) :
    writeIgnored (setStaged s path lo w) off = writeIgnored s off := rfl

/-- Both halves of a heap's base ignore writes while the heap holds units (R233). -/
theorem writeIgnored_heapVaBase (c : Fin 128) (h : rd0 s (Reg.heapUnits c.val) ≠ 0)
    (ho : off / 8 * 8 = Reg.heapVaBaseLo c.val) : writeIgnored s off = true := by
  have inUse : ((List.range 128).any fun c =>
      decide (off / 8 * 8 = Reg.heapVaBaseLo c) && decide (rd0 s (Reg.heapUnits c) ≠ 0)) = true :=
    List.any_eq_true.2 ⟨c.val, List.mem_range.2 c.isLt, by rw [decide_eq_true ho, decide_eq_true h, Bool.and_self]⟩
  simp only [writeIgnored, inUse, Bool.or_true]

/-- The registers from SQ_BASE to CFG of a ring ignore writes while the ring is enabled (R139). -/
theorem writeIgnored_ringBase (n : Fin 64) (h : ringEnabled s n.val = true) (hlow : Reg.ringSqBaseLo n.val ≤ off)
    (hhigh : off < Reg.ringCfg n.val) : writeIgnored s off = true := by
  have inUse : ((List.range 64).any fun n =>
      ringEnabled s n && decide (Reg.ringSqBaseLo n ≤ off) && decide (off < Reg.ringCfg n)) = true :=
    List.any_eq_true.2 ⟨n.val, List.mem_range.2 n.isLt, by
      rw [h, decide_eq_true hlow, decide_eq_true hhigh, Bool.and_self, Bool.and_self]⟩
  simp only [writeIgnored, inUse, Bool.or_true, Bool.true_or]

/-- Of a pair that ignores writes, a write of the high half only drops what is staged. -/
theorem dwordWrite_fixedPair (hp : pairHalf off = .hi) (hlo : writeIgnored s (off - 4) = true)
    (hhi : writeIgnored s off = true) : RegsOnly s (dwordWrite s off v) [] := by
  unfold dwordWrite
  rw [hp]
  split
  · exact RegsOnly.refl s []
  · cases stagedHalf s .host (off - 4) with
    | none =>
      show RegsOnly s (regWrite s off v) []
      rw [regWrite_ignored s off v hhi]
      exact RegsOnly.refl s []
    | some lo =>
      show RegsOnly s (regWrite (regWrite (setStaged s .host (off - 4) none) (off - 4) lo) off v) []
      rw [regWrite_ignored (setStaged s .host (off - 4) none) (off - 4) lo ((writeIgnored_setStaged s _ _ _ _).trans hlo),
        regWrite_ignored (setStaged s .host (off - 4) none) off v ((writeIgnored_setStaged s _ _ _ _).trans hhi)]
      exact (RegsOnly.refl s []).setStaged .host (off - 4) none

/-- PAIR_HIGH_WRITE of a pair below the broadcast range that ignores writes. -/
theorem exec_pairHighWrite_fixedPair (hs : HostServes s) (hready : ready s = true) (ha : off % 4 = 0) (hb : off < 0xA00000)
    (hp : pairHalf off = .hi) (hlo : writeIgnored s (off - 4) = true) (hhi : writeIgnored s off = true) :
    ∃ t, exec (.pairHighWrite .host (BitVec.ofNat 25 off) 15 v) s = .next t ∧ RegsKept s t [] ∧ SameUnits s t ∧
      t.pins = s.pins := by
  have hoff : (BitVec.ofNat 25 off).toNat = off := by rw [BitVec.toNat_ofNat, Nat.mod_eq_of_lt (by omega)]
  have noBroadcast : inBroadcast off = false := by
    simp only [inBroadcast, decide_eq_false (Nat.not_le.2 hb), Bool.false_and]
  have effect : bar0Write s (dwordOff (BitVec.ofNat 25 off)) 15 v = dwordWrite s off v := by
    rw [dwordOff_aligned _ (by rw [hoff, ha]), hoff, bar0Write_dword s off v (liveAt_of_ready s off hready) noBroadcast]
  exact ⟨_, (exec_pairHighWrite_host s _ 15 v hs).trans (next_after effect), (dwordWrite_fixedPair s off v hp hlo hhi).frame⟩

end

theorem pairHalf_heapVaBaseHi : ∀ c : Fin 128, pairHalf (Reg.heapVaBaseHi c.val) = .hi := by decide +kernel

theorem pairHalf_ringBaseHi : ∀ n : Fin 64, ∀ off ∈ [Reg.ringSqBaseHi n.val, Reg.ringCqBaseHi n.val],
    pairHalf off = .hi := by decide +kernel

/-- A high half of a ring's bases is a dword of that ring, between its first register and CFG. -/
theorem ringBaseHi_bounds (n : Fin 64) (off : Nat) (h : off ∈ [Reg.ringSqBaseHi n.val, Reg.ringCqBaseHi n.val]) :
    off % 4 = 0 ∧ Reg.ringSqBaseLo n.val + 4 ≤ off ∧ off < Reg.ringCfg n.val := by
  simp only [List.mem_cons, List.not_mem_nil, or_false] at h
  simp only [Reg.ringSqBaseLo, Reg.ringSqBaseHi, Reg.ringCqBaseHi, Reg.ringCfg] at *
  omega

/-- Settles O30: both halves of each of the bases ignore writes. -/
theorem fixedPairsIgnoreWrites : Obligations.FixedPairsIgnoreWrites := by
  intro s v hs hready
  refine ⟨fun c hunits => ?_, fun n hen off hoff => ?_⟩
  · refine exec_pairHighWrite_fixedPair s _ v hs hready ?_ ?_ (pairHalf_heapVaBaseHi c)
      (writeIgnored_heapVaBase s _ c hunits ?_) (writeIgnored_heapVaBase s _ c hunits ?_) <;>
      simp only [Reg.heapVaBaseHi, Reg.heapVaBaseLo] <;> omega
  · obtain ⟨ha, hlow, hhigh⟩ := ringBaseHi_bounds n off hoff
    have hb : Reg.ringCfg n.val < 0xA00000 := by simp only [Reg.ringCfg]; omega
    exact exec_pairHighWrite_fixedPair s off v hs hready ha (by omega) (pairHalf_ringBaseHi n off hoff)
      (writeIgnored_ringBase s _ n hen (by omega) (by omega)) (writeIgnored_ringBase s _ n hen (by omega) hhigh)

end Sys2Proof.Machine
end

section
/-!
The statements on ring pairs: SQ doorbells and CQ releases (R115 to R117), and the enable of a ring (R110, R139).
-/

namespace Sys2Proof.Machine

/-! ### Effects on the command front end -/

/-- No pad shows the command front end. -/
theorem padOutputs_cfe (s : State) (c : Cfe) : padOutputs { s with cfe := c } = padOutputs s := by
  unfold padOutputs healthN draining
  rfl

section
variable {s t : State} {offs : List Nat}

theorem RegsOnly.padOutputs_eq_cfe (h : RegsOnly { s with cfe := t.cfe } t offs) : padOutputs t = padOutputs s :=
  h.padOutputs_eq.trans (padOutputs_cfe s t.cfe)

/-- A register after a command whose effect changes the command front end and registers of a list. -/
theorem RegsOnly.rd_after_cfe (h : RegsOnly { s with cfe := t.cfe } t offs) (off : Nat)
    (ha : ∀ i < 4, off ≠ Reg.hiuIrqAck i) : rd (after s t) off = rd t off := Machine.rd_after s t off ha h.padOutputs_eq_cfe

/-- Units that are as before, whatever the command front end was then, are so beside it. -/
theorem SameUnits.butCfe {c : Cfe} (h : SameUnits { s with cfe := c } t) : SameUnits s { t with cfe := s.cfe } := by
  obtain ⟨hltb, -, hunits⟩ := h
  exact ⟨hltb, rfl, hunits⟩

/-- The frame of the whole command. -/
theorem RegsOnly.frame_cfe (h : RegsOnly { s with cfe := t.cfe } t offs) :
    RegsKept s (after s t) offs ∧ SameUnits s { after s t with cfe := s.cfe } ∧ (after s t).pins = s.pins := by
  have pads := h.padOutputs_eq_cfe
  have same : after s t = after { s with cfe := t.cfe } t := by
    rw [after, after, cycleEnd_same s t pads, cycleEnd_same _ t h.padOutputs_eq, confine, confine]
  have units := (sameUnits_after _ t h.units h.padOutputs_eq).butCfe
  rw [← same] at units
  exact ⟨regsKept_after s t offs pads h.regs, units, (after_pins s t pads).trans h.pins⟩

end

/-- An offset in the range of the command front end (R37). -/
def CfeReg (off : Nat) : Prop := 0x100000 ≤ off ∧ off < 0x200000

/-- It is none of the outstanding registers, which the end of a cycle can change (R100). -/
theorem CfeReg.noAck {off : Nat} (h : CfeReg off) : ∀ i < 4, off ≠ Reg.hiuIrqAck i := fun i hi e =>
  not_isIrqAck_above (Nat.le_trans (by decide) h.1) ⟨i, hi, e⟩

/-- It is no register of the units above, such as HLT_STATUS and PMU_STATUS. -/
theorem CfeReg.ne_of_le {off o : Nat} (h : CfeReg off) (ho : 0x200000 ≤ o) : off ≠ o :=
  Nat.ne_of_lt (Nat.lt_of_lt_of_le h.2 ho)

theorem cfeReg_err : CfeReg Reg.cfeErr := ⟨by decide, by decide⟩

theorem cfeReg_errCapture : CfeReg Reg.cfeErrCapture := ⟨by decide, by decide⟩

/-- The counts and SEQ of a ring (R110). -/
def ringCounts (ring : Nat) : List Nat :=
  [Reg.ringSqTail ring, Reg.ringSqHead ring, Reg.ringCqTail ring, Reg.ringCqHead ring, Reg.ringSeq ring]

theorem cfeReg_ringCfg (ring : Fin 64) : CfeReg (Reg.ringCfg ring.val) := by
  simp only [CfeReg, Reg.ringCfg]
  omega

theorem cfeReg_ringCounts (ring : Fin 64) : ∀ off ∈ ringCounts ring.val, CfeReg off := by
  simp only [ringCounts, List.forall_mem_cons, CfeReg, Reg.ringSqTail, Reg.ringSqHead, Reg.ringCqTail, Reg.ringCqHead,
    Reg.ringSeq]
  refine ⟨?_, ?_, ?_, ?_, ?_, List.forall_mem_nil _⟩ <;> omega

theorem cfeReg_ringSqTail (ring : Fin 64) : CfeReg (Reg.ringSqTail ring.val) := cfeReg_ringCounts ring _ (by simp [ringCounts])

theorem cfeReg_ringCqHead (ring : Fin 64) : CfeReg (Reg.ringCqHead ring.val) := cfeReg_ringCounts ring _ (by simp [ringCounts])

theorem ringCfg_not_mem_err (ring : Nat) : Reg.ringCfg ring ∉ [Reg.cfeErr, Reg.cfeErrCapture] := by
  simp only [List.mem_cons, List.not_mem_nil, or_false, Reg.ringCfg, Reg.cfeErr, Reg.cfeErrCapture]
  omega

theorem ringCfg_not_mem_counts (ring : Nat) : Reg.ringCfg ring ∉ ringCounts ring := by
  simp only [ringCounts, List.mem_cons, List.not_mem_nil, or_false, Reg.ringCfg, Reg.ringSqTail, Reg.ringSqHead,
    Reg.ringCqTail, Reg.ringCqHead, Reg.ringSeq]
  omega

section
variable {s t : State} {offs : List Nat}

/-- A further write of a register of the command front end. -/
theorem RegsOnly.wrCfe (h : RegsOnly s t offs) {off : Nat} (v : Word) (hc : CfeReg off) (hm : off ∈ offs) :
    RegsOnly s (Machine.wr t off v) offs :=
  h.wr off v hm (hc.ne_of_le (by decide)) (hc.ne_of_le (by decide))

/-! ### Errors of the command front end -/

/-- The capture of a discarded doorbell or release (R117). -/
def doorbellCapture (s : State) (kind ring : Nat) (v : Word) : State :=
  wrN s Reg.cfeErrCapture (v.toNat % 2 ^ 16 * 2 ^ 16 + kind % 4 * 2 ^ 8 + ring % 64)

/-- An error captures if CFE_ERR was 0, and then sets its bit. -/
theorem doorbellErr_eq (s : State) (b kind ring : Nat) (v : Word) : doorbellErr s b kind ring v =
    setEv (if rd s Reg.cfeErr = 0 then doorbellCapture s kind ring v else s) Reg.cfeErr b :=
  captureErr_eq s Reg.cfeErr b _

/-- An error changes CFE_ERR and its capture alone. -/
theorem RegsOnly.doorbellErr (h : RegsOnly s t offs) (b kind ring : Nat) (v : Word) (hm : Reg.cfeErr ∈ offs)
    (hcap : Reg.cfeErrCapture ∈ offs) : RegsOnly s (doorbellErr t b kind ring v) offs := by
  rw [doorbellErr_eq]
  refine RegsOnly.setEv ?_ _ b hm (by decide) (by decide)
  split
  · exact h.wrCfe _ cfeReg_errCapture hcap
  · exact h

variable (s) (b kind ring : Nat) (v : Word)

theorem doorbellErr_regsOnly : RegsOnly s (doorbellErr s b kind ring v) [Reg.cfeErr, Reg.cfeErrCapture] :=
  (RegsOnly.refl s _).doorbellErr b kind ring v (by simp) (by simp)

theorem rd_doorbellErr_bits :
    rd (doorbellErr s b kind ring v) Reg.cfeErr = rd s Reg.cfeErr ||| BitVec.ofNat 32 (2 ^ b) := by
  rw [doorbellErr_eq, rd_setEv, if_pos rfl]
  split
  · rw [doorbellCapture, rd_wrN, if_neg (by decide)]
  · rfl

theorem rd_doorbellErr_capture : rd (doorbellErr s b kind ring v) Reg.cfeErrCapture = if rd s Reg.cfeErr = 0
    then BitVec.ofNat 32 (v.toNat % 2 ^ 16 * 2 ^ 16 + kind % 4 * 2 ^ 8 + ring % 64) else rd s Reg.cfeErrCapture := by
  rw [doorbellErr_eq, rd_setEv, if_neg (by decide)]
  split
  · rw [doorbellCapture, rd_wrN, if_pos rfl]
  · rfl

theorem bit_doorbellErr (hb : b < 32) : bit (rd (doorbellErr s b kind ring v) Reg.cfeErr) b = true := by
  rw [rd_doorbellErr_bits, bit_or, bit_ofNat_two_pow b b hb, decide_eq_true rfl, Bool.or_true]

/-- A command that ends in such an error sets the error's bit, and changes nothing but CFE_ERR and its capture. -/
theorem doorbellErr_after (hb : b < 32) : bit (rd (after s (doorbellErr s b kind ring v)) Reg.cfeErr) b = true ∧
    RegsKept s (after s (doorbellErr s b kind ring v)) [Reg.cfeErr, Reg.cfeErrCapture] ∧
    SameUnits s (after s (doorbellErr s b kind ring v)) ∧ (after s (doorbellErr s b kind ring v)).pins = s.pins := by
  have only := doorbellErr_regsOnly s b kind ring v
  refine ⟨?_, only.frame⟩
  rw [only.rd_after _ cfeReg_err.noAck]
  exact bit_doorbellErr s b kind ring v hb

end

/-! ### Doorbells and releases -/

/-- An accepted SQ doorbell: SQ_TAIL and the note of the doorbell's frame (R63, R115). -/
def bellRung (s : State) (ring : Nat) (v : Word) : State :=
  onRing (wr s (Reg.ringSqTail ring) v) ring fun r => { r with bells := r.bells ++ [(v.toNat, ltFrameOf (ltNow s))] }

section
variable {s : State} {ring : Nat} (v : Word) (hready : ready s = true) (hd : hostDropped s = false)
include hready hd

/-- A whole-dword doorbell or release of an enabled ring reaches it. -/
theorem doorbellGate_enabled (off kind : Nat) (f : State → State) (he : ringEnabled s ring = true) :
    doorbellGate s ring off 15 kind v f = f s := by
  simp [doorbellGate, hready, hd, he]

/-- That of a disabled ring is discarded (R117). -/
theorem doorbellGate_disabled (off kind : Nat) (f : State → State) (he : ringEnabled s ring = false) :
    doorbellGate s ring off 15 kind v f = doorbellErr s 0 kind ring v := by
  simp [doorbellGate, hready, hd, he]

/-- The three cases of R115. -/
theorem sqDoorbell_enabled (he : ringEnabled s ring = true) : sqDoorbell s ring 15 v =
      if v = rd s (Reg.ringSqTail ring) then s
      else if cntSub v (rd s (Reg.ringSqTail ring)) + cntSub (rd s (Reg.ringSqTail ring)) (rd s (Reg.ringSqHead ring)) ≤
        2 ^ ringLog2 s ring then bellRung s ring v
      else doorbellErr s 1 0 ring v := by
  rw [sqDoorbell, doorbellGate_enabled v hready hd 0 0 _ he]
  rfl

/-- The two cases of R116. -/
theorem cqRelease_enabled (he : ringEnabled s ring = true) : cqRelease s ring 15 v =
      if cntSub v (rd s (Reg.ringCqHead ring)) ≤ cntSub (rd s (Reg.ringCqTail ring)) (rd s (Reg.ringCqHead ring))
        then wr s (Reg.ringCqHead ring) v
      else doorbellErr s 1 1 ring v := by
  rw [cqRelease, doorbellGate_enabled v hready hd 4 1 _ he]

end

theorem bellRung_regsOnly (s : State) (ring : Fin 64) (v : Word) :
    RegsOnly { s with cfe := (bellRung s ring.val v).cfe } (bellRung s ring.val v) [Reg.ringSqTail ring.val] :=
  (RegsOnly.refl { s with cfe := (bellRung s ring.val v).cfe } _).wrCfe v (cfeReg_ringSqTail ring) (by simp)

/-- SQ_DOORBELL of the whole dword at a page's offset 0. -/
theorem exec_sqDoorbell_page (s : State) (ring : Fin 64) (v : Word) (h : HostServes s) :
    exec (.sqDoorbell ring 0 [(15, v)]) s = .next (after s (sqDoorbell s ring.val 15 v)) :=
  exec_sqDoorbell_dword s ring 0 15 v h

/-- R115's comparison in integers, where the share can be less than what is used. -/
theorem le_free_share_iff (a used log2 : Nat) : (a : Int) ≤ 2 ^ log2 - used ↔ a + used ≤ 2 ^ log2 := by
  rw [le_sub_iff_add_le]
  exact_mod_cast Iff.rfl

/-- Settles O35: by the three cases of the doorbell. -/
theorem sqDoorbellMovesTheTail : Obligations.SqDoorbellMovesTheTail := by
  intro s ring v hs hready hd he
  rw [exec_sqDoorbell_page s ring v hs, sqDoorbell_enabled v hready hd he]
  refine ⟨_, rfl, ?_⟩
  simp only [le_free_share_iff]
  split
  · obtain ⟨-, hunits, hpins⟩ := (RegsOnly.refl s []).frame
    exact ⟨SameUnits.butCfe (c := s.cfe) hunits, hpins, rfl⟩
  · split
    · have rung := bellRung_regsOnly s ring v
      obtain ⟨hregs, hunits, hpins⟩ := rung.frame_cfe
      exact ⟨hunits, hpins, (rung.rd_after_cfe _ (cfeReg_ringSqTail ring).noAck).trans (rd_wr_same s _ v), hregs⟩
    · obtain ⟨herr, hregs, hunits, hpins⟩ := doorbellErr_after s 1 0 ring.val v (by decide)
      exact ⟨SameUnits.butCfe (c := s.cfe) hunits, hpins, herr, hregs⟩

/-- Settles O36: by the two cases of the release. -/
theorem cqReleaseMovesTheHead : Obligations.CqReleaseMovesTheHead := by
  intro s ring v hs hready hd he
  refine ⟨_, (exec_cqRelease s ring 15 v hs).trans (next_after (cqRelease_enabled v hready hd he)), ?_⟩
  split
  · have only := (RegsOnly.refl s [Reg.ringCqHead ring.val]).wrCfe v (cfeReg_ringCqHead ring) (by simp)
    obtain ⟨hregs, hunits, hpins⟩ := only.frame
    exact ⟨hunits, hpins, (only.rd_after _ (cfeReg_ringCqHead ring).noAck).trans (rd_wr_same s _ v), hregs⟩
  · obtain ⟨herr, hregs, hunits, hpins⟩ := doorbellErr_after s 1 1 ring.val v (by decide)
    exact ⟨hunits, hpins, herr, hregs⟩

/-- Settles O37: both commands end in DOORBELL_DISABLED, with their kind in the capture. -/
theorem disabledRingDiscardsDoorbells : Obligations.DisabledRingDiscardsDoorbells := by
  intro s ring v hs hready hd he c kind hc
  obtain ⟨hkind, effect⟩ : kind < 4 ∧ exec c s = .next (after s (doorbellErr s 0 kind ring.val v)) := by
    rcases hc with ⟨rfl, rfl⟩ | ⟨rfl, rfl⟩
    · exact ⟨by decide, (exec_sqDoorbell_page s ring v hs).trans (next_after (doorbellGate_disabled v hready hd 0 0 _ he))⟩
    · exact ⟨by decide, (exec_cqRelease s ring 15 v hs).trans (next_after (doorbellGate_disabled v hready hd 4 1 _ he))⟩
  have only := doorbellErr_regsOnly s 0 kind ring.val v
  refine ⟨_, effect, ?_, ?_, only.frame⟩
  · rw [only.rd_after _ cfeReg_err.noAck]
    exact rd_doorbellErr_bits s 0 kind ring.val v
  · rw [only.rd_after _ cfeReg_errCapture.noAck, rd_doorbellErr_capture, Nat.mod_eq_of_lt hkind, Nat.mod_eq_of_lt ring.isLt]

/-! ### Enabling a ring -/

theorem regReset_ringCfg : ∀ ring : Fin 64, regReset (Reg.ringCfg ring.val) = 0 := by decide +kernel

theorem ringEnabled_eq (s : State) (ring : Fin 64) : ringEnabled s ring.val = bit (rd s (Reg.ringCfg ring.val)) 0 := by
  rw [ringEnabled, rd0_eq_rd s _ (regReset_ringCfg ring)]

/-- What a RING_ENABLE of v writes into RING_n_CFG: the register's bits of v, with ENABLE. -/
def enableValue (v : Word) : Word := (v ||| 1) &&& 0xFFFF0FF1

theorem bit_enableValue (v : Word) : bit (enableValue v) 0 = true := by
  simp [enableValue, bit]

/-- The two cases of an enable (R139). -/
theorem ringCfgWrite_enable (s : State) (ring : Nat) (v : Word) (h : ringEnabled s ring = false) :
    ringCfgWrite s ring (v ||| 1) = if ringConfigOk s ring (enableValue v) then ringStart s ring (enableValue v)
      else doorbellErr (wr s (Reg.ringCfg ring) (enableValue v &&& ~~~ 1)) 2 2 ring 0 := by
  have hcur : bit (rd0 s (Reg.ringCfg ring)) 0 = false := h
  have hen : bit ((v ||| 1) &&& 0xFFFF0FF1) 0 = true := bit_enableValue v
  rw [ringCfgWrite, hcur, hen]
  rfl

/-- RING_ENABLE, once BAR0 is live. -/
theorem exec_ringEnable (s : State) (ring : Fin 64) (v : Word) (hs : HostServes s) (hready : ready s = true) :
    exec (.ringEnable ring v) s = .next (after s (ringCfgWrite s ring.val (v ||| 1))) :=
  viaHiu_live _ _ _ s hs (liveAt_of_ready s (Reg.ringCfg ring.val) hready)

/-- Registers zeroed one after another. -/
def zeroed (s : State) (offs : List Nat) : State := offs.foldl (fun u off => wrN u off 0) s

theorem rd_zeroed (offs : List Nat) (s : State) (off : Nat) : rd (zeroed s offs) off = if off ∈ offs then 0 else rd s off := by
  induction offs generalizing s with
  | nil => rfl
  | cons o offs ih =>
    show rd (zeroed (wrN s o 0) offs) off = _
    rw [ih, rd_wrN]
    by_cases htail : off ∈ offs
    · rw [if_pos htail, if_pos (List.mem_cons_of_mem o htail)]
    · by_cases hhead : off = o <;> simp [htail, hhead]

theorem RegsOnly.zeroed {s t : State} {offs : List Nat} (h : RegsOnly s t offs) (l : List Nat) (hc : ∀ off ∈ l, CfeReg off)
    (hm : ∀ off ∈ l, off ∈ offs) : RegsOnly s (zeroed t l) offs :=
  List.foldlRecOn (motive := fun u => RegsOnly s u offs) l _ h fun _ hu off ho => hu.wrCfe _ (hc off ho) (hm off ho)

section
variable (s : State) (ring : Fin 64) (v : Word)

/-- The state with the registers of a ring's start stored: CFG as written, the counts and SEQ 0 (R110). -/
def ringRegs : State := zeroed (wr s (Reg.ringCfg ring.val) v) (ringCounts ring.val)

/-- Beside them a ring's start changes the ring's part in the command front end, and its segment (R110, R535). -/
theorem ringStart_eq : ringStart s ring.val v =
    segmentReset (onRing (ringRegs s ring v) ring.val fun r => { stream := r.stream + 1 }) ring.val := rfl

theorem rd_ringStart (off : Nat) : rd (ringStart s ring.val v) off = rd (ringRegs s ring v) off := by
  rw [ringStart_eq]
  rfl

theorem padOutputs_ringStart : padOutputs (ringStart s ring.val v) = padOutputs (ringRegs s ring v) := by
  rw [ringStart_eq]
  unfold padOutputs healthN draining
  rfl

theorem ringRegs_regsOnly : RegsOnly s (ringRegs s ring v) (Reg.ringCfg ring.val :: ringCounts ring.val) :=
  ((RegsOnly.refl s _).wrCfe v (cfeReg_ringCfg ring) List.mem_cons_self).zeroed _ (cfeReg_ringCounts ring) fun _ ho =>
    List.mem_cons_of_mem _ ho

/-- Every register after a ring's start. -/
theorem rd_after_ringStart (off : Nat) (ha : ∀ i < 4, off ≠ Reg.hiuIrqAck i) : rd (after s (ringStart s ring.val v)) off =
    if off ∈ ringCounts ring.val then 0 else if off = Reg.ringCfg ring.val then v else rd s off := by
  have pads := (padOutputs_ringStart s ring v).trans (ringRegs_regsOnly s ring v).padOutputs_eq
  rw [Machine.rd_after s _ off ha pads, rd_ringStart, ringRegs, rd_zeroed, rd_wr]

end

/-- Settles O38: an enable that passes is the ring's start, one that fails stores ENABLE 0 and ends in RING_CONFIG. -/
theorem ringEnableChecksItsConfiguration : Obligations.RingEnableChecksItsConfiguration := by
  intro s ring v hs hready he
  rw [exec_ringEnable s ring v hs hready, ringCfgWrite_enable s ring.val v he]
  have hcfg := (cfeReg_ringCfg ring).noAck
  refine ⟨fun hok => ⟨_, next_after (if_pos hok), ?_⟩, fun hbad => ⟨_, next_after (if_neg (ne_true_of_eq_false hbad)), ?_⟩⟩
  · have count : ∀ off ∈ ringCounts ring.val, rd (after s (ringStart s ring.val (enableValue v))) off = 0 := fun off ho => by
      rw [rd_after_ringStart s ring _ off (cfeReg_ringCounts ring off ho).noAck, if_pos ho]
    refine ⟨?_, count _ (by simp [ringCounts]), count _ (by simp [ringCounts]), count _ (by simp [ringCounts]),
      count _ (by simp [ringCounts]), count _ (by simp [ringCounts]), fun off ha hoff => ?_⟩
    · rw [ringEnabled_eq, rd_after_ringStart s ring _ _ hcfg, if_neg (ringCfg_not_mem_counts ring.val), if_pos rfl,
        bit_enableValue]
    · obtain ⟨hne, hcounts⟩ : off ≠ Reg.ringCfg ring.val ∧ off ∉ ringCounts ring.val := not_or.1 (mt List.mem_cons.2 hoff)
      rw [rd_after_ringStart s ring _ off ha, if_neg hcounts, if_neg hne]
  · have refused := ((RegsOnly.refl s [Reg.ringCfg ring.val, Reg.cfeErr, Reg.cfeErrCapture]).wrCfe (enableValue v &&& ~~~ 1)
      (cfeReg_ringCfg ring) (by simp)).doorbellErr 2 2 ring.val 0 (by simp) (by simp)
    refine ⟨?_, ?_, refused.frame.1⟩
    · rw [ringEnabled_eq, refused.rd_after _ (cfeReg_ringCfg ring).noAck,
        (doorbellErr_regsOnly _ 2 2 ring.val 0).regs _ (ringCfg_not_mem_err ring.val), rd_wr_same, bit_clear _ _ 0 (by decide)]
      exact Bool.and_false _
    · rw [refused.rd_after _ cfeReg_err.noAck]
      exact bit_doorbellErr _ 2 2 ring.val 0 (by decide)

end Sys2Proof.Machine
end

section
/-!
The statement that each command of contexts and sync objects completes with its own effect: context control, the poison
walk and the waits are clocked (R157 to R166), and CTX0_LOAD and SYNC_INIT are writes of one register (R168, R169).
-/

namespace Sys2Proof.Machine

/-- Settles O4: the units' commands answer while the units run, and the two register writes where the register is live. -/
theorem contextCommandsComplete : Obligations.ContextCommandsComplete := by
  refine ⟨?wait, ?load, ?teardown, ?markLost, ?query, ?contextUpdate, ?teardownRelease, ?poisonWalk, ?ctx0Load, ?syncInit,
    ?waitSatisfied⟩
  case load | teardown | markLost | query | contextUpdate | teardownRelease => exact fun s h => clocked_running s _ h
  case poisonWalk | waitSatisfied => exact fun s h _ => clocked_running s _ h
  case wait => exact fun s h _ _ => clocked_running s _ h
  case ctx0Load | syncInit => exact fun s h _ hl => viaHiu_live _ _ _ s h hl

end Sys2Proof.Machine
end

section
/-!
The statement on the commands of the memory system: SHEET_STREAM_APPLY does more than its clause says. In the cycle in which
a work area shrinks, the LAYERs that wait for their windows are checked again, and one that no longer fits is refused
(R212, R369).
-/

namespace Sys2Proof.Machine

/-! ### SHEET_STREAM_APPLY -/

/-- While the units run, STREAM is applied, and the waiting LAYERs are checked against the new work area. -/
theorem exec_sheetStreamApply (s : State) (c : Fin 16) (h : running s = true) :
    exec (.sheetStreamApply c) s = .next (after s (layerRecheck (streamApply s c.val))) := clocked_running s _ h

/-- STREAM alone reaches no descriptor. -/
theorem streamApply_cfe (s : State) (c : Nat) : (streamApply s c).cfe = s.cfe := by
  unfold streamApply
  split <;> rfl

/-- The end of a cycle leaves the command front end as the command's effect has it. -/
theorem after_cfe (s t : State) : (after s t).cfe = t.cfe := by
  obtain ⟨⟨_, _, _, _, _, _, hp⟩, -⟩ := padsOnly_padFollow s t
  rw [after, confine_cfe, cycleEnd, conSettle_cfe, irqSettle_cfe, hp]

/-- The only LAYER held is refused if it waits, its descriptor runs, and it fails the check of R369. -/
theorem layerRecheck_refuses (s : State) (l : LayerRun) (r : Result) (hheld : s.work.layers = [l]) (hwaits : l.ready = false)
    (hruns : descRuns s l.id = true) (hfails : layerCheck s l = some r) : layerRecheck s = decideDesc s l.id r := by
  simp [layerRecheck, hheld, hwaits, hruns, hfails]

/-! ### A work area that shrinks below a waiting LAYER -/

/-- A LAYER of context 0, handed over to the layer sequencer. -/
def waitingDesc : Desc :=
  { id := { ring := 0, seq := 0 }, ctx := some 0, words := [0x0A], stage := .dispatched }

/-- Its one window, of one granule on cluster 0, is not allocated yet. -/
def waitingLayer : LayerRun :=
  { id := waitingDesc.id, stream := false, csi := 0, granules := 1, steps := 1, maxG := 0, layerTable := 0, stepTable := 0
    vcls := [0], layers := [{ nsteps := 0, mapSens := false }] }

/-- The device in ACTIVE, with cluster 0 in service, that LAYER waiting, and a written SHEET_CFG.STREAM of 64 granules that has
not taken effect. -/
def shrinkingArea : State :=
  { State.reset with
    regs := [(Reg.hiuStatus, 1), (Reg.hltMap, 1), (Reg.sheetCfg 0, 64)]
    pmu := { State.reset.pmu with sysRstN := true }
    cfe := { State.reset.cfe with descs := [waitingDesc] }
    work := { State.reset.work with layers := [waitingLayer] } }

theorem running_shrinkingArea : running shrinkingArea = true := by decide +kernel

/-- The LAYER passes the check of R369 while the work area is whole, and fails it once no granule is left. -/
theorem layerCheck_shrinkingArea : layerCheck shrinkingArea waitingLayer = none ∧
    layerCheck (streamApply shrinkingArea 0) waitingLayer = some (layerRefusal 1 0) := by decide +kernel

theorem layerRecheck_shrinkingArea : layerRecheck (streamApply shrinkingArea 0) =
    decideDesc (streamApply shrinkingArea 0) waitingDesc.id (layerRefusal 1 0) :=
  layerRecheck_refuses _ waitingLayer _ rfl rfl (by decide +kernel) layerCheck_shrinkingArea.2

/-- The refusal decides the LAYER's descriptor, which was only dispatched. -/
theorem stages_shrinkingArea : shrinkingArea.cfe.descs.map Desc.stage = [.dispatched] ∧
    (layerRecheck (streamApply shrinkingArea 0)).cfe.descs.map Desc.stage = [.decided] := by
  rw [layerRecheck_shrinkingArea]
  exact ⟨rfl, by decide +kernel⟩

/-- Refutes O5: its clause for SHEET_STREAM_APPLY has STREAM alone take effect, which decides no descriptor, while exec also
refuses the LAYER of shrinkingArea, whose cluster has no work area left. -/
theorem not_memoryCommandsComplete : ¬ Obligations.MemoryCommandsComplete := by
  intro ⟨_, _, _, _, _, _, _, _, _, _, streamAlone, _⟩
  have alone : after shrinkingArea (layerRecheck (streamApply shrinkingArea 0)) = after shrinkingArea (streamApply shrinkingArea 0) :=
    Host.Outcome.next.inj ((exec_sheetStreamApply shrinkingArea 0 running_shrinkingArea).symm.trans
      (streamAlone shrinkingArea running_shrinkingArea 0))
  have sameCfe := congrArg State.cfe alone
  rw [after_cfe, after_cfe, streamApply_cfe] at sameCfe
  obtain ⟨dispatched, decided⟩ := stages_shrinkingArea
  rw [sameCfe, dispatched] at decided
  exact absurd decided (by decide)

end Sys2Proof.Machine
end

section
/-!
The statements on blocks, heats in flight and instruction fetch: their rows are answered by the units' clock, and a kamir
row issues the next instruction of a heat when it is of the row's opcode (R247, R272).
-/

namespace Sys2Proof.Machine

/-! ### Blocks, preemption and fetch -/

/-- Settles O6: each of the rows is a command of a unit, which answers while the units run. -/
theorem blockCommandsComplete : Obligations.BlockCommandsComplete := by
  refine ⟨?dispatch, ?blockPlace, ?blockEnd, ?preemption, ?preemptSaveComplete, ?blockRestore, ?cluConfigApply,
    ?variableResultWrite, ?illegalInstruction, ?icacheFill, ?swaitSatisfied⟩
  case dispatch => exact fun s h => clocked_running s _ h
  case blockPlace | blockEnd | preemption | preemptSaveComplete | blockRestore | cluConfigApply =>
    exact fun s h _ => clocked_running s _ h
  case variableResultWrite => exact fun s h _ _ _ => clocked_running s _ h
  case illegalInstruction | icacheFill | swaitSatisfied => exact fun s h _ _ => clocked_running s _ h

/-! ### Kamir rows -/

/-- An instruction that is ready is issued by the row of its opcode, with the row's effect, in a cycle of the units. -/
theorem kamir_ready {s s' : State} {core : Fin 64} {age op : Nat} {b : Blk} {h : Heat} {i : KIns}
    (hready : KamirReady s core.val age op b h s' i) (f : KEnv → KEnv) :
    kamir op f core age s = .next (after s (heatIssue s' b h i f)) := by
  obtain ⟨unitsRun, resident, fetched, opcode, legal, mayGo⟩ := hready
  have issued : kamirStep op f core.val age s = heatIssue s' b h i f := by
    simp [kamirStep, resident, fetched, opcode, legal, mayGo]
  rw [kamir, issued]
  exact clocked_running s _ unitsRun

/-- What exec answers to a row's command. -/
def KamirRow.answer (r : KamirRow) (core : Fin 64) (age : Nat) (s : State) : Host.Outcome State Fault Refusal :=
  exec (r.instr core age) s

/-- The answer that issues an instruction of a row's opcode with the row's effect. -/
def KamirRow.issue (r : KamirRow) : Fin 64 → Nat → State → Host.Outcome State Fault Refusal := kamir r.op r.effect

/-- The opcode and the effect that the table names for a row are those by which exec answers it, row by row. -/
theorem kamirRows_answer_eq_issue : kamirRows.map KamirRow.answer = kamirRows.map KamirRow.issue := rfl

theorem exec_kamirRow {r : KamirRow} (hr : r ∈ kamirRows) (core : Fin 64) (age : Nat) (s : State) :
    exec (r.instr core age) s = kamir r.op r.effect core age s :=
  congrFun (congrFun (congrFun (List.map_inj_left.1 kamirRows_answer_eq_issue r hr) core) age) s

/-- Settles O17: exec answers a row by its opcode and effect, and that opcode is the one of the instruction ready to issue. -/
theorem kamirRowsIssue : Obligations.KamirRowsIssue := by
  intro r hr core age s b h s' i hready
  rw [exec_kamirRow hr]
  exact kamir_ready hready r.effect

end Sys2Proof.Machine
end

section
/-!
The statements on what kamir results are and do: a register write takes effect in the lanes of its mask (R276), and an
arithmetic row forms one write, of VD or of SD (R288, R289, R296).
-/

namespace Sys2Proof.Machine

/-! ### A store after the writes of a list of keys -/

section
variable {α : Type} [DecidableEq α] (d : Nat → α) (key : Nat → Nat) (v : Nat → α)

/-- Writes of other keys leave a key as it was. -/
theorem storeGet_foldl_put_ne {k : Nat} {js : List Nat} (hk : ∀ j ∈ js, k ≠ key j) (m : Store α) :
    storeGet d (js.foldl (fun m j => storePut d m (key j) (v j)) m) k = storeGet d m k := by
  induction js generalizing m with
  | nil => rfl
  | cons j js ih =>
    obtain ⟨hj, hjs⟩ := List.forall_mem_cons.1 hk
    rw [List.foldl_cons, ih hjs, storeGet_put_ne _ _ _ _ _ hj]

/-- Where distinct indices have distinct keys, the key of a listed index has that index's value, however often it is listed. -/
theorem storeGet_foldl_put (hkey : Function.Injective key) (l : Nat) (js : List Nat) (m : Store α) :
    storeGet d (js.foldl (fun m j => storePut d m (key j) (v j)) m) (key l) =
      if l ∈ js then v l else storeGet d m (key l) := by
  induction js generalizing m with
  | nil => simp
  | cons j js ih =>
    rw [List.foldl_cons, ih, storeGet_put]
    by_cases hj : l = j <;> simp [hkey.eq_iff, hj]

end

theorem mem_onesBelow {x w l : Nat} : l ∈ onesBelow x w ↔ l < w ∧ x.testBit l = true := by simp [onesBelow]

/-! ### A register write, by the kind of its register -/

section
variable {h : Heat} {w : RegWrite} {n : Nat}

/-- A vector write reaches the vector registers only. -/
theorem regApply_vec_frame (hw : w.reg = .v n) : (regApply h w).sregs = h.sregs ∧ (regApply h w).preds = h.preds := by
  simp [regApply, hw]

/-- A scalar write reaches the scalar registers only. -/
theorem regApply_scalar_frame (hw : w.reg = .s n) : (regApply h w).vregs = h.vregs ∧ (regApply h w).preds = h.preds := by
  simp [regApply, hw]

/-- A predicate write reaches the predicate registers only. -/
theorem regApply_pred_frame (hw : w.reg = .p n) : (regApply h w).vregs = h.vregs ∧ (regApply h w).sregs = h.sregs := by
  simp [regApply, hw]

/-- In a vector write's own register, the lanes of the mask have their values and the others are kept. -/
theorem hv_regApply_same (hw : w.reg = .v n) {l : Nat} (hl : l < 32) :
    hv (regApply h w) n l = if w.mask.testBit l = true then (w.vals[l]?).getD 0 else hv h n l := by
  have keys : Function.Injective fun j => 32 * n + j := fun _ _ => Nat.add_left_cancel
  simpa [hv, regApply, hw, mem_onesBelow, hl] using
    storeGet_foldl_put regZero _ (fun l => (w.vals[l]?).getD 0) keys l (onesBelow w.mask 32) h.vregs

/-- A vector write keeps every other vector register: its 32 keys are those of its own register. -/
theorem hv_regApply_ne (hw : w.reg = .v n) {r l : Nat} (hl : l < 32) (hr : r ≠ n) : hv (regApply h w) r l = hv h r l := by
  have otherKeys : ∀ j ∈ onesBelow w.mask 32, 32 * r + l ≠ 32 * n + j := fun j hj => by
    have := (mem_onesBelow.1 hj).1
    omega
  simpa [hv, regApply, hw] using storeGet_foldl_put_ne regZero _ (fun l => (w.vals[l]?).getD 0) otherKeys h.vregs

theorem hv_regApply (hw : w.reg = .v n) (r : Nat) {l : Nat} (hl : l < 32) :
    hv (regApply h w) r l = if r = n ∧ w.mask.testBit l = true then (w.vals[l]?).getD 0 else hv h r l := by
  by_cases hr : r = n
  · subst hr
    simp [hv_regApply_same hw hl]
  · simp [hv_regApply_ne hw hl hr, hr]

theorem hs_regApply (hw : w.reg = .s n) (r : Nat) :
    hs (regApply h w) r = if r % 64 = n % 64 then (w.vals[0]?).getD 0 else hs h r := by
  simp [hs, regApply, hw, storeGet_put]

/-- A predicate write merges its value into its register by the mask. -/
theorem hp_regApply (hw : w.reg = .p n) (r : Nat) :
    hp (regApply h w) r = if r % 8 = n % 8
      then (hp h r &&& ~~~BitVec.ofNat 32 w.mask) ||| ((w.vals[0]?).getD 0 &&& BitVec.ofNat 32 w.mask) else hp h r := by
  by_cases hr : r % 8 = n % 8 <;> simp [hp, regApply, hw, storeGet_put, hr]

/-- A bit of two words merged by a mask is the new word's where the mask has a 1. -/
theorem bit_merge (old new : Word) (m : Nat) {l : Nat} (hl : l < 32) :
    bit ((old &&& ~~~BitVec.ofNat 32 m) ||| (new &&& BitVec.ofNat 32 m)) l =
      if m.testBit l = true then bit new l else bit old l := by
  have hnew : bit (new &&& BitVec.ofNat 32 m) l = (bit new l && bit (BitVec.ofNat 32 m) l) := BitVec.getLsbD_and ..
  rw [bit_or, bit_clear _ _ _ hl, hnew, bit_ofNat _ _ hl]
  cases m.testBit l <;> simp

theorem bit_hp_regApply (hw : w.reg = .p n) (r : Nat) {l : Nat} (hl : l < 32) :
    bit (hp (regApply h w) r) l =
      if r % 8 = n % 8 ∧ w.mask.testBit l = true then bit ((w.vals[0]?).getD 0) l else bit (hp h r) l := by
  rw [hp_regApply hw]
  by_cases hr : r % 8 = n % 8
  · simp [hr, bit_merge _ _ _ hl]
  · simp [hr]

end

/-- Settles O52: each of the three files reads as its write has it, and the two others are the same stores as before. -/
theorem registerWritesAffectOnlyTheirLanes : Obligations.RegisterWritesAffectOnlyTheirLanes := by
  intro h w r l hl
  refine ⟨fun n hw => ?vector, fun n hw => ?scalar, fun n hw => ?predicate⟩
  case vector =>
    obtain ⟨sregs, preds⟩ := regApply_vec_frame (h := h) hw
    exact ⟨hv_regApply hw r hl, by rw [hs, sregs, hs], by rw [hp, preds, hp]⟩
  case scalar =>
    obtain ⟨vregs, preds⟩ := regApply_scalar_frame (h := h) hw
    exact ⟨hs_regApply hw r, by rw [hv, vregs, hv], by rw [hp, preds, hp]⟩
  case predicate =>
    obtain ⟨vregs, sregs⟩ := regApply_pred_frame (h := h) hw
    exact ⟨bit_hp_regApply hw r hl, by rw [hv, vregs, hv], by rw [hs, sregs, hs]⟩

/-! ### The one result of an arithmetic row -/

/-- From e an instruction brings about e', which is e with one result: of VD, in the lanes of EM. -/
def OnlyVd (e e' : KEnv) : Prop := ∃ f, e' = vecWrite e (kVD e.i) f

/-- From e an instruction brings about e', which is e with one result: of SD. -/
def OnlySd (e e' : KEnv) : Prop := ∃ w, e' = sclWrite e (kSD e.i) w

section
variable (e : KEnv)

@[simp] theorem onlyVd_kVec1 (f : Word → Word) : OnlyVd e (kVec1 f e) := ⟨_, rfl⟩

@[simp] theorem onlyVd_kVec2 (f : Word → Word → Word) : OnlyVd e (kVec2 f e) := ⟨_, rfl⟩

@[simp] theorem onlyVd_kVec3 (f : Word → Word → Word → Word) : OnlyVd e (kVec3 f e) := ⟨_, rfl⟩

@[simp] theorem onlyVd_kSel : OnlyVd e (kSel e) := ⟨_, rfl⟩

@[simp] theorem onlySd_kScalar (f : Word → Word → Word) : OnlySd e (kScalar f e) := ⟨_, rfl⟩

end

/-- Each floating-point row is an operation on one, two or three sources per lane. -/
theorem kamirFloat_onlyVd : ∀ r ∈ kamirFloat, ∀ e, OnlyVd e (r.effect e) := by simp [kamirFloat]

/-- Each integer row is an operation per lane or SEL. -/
theorem kamirInteger_onlyVd : ∀ r ∈ kamirInteger, ∀ e, OnlyVd e (r.effect e) := by simp [kamirInteger]

/-- Each conversion row is an operation on one or two sources per lane. -/
theorem kamirConvert_onlyVd : ∀ r ∈ kamirConvert, ∀ e, OnlyVd e (r.effect e) := by simp [kamirConvert]

/-- Each of the rows before SADD64 is a scalar operation. -/
theorem kamirScalar_onlySd : ∀ r ∈ kamirScalar.take 14, ∀ e, OnlySd e (r.effect e) := by simp [kamirScalar]

/-- Settles O51: a row of the three groups is an operation per lane or SEL, and a row from SADD to SMOV a scalar operation. -/
theorem arithmeticRowsWriteOnlyTheirRegister : Obligations.ArithmeticRowsWriteOnlyTheirRegister := by
  refine ⟨fun r hr => ?_, kamirScalar_onlySd⟩
  simp only [List.mem_append] at hr
  obtain (hfloat | hinteger) | hconvert := hr
  · exact kamirFloat_onlyVd r hfloat
  · exact kamirInteger_onlyVd r hinteger
  · exact kamirConvert_onlyVd r hconvert

end Sys2Proof.Machine
end

section
/-!
The statements on the commands of TNS units, layer programs and lift moves, which the units' clock answers, and on an
instruction that no lane executes (R286, R287).
-/

namespace Sys2Proof.Machine

/-- Settles O7: each of the rows is a command of a unit, which answers while the units run. -/
theorem tensorAndLayerCommandsComplete : Obligations.TensorAndLayerCommandsComplete := by
  refine ⟨?layer, ?lift, ?windowAllocate, ?liftComplete, ?liftStop, ?tnsBegin, ?tmmaComplete, ?tmmaStop, ?toutComplete,
    ?tclrComplete, ?stepStart, ?stepComplete⟩
  case layer | lift | windowAllocate | stepComplete => exact fun s h => clocked_running s _ h
  case liftComplete | liftStop | tnsBegin | tmmaComplete | toutComplete | tclrComplete =>
    exact fun s h _ => clocked_running s _ h
  case tmmaStop | stepStart => exact fun s h _ _ => clocked_running s _ h

/-- Settles O50: with EM 0 the effect is not applied, and no effect at all leaves what issue makes of the heat as it is. -/
theorem idleInstructionsWriteNothing : Obligations.IdleInstructionsWriteNothing := by
  intro s b h i f idle
  simp only [heatIssue, idle, if_true]

end Sys2Proof.Machine
end

section
/-!
The statement on the integer rows: shifts, high halves of products, leading zeros, minima and maxima, each as the number
that R288 gives it.
-/

namespace Sys2Proof.Machine

/-! ### Shifts -/

/-- A count of 32 or more multiplies by a multiple of 2^32. -/
theorem toNat_shl32 (a b : Word) : (shl32 a b).toNat = a.toNat * 2 ^ b.toNat % 2 ^ 32 := by
  unfold shl32
  split
  next => rw [BitVec.toNat_shiftLeft, Nat.shiftLeft_eq]
  next hb =>
    have multiple : 2 ^ 32 ∣ a.toNat * 2 ^ b.toNat := (pow_dvd_pow 2 (Nat.le_of_not_lt hb)).mul_left _
    exact (Nat.mod_eq_zero_of_dvd multiple).symm

/-- A count of 32 or more divides by more than the word. -/
theorem toNat_shr32 (a b : Word) : (shr32 a b).toNat = a.toNat / 2 ^ b.toNat := by
  unfold shr32
  split
  next => rw [BitVec.toNat_ushiftRight, Nat.shiftRight_eq_div_pow]
  next hb =>
    have small : a.toNat < 2 ^ b.toNat := a.isLt.trans_le (Nat.pow_le_pow_right two_pos (Nat.le_of_not_lt hb))
    exact (Nat.div_eq_of_lt small).symm

/-- A quotient by a number that is no smaller than the magnitude, rounded down: the sign alone decides it. -/
theorem ediv_eq_of_small {x m : Int} (hlo : -m ≤ x) (hhi : x < m) : x / m = if x < 0 then -1 else 0 := by
  split
  next hneg => exact Int.ediv_eq_neg_one_of_neg_of_le hneg (neg_le.1 hlo)
  next hpos => exact Int.ediv_eq_zero_of_lt (not_lt.1 hpos) hhi

/-- From a count of 31 on, an arithmetic shift gives 32 copies of the sign, which is the quotient rounded down. -/
theorem toInt_ediv_two_pow_min (a : Word) (n : Nat) : a.toInt / 2 ^ min n 31 = a.toInt / 2 ^ n := by
  obtain hn | hn := Nat.le_total n 31
  · rw [min_eq_left hn]
  · have hlo : -2 ^ 31 ≤ a.toInt := a.le_toInt
    have hhi : a.toInt < 2 ^ 31 := a.toInt_lt
    have larger : (2 : Int) ^ 31 ≤ 2 ^ n := pow_le_pow_right₀ one_le_two hn
    rw [min_eq_right hn, ediv_eq_of_small hlo hhi, ediv_eq_of_small ((neg_le_neg larger).trans hlo) (hhi.trans_le larger)]

theorem toInt_sra32 (a b : Word) : (sra32 a b).toInt = a.toInt / 2 ^ b.toNat := by
  rw [sra32, BitVec.toInt_sshiftRight, Int.shiftRight_eq_div_pow, Nat.cast_pow, Nat.cast_ofNat, toInt_ediv_two_pow_min]

/-! ### High halves of products -/

/-- A product of two signed words is at most 2^62 in magnitude. -/
theorem abs_toInt_mul_le (a b : Word) : |a.toInt * b.toInt| ≤ 2 ^ 62 := by
  have magnitude (x : Word) : |x.toInt| ≤ 2 ^ 31 := abs_le.2 ⟨x.le_toInt, x.toInt_lt.le⟩
  calc |a.toInt * b.toInt| = |a.toInt| * |b.toInt| := abs_mul _ _
    _ ≤ 2 ^ 31 * 2 ^ 31 := mul_le_mul (magnitude a) (magnitude b) (abs_nonneg _) (by norm_num)
    _ = 2 ^ 62 := by norm_num

/-- The signed high half fits a signed word. -/
theorem toInt_mulHigh_signed (a b : Word) : (mulHigh true a b).toInt = a.toInt * b.toInt / 2 ^ 32 := by
  obtain ⟨hlo, hhi⟩ := abs_le.1 (abs_toInt_mul_le a b)
  exact BitVec.toInt_ofInt_eq_self (by norm_num) (by omega) (by omega)

/-- The unsigned high half fits a word. -/
theorem toNat_mulHigh_unsigned (a b : Word) : (mulHigh false a b).toNat = a.toNat * b.toNat / 2 ^ 32 := by
  have fits : a.toNat * b.toNat / 2 ^ 32 < 2 ^ 32 :=
    Nat.div_lt_of_lt_mul (Nat.mul_lt_mul'' a.isLt b.isLt)
  exact (BitVec.toNat_ofNat _ _).trans (Nat.mod_eq_of_lt fits)

/-! ### Leading zeros -/

@[simp] theorem clz32_zero : clz32 0 = 32 := rfl

/-- A word other than 0 has its highest 1 at a bit below 32, and the leading zeros are the bits above it. -/
theorem log2_add_toNat_clz32 {a : Word} (ha : a ≠ 0) : a.toNat.log2 + (clz32 a).toNat = 31 := by
  have top : a.toNat.log2 < 32 := (Nat.log2_lt (BitVec.toNat_ne.1 ha)).2 a.isLt
  rw [clz32, if_neg ha, BitVec.toNat_ofNat]
  omega

theorem clz32_bounds {a : Word} (ha : a ≠ 0) :
    2 ^ (31 - (clz32 a).toNat) ≤ a.toNat ∧ a.toNat < 2 ^ (32 - (clz32 a).toNat) := by
  have top := log2_add_toNat_clz32 ha
  have below : 31 - (clz32 a).toNat = a.toNat.log2 := by omega
  have above : 32 - (clz32 a).toNat = a.toNat.log2 + 1 := by omega
  rw [below, above]
  exact ⟨Nat.log2_self_le (BitVec.toNat_ne.1 ha), Nat.lt_log2_self⟩

/-! ### Minima and maxima -/

section
variable (a b : Word)

theorem toInt_smin32 : (smin32 a b).toInt = min a.toInt b.toInt := by rw [smin32, apply_ite BitVec.toInt, min_def]

theorem toInt_smax32 : (smax32 a b).toInt = max a.toInt b.toInt := by rw [smax32, apply_ite BitVec.toInt, max_def]

theorem toNat_umin32 : (umin32 a b).toNat = min a.toNat b.toNat := by rw [umin32, apply_ite BitVec.toNat, min_def]

theorem toNat_umax32 : (umax32 a b).toNat = max a.toNat b.toNat := by rw [umax32, apply_ite BitVec.toNat, max_def]

end

/-- Settles O53: the value of each operation, by the lemma that says it. -/
theorem integerResultsAreExact : Obligations.IntegerResultsAreExact := fun a b =>
  ⟨toNat_shl32 a b, toNat_shr32 a b, toInt_sra32 a b, toInt_mulHigh_signed a b, toNat_mulHigh_unsigned a b,
    fun ha => ha ▸ clz32_zero, clz32_bounds, ⟨toInt_smin32 a b, toInt_smax32 a b⟩, toNat_umin32 a b, toNat_umax32 a b⟩

end Sys2Proof.Machine
end

section
/-!
The statement on NaNs, minima and maxima of the FP32 rows (R289, R290). FMIN and FMAX return an operand through a decoding
and an encoding, so the numbers are proved to survive both: the encoder is tied to the rationals, and a value that the format
holds meets no rounding.
-/

namespace Sys2Proof.Machine

/-! ### Fractions -/

theorem scaleFrac_snd_pos (n : Nat) {d : Nat} (hd : 0 < d) (k : Int) : 0 < (scaleFrac n d k).2 := by
  unfold scaleFrac
  split
  · exact hd
  · exact Nat.mul_pos hd (pow_pos two_pos _)

/-- Scaling multiplies the rational that a fraction stands for by a power of two. -/
theorem scaleFrac_ratio (n d : Nat) (k : Int) :
    ((scaleFrac n d k).1 : ℚ) / (scaleFrac n d k).2 = (n : ℚ) / d * 2 ^ k := by
  unfold scaleFrac
  split
  next hk =>
    obtain ⟨j, rfl⟩ := Int.eq_ofNat_of_zero_le hk
    simp [div_mul_eq_mul_div]
  next hk =>
    obtain ⟨j, hj⟩ := Int.eq_ofNat_of_zero_le (neg_nonneg.2 (not_le.1 hk).le)
    obtain rfl : k = -j := by omega
    simp [div_eq_mul_inv, mul_assoc, mul_comm]

/-- A fraction is below 1 after scaling where its rational is below the inverse power. -/
theorem scaleFrac_lt_iff (n : Nat) {d : Nat} (hd : 0 < d) (k : Int) :
    (scaleFrac n d (-k)).1 < (scaleFrac n d (-k)).2 ↔ (n : ℚ) / d < 2 ^ k := by
  have positive : (0 : ℚ) < (scaleFrac n d (-k)).2 := Nat.cast_pos.2 (scaleFrac_snd_pos n hd (-k))
  rw [← Nat.cast_lt (α := ℚ), ← div_lt_one positive, scaleFrac_ratio, zpow_neg, mul_inv_lt_iff₀ (zpow_pos two_pos k), one_mul]

/-- A natural number other than 0 is between the powers of two around it. -/
theorem log2_zpow_bounds {n : Nat} (hn : 0 < n) : (2 : ℚ) ^ (n.log2 : Int) ≤ n ∧ (n : ℚ) < 2 ^ ((n.log2 : Int) + 1) := by
  exact_mod_cast And.intro (Nat.log2_self_le hn.ne') Nat.lt_log2_self

/-- The first guess at a fraction's exponent, from those of its terms, is right or one too high. -/
theorem ratio_zpow_bounds {n d : Nat} (hn : 0 < n) (hd : 0 < d) :
    (2 : ℚ) ^ ((n.log2 : Int) - d.log2 - 1) ≤ (n : ℚ) / d ∧ (n : ℚ) / d < 2 ^ ((n.log2 : Int) - d.log2 + 1) := by
  obtain ⟨nlo, nhi⟩ := log2_zpow_bounds hn
  obtain ⟨dlo, dhi⟩ := log2_zpow_bounds hd
  have dpos : (0 : ℚ) < d := Nat.cast_pos.2 hd
  constructor
  · calc (2 : ℚ) ^ ((n.log2 : Int) - d.log2 - 1) = 2 ^ (n.log2 : Int) / 2 ^ ((d.log2 : Int) + 1) := by
          rw [← zpow_sub₀ two_ne_zero, sub_sub]
      _ ≤ (n : ℚ) / d := div_le_div₀ n.cast_nonneg nlo dpos dhi.le
  · calc (n : ℚ) / d < 2 ^ ((n.log2 : Int) + 1) / 2 ^ (d.log2 : Int) :=
          div_lt_div₀ nhi dlo (zpow_nonneg two_pos.le _) (zpow_pos two_pos _)
      _ = 2 ^ ((n.log2 : Int) - d.log2 + 1) := by rw [← zpow_sub₀ two_ne_zero, add_sub_right_comm]

/-- The exponent of a positive fraction is the logarithm of its rational, rounded down. -/
theorem fracLog_eq_log {n d : Nat} (hn : 0 < n) (hd : 0 < d) : fracLog n d = Int.log 2 ((n : ℚ) / d) := by
  have positive : (0 : ℚ) < (n : ℚ) / d := div_pos (Nat.cast_pos.2 hn) (Nat.cast_pos.2 hd)
  have below (x : Int) : (n : ℚ) / d < 2 ^ x ↔ Int.log 2 ((n : ℚ) / d) < x := Int.lt_zpow_iff_log_lt one_lt_two positive
  obtain ⟨lo, hi⟩ := ratio_zpow_bounds hn hd
  rw [below] at hi
  rw [← not_lt, below] at lo
  simp only [fracLog, scaleFrac_lt_iff n hd, below]
  split <;> omega

/-- The logarithm of m * 2^k. -/
theorem log_mul_zpow {m : Nat} (hm : 0 < m) (k : Int) : Int.log 2 ((m : ℚ) * 2 ^ k) = m.log2 + k := by
  have positive : (0 : ℚ) < m * 2 ^ k := mul_pos (Nat.cast_pos.2 hm) (zpow_pos two_pos k)
  obtain ⟨lo, hi⟩ := log2_zpow_bounds hm
  have atLeast : (m.log2 : Int) + k ≤ Int.log 2 ((m : ℚ) * 2 ^ k) := by
    rw [← Int.zpow_le_iff_le_log one_lt_two positive, Nat.cast_ofNat, zpow_add₀ two_ne_zero]
    exact mul_le_mul_of_nonneg_right lo (zpow_nonneg two_pos.le k)
  have below : Int.log 2 ((m : ℚ) * 2 ^ k) < m.log2 + 1 + k := by
    rw [← Int.lt_zpow_iff_log_lt one_lt_two positive, Nat.cast_ofNat, zpow_add₀ two_ne_zero]
    exact mul_lt_mul_of_pos_right hi (zpow_pos two_pos k)
  omega

/-! ### Values that a format holds -/

/-- No mode rounds an exact quotient up. -/
theorem roundsUp_exact (rnd : Nat) (neg : Bool) (q : Nat) {d : Nat} (hd : 0 < d) : roundsUp rnd neg q 0 d = false := by
  match rnd with
  | 0 => simp [roundsUp, hd.ne]
  | 1 => rfl
  | 2 => simp [roundsUp]
  | _ + 3 => simp [roundsUp]

theorem roundDiv_exact (rnd : Nat) (neg : Bool) (m : Nat) {d : Nat} (hd : 0 < d) : roundDiv rnd neg (m * d) d = m := by
  simp [roundDiv, Nat.mul_div_cancel m hd, roundsUp_exact rnd neg m hd, b2n]

/-- The bits below the sign of the encoding of m * 2^k, with k the exponent of the last place: m's highest bit, where it is
that of the normal numbers, adds 1 to the exponent field. -/
def placedBits (f : FpFmt) (m : Nat) (k : Int) : Nat := (k + f.mb - (1 - (fpBias f : Int))).toNat * 2 ^ f.mb + m

section
variable {f : FpFmt} {rnd m : Nat} {neg : Bool} {k : Int}

/-- At the lowest last place the exponent field is 0. -/
theorem placedBits_lowest : placedBits f m (1 - (fpBias f : Int) - f.mb) = m := by simp [placedBits]

/-- A normal number's highest bit makes its exponent field whole. -/
theorem placedBits_normal {e : Nat} (he : 0 < e) :
    placedBits f (2 ^ f.mb + m) ((e : Int) - fpBias f - f.mb) = e * 2 ^ f.mb + m := by
  have field : ((e : Int) - fpBias f - f.mb + f.mb - (1 - (fpBias f : Int))).toNat = e - 1 := by omega
  rw [placedBits, field, ← Nat.add_assoc, ← Nat.succ_mul, Nat.succ_eq_add_one, Nat.sub_add_cancel he]

/-- A fraction that is a multiple m of the last place is encoded as it is, where its exponent field leaves it finite. -/
theorem fpRoundFrac_exact {n d : Nat} (hn : 0 < n) (hd : 0 < d) (value : (n : ℚ) / d = m * 2 ^ k)
    (place : max (fracLog n d) (1 - (fpBias f : Int)) = k + f.mb)
    (finite : placedBits f m k < (2 ^ f.eb - 1) * 2 ^ f.mb) :
    fpRoundFrac f rnd neg n d = fpSign f neg + placedBits f m k := by
  have hscale : (f.mb : Int) - (k + f.mb) = -k := by omega
  have positive := scaleFrac_snd_pos n hd (-k)
  have multiple : (scaleFrac n d (-k)).1 = m * (scaleFrac n d (-k)).2 := by
    have ratio := scaleFrac_ratio n d (-k)
    rw [value, mul_assoc, ← zpow_add₀ two_ne_zero, add_neg_cancel, zpow_zero, mul_one,
      div_eq_iff (Nat.cast_ne_zero.2 positive.ne')] at ratio
    exact_mod_cast ratio
  simp only [fpRoundFrac, if_neg hn.ne', place, hscale]
  rw [multiple, roundDiv_exact rnd neg m positive]
  exact if_neg (not_le.2 finite)

/-- A number whose last place is the format's at its exponent is encoded as it is. -/
theorem fpEncode_exact (hm : 0 < m) (place : max (m.log2 + k) (1 - (fpBias f : Int)) = k + f.mb)
    (finite : placedBits f m k < (2 ^ f.eb - 1) * 2 ^ f.mb) :
    fpEncode f rnd (.num neg m k) = fpSign f neg + placedBits f m k := by
  have denominator := scaleFrac_snd_pos m one_pos k
  have value : ((scaleFrac m 1 k).1 : ℚ) / (scaleFrac m 1 k).2 = m * 2 ^ k := by
    rw [scaleFrac_ratio, Nat.cast_one, div_one]
  have numerator : 0 < (scaleFrac m 1 k).1 := by
    refine Nat.pos_of_ne_zero fun hzero => ?_
    have positive : (0 : ℚ) < m * 2 ^ k := mul_pos (Nat.cast_pos.2 hm) (zpow_pos two_pos k)
    rw [hzero, Nat.cast_zero, zero_div] at value
    exact positive.ne value
  rw [← log_mul_zpow hm, ← value, ← fracLog_eq_log numerator denominator] at place
  exact fpRoundFrac_exact numerator denominator value place finite

@[simp] theorem fpEncode_zero : fpEncode f rnd (.num neg 0 k) = fpSign f neg := by
  have zeroNumerator : (scaleFrac 0 1 k).1 = 0 := by simp [scaleFrac, apply_ite Prod.fst]
  simp [fpEncode, fpRoundFrac, zeroNumerator]

/-- The numbers with exponent field 0. -/
theorem fpEncode_subnormal (heb : 1 < 2 ^ f.eb) (hm : m < 2 ^ f.mb) :
    fpEncode f rnd (.num neg m (1 - (fpBias f : Int) - f.mb)) = fpSign f neg + m := by
  obtain rfl | hpos := m.eq_zero_or_pos
  · exact fpEncode_zero
  have place : max (m.log2 + (1 - (fpBias f : Int) - f.mb)) (1 - (fpBias f : Int)) = 1 - (fpBias f : Int) - f.mb + f.mb := by
    have := (Nat.log2_lt hpos.ne').2 hm
    omega
  have finite : m < (2 ^ f.eb - 1) * 2 ^ f.mb := hm.trans_le (Nat.le_mul_of_pos_left _ (Nat.sub_pos_of_lt heb))
  rw [fpEncode_exact hpos place (placedBits_lowest.trans_lt finite), placedBits_lowest]

/-- The numbers with an exponent field e from 1 on. -/
theorem fpEncode_normal {e : Nat} (he : 0 < e) (htop : e < 2 ^ f.eb - 1) (hm : m < 2 ^ f.mb) :
    fpEncode f rnd (.num neg (2 ^ f.mb + m) ((e : Int) - fpBias f - f.mb)) = fpSign f neg + (e * 2 ^ f.mb + m) := by
  have log : (2 ^ f.mb + m).log2 = f.mb := (Nat.log2_eq_iff (by omega)).2 ⟨by omega, by rw [pow_succ]; omega⟩
  have place : max (((2 ^ f.mb + m).log2 : Int) + ((e : Int) - fpBias f - f.mb)) (1 - (fpBias f : Int)) =
      (e : Int) - fpBias f - f.mb + f.mb := by omega
  have finite : e * 2 ^ f.mb + m < (2 ^ f.eb - 1) * 2 ^ f.mb :=
    calc e * 2 ^ f.mb + m < (e + 1) * 2 ^ f.mb := by rw [Nat.succ_mul]; omega
      _ ≤ (2 ^ f.eb - 1) * 2 ^ f.mb := Nat.mul_le_mul_right _ htop
  rw [fpEncode_exact (by omega) place ((placedBits_normal he).trans_lt finite), placedBits_normal he]

/-- The sign of an encoding is what its bits above the exponent field add. -/
theorem fpSign_testBit {x : Nat} (hx : x < 2 ^ (f.eb + f.mb + 1)) :
    fpSign f (x.testBit (f.eb + f.mb)) = x / 2 ^ (f.eb + f.mb) * 2 ^ (f.eb + f.mb) := by
  have oneBit : x / 2 ^ (f.eb + f.mb) < 2 := Nat.div_lt_of_lt_mul (by rwa [← pow_succ])
  rw [Nat.testBit_eq_decide_div_mod_eq, Nat.mod_eq_of_lt oneBit]
  interval_cases x / 2 ^ (f.eb + f.mb) <;> simp [fpSign]

/-- An encoding is made of its sign, its exponent field and its fraction. -/
theorem fpSign_add_fields {x : Nat} (hx : x < 2 ^ (f.eb + f.mb + 1)) :
    fpSign f (x.testBit (f.eb + f.mb)) + (nfld x f.mb f.eb * 2 ^ f.mb + x % 2 ^ f.mb) = x := by
  rw [fpSign_testBit hx, nfld, Nat.shiftRight_eq_div_pow]
  calc x / 2 ^ (f.eb + f.mb) * 2 ^ (f.eb + f.mb) + (x / 2 ^ f.mb % 2 ^ f.eb * 2 ^ f.mb + x % 2 ^ f.mb)
      = (x / 2 ^ f.mb / 2 ^ f.eb * 2 ^ f.eb + x / 2 ^ f.mb % 2 ^ f.eb) * 2 ^ f.mb + x % 2 ^ f.mb := by
        rw [Nat.div_div_eq_div_mul, ← pow_add, Nat.add_comm f.mb, pow_add]
        ring
    _ = x := by rw [Nat.div_add_mod', Nat.div_add_mod']

/-- Encoding gives back what decoding a number took, in every format and mode. -/
theorem fpEncode_fpDecode {x : Nat} (hx : x < 2 ^ (f.eb + f.mb + 1)) (number : fpDecode f x ≠ .nan) :
    fpEncode f rnd (fpDecode f x) = x := by
  have fraction : x % 2 ^ f.mb < 2 ^ f.mb := Nat.mod_lt _ (pow_pos two_pos _)
  have exponent : nfld x f.mb f.eb < 2 ^ f.eb := Nat.mod_lt _ (pow_pos two_pos _)
  rw [fpDecode] at number ⊢
  conv_rhs => rw [← fpSign_add_fields hx]
  split at number
  next htop =>
    split at number
    next hzero => rw [if_pos htop, if_pos hzero, htop, hzero]; rfl
    next => exact absurd rfl number
  next htop =>
    rw [if_neg htop]
    split
    next hzero => rw [fpEncode_subnormal (by omega) fraction, hzero, Nat.zero_mul, Nat.zero_add]
    next hpos => exact fpEncode_normal (by omega) (by omega) fraction

end

/-- A word that holds a number is the encoding of its value. -/
theorem fw_fv (rnd : Nat) {a : Word} (ha : fv a ≠ .nan) : fw rnd (fv a) = a := by
  rw [fw, fv, fpEncode_fpDecode a.isLt ha, BitVec.ofNat_toNat, BitVec.setWidth_eq]

/-! ### NaNs -/

@[simp] theorem fw_nan (rnd : Nat) : fw rnd .nan = 0x7FC00000 := rfl

@[simp] theorem fvNeg_nan : fvNeg .nan = .nan := rfl

@[simp] theorem fvAdd_nan_left (rnd : Nat) (v : FVal) : fvAdd rnd .nan v = .nan := rfl

@[simp] theorem fvAdd_nan_right (rnd : Nat) (v : FVal) : fvAdd rnd v .nan = .nan := by cases v <;> rfl

@[simp] theorem fvMul_nan_left (v : FVal) : fvMul .nan v = .nan := rfl

@[simp] theorem fvMul_nan_right (v : FVal) : fvMul v .nan = .nan := by cases v <;> rfl

section
variable {a b : Word}

theorem fArith_nan (rnd : Nat) (h : fv a = .nan ∨ fv b = .nan) :
    fAdd rnd a b = 0x7FC00000 ∧ fSub rnd a b = 0x7FC00000 ∧ fMul rnd a b = 0x7FC00000 := by
  obtain h | h := h <;> simp [fAdd, fSub, fMul, h]

theorem fFma_nan (rnd : Nat) {c : Word} (h : fv a = .nan ∨ fv b = .nan ∨ fv c = .nan) : fFma rnd a b c = 0x7FC00000 := by
  obtain h | h | h := h <;> simp [fFma, h]

/-! ### Minima and maxima -/

theorem fMin_nan_left (ha : fv a = .nan) : fMin a b = fw 0 (fv b) := by simp [fMin, ha]

theorem fMax_nan_left (ha : fv a = .nan) : fMax a b = fw 0 (fv b) := by simp [fMax, ha]

theorem fMin_nan_right (hb : fv b = .nan) : fMin a b = fw 0 (fv a) := by cases ha : fv a <;> simp [fMin, ha, hb]

theorem fMax_nan_right (hb : fv b = .nan) : fMax a b = fw 0 (fv a) := by cases ha : fv a <;> simp [fMax, ha, hb]

/-- Minus zero counts as less than plus zero. -/
theorem fMin_fMax_zeros :
    fMin 0x80000000 0 = 0x80000000 ∧ fMin 0 0x80000000 = 0x80000000 ∧ fMax 0x80000000 0 = 0 ∧ fMax 0 0x80000000 = 0 := by
  decide +kernel

end

/-- Settles O54: a NaN operand makes the value of an arithmetic operation a NaN, and FMIN and FMAX encode the value of the
other operand again, which gives a number's own encoding. -/
theorem naNsAreCanonicalAndLoseMinima : Obligations.NaNsAreCanonicalAndLoseMinima := by
  intro rnd a b c
  refine ⟨fArith_nan rnd, fFma_nan rnd, fun ha hb => ?number, fun ha hb => ?twoNans, fMin_fMax_zeros⟩
  case number =>
    rw [fMin_nan_left ha, fMax_nan_left ha, fMin_nan_right ha, fMax_nan_right ha, fw_fv 0 hb]
    exact ⟨rfl, rfl, rfl, rfl⟩
  case twoNans =>
    rw [fMin_nan_left ha, fMax_nan_left ha, hb]
    exact ⟨fw_nan 0, fw_nan 0⟩

end Sys2Proof.Machine
end

section
/-!
The statement on the commands of geometry, tiles and strip rings: the geometry unit, the cores and the strips' deadlines are
clocked (R388, R416, R443), and SRING_ENABLE and SRING_DISABLE are writes of SRING_n_CFG (R437, R438).
-/

namespace Sys2Proof.Machine

/-- Settles O8: the units' commands answer while the units run, and the two register writes where the register is live. -/
theorem geometryAndTileCommandsComplete : Obligations.GeometryAndTileCommandsComplete := by
  refine ⟨?renderPass, ?vertexBatchLaunch, ?vertexBatchEnd, ?patchTessellate, ?primitiveSetup, ?binPrimitive, ?tileJobPlace,
    ?fragmentHeatLaunch, ?fragmentHeatEnd, ?tileStore, ?tileJobEnd, ?sringEnable, ?sringDisable, ?stripDeadline⟩
  case renderPass | patchTessellate | primitiveSetup | binPrimitive => exact fun s h => clocked_running s _ h
  case vertexBatchLaunch | vertexBatchEnd | tileJobPlace | fragmentHeatLaunch | fragmentHeatEnd | tileStore | tileJobEnd
      | stripDeadline =>
    exact fun s h _ => clocked_running s _ h
  case sringEnable | sringDisable => exact fun s h _ _ hl => viaHiu_live _ _ _ s h hl

end Sys2Proof.Machine
end

section
/-!
The statements on SYS_RST_N and on units that do not run (R639, R640, R652, R653): a command of a unit has no effect then, and
while SYS_RST_N is low no step takes a unit out of its reset state. Then what SYS_RST_N resets, the commands of resets and
start-up, and a thermal trip.
-/

namespace Sys2Proof.Machine

/-! ### Commands of units that do not run -/

/-- Settles O21: each command of a unit is clocked, but SCALER_LOAD, which is clocked or has no descriptor to load from. -/
theorem stoppedUnitsIgnoreCommands : Obligations.StoppedUnitsIgnoreCommands := by
  intro c s hc hs
  cases c with
  | registerWrite | pairLowRead | pairHighRead | pairLowWrite | pairHighWrite | broadcastWrite | bar4Write | bar4Read
  | poisonedWrite | msixUnmask | hiuIrqAck | hiuSwint | resizableBar | ltbSrcWrite | ltbEnable | sqDoorbell | cqRelease
  | ringEnable | ringDisable | ctx0Load | syncInit | l2cSetway | mmuInv | sringEnable | sringDisable | dspPlaneMap
  | dspScalerMap | tgEnable | tgDisable | csiEnable | csiDisable | hltTwinEnable | resume | vzlRetrain | calendarTick
  | wakeIn | vddAonRise | getVersion | getBoot | setCalendar | setAlarm | readCounters | readLog | requestKat
  | requestDrain | writeSnapshot | fwInstall | recordCommit | snapshotTimer | groomerWatchdog | sysRstNAssert
  | sysRstNDeassert | mainRailDip | perstNAssert | hotReset | linkDown | functionLevelReset | functionResetEnd | bootRom
  | firmwareCheck | boardRecord | lp5Training | selfTestAndMap | ready | dvfsReevaluate | dvfsChangeComplete
  | powerSample | thermalSample | thermtrip | pstateActive | pstateStandby | pstateOff | standbyEntry | standbyExit
  | offReady | pinCfgWrite | pinSet | pinClr | pinTgl | pinEnSet | pinEnClr | pinEnTgl | pinInputChange
  | debounceExpiry | i2cXfer | i2cDone | i2cTimeout | tapReset | extest | samplePreload | idcode | clamp | highz
  | bypass | perstNDeassert | pcieLinkUp | configurationRequest | notReadyRead | mailboxResponse =>
    cases hc
  | scalerLoad m =>
    show execScalerLoad m s = .next s
    unfold execScalerLoad
    split
    · exact clocked_stopped s _ hs
    · rfl
  | synthesisedLineEvent pos =>
    cases pos with
    | none => exact clocked_stopped s _ hs
    | some k => exact clocked_stopped s _ hs
  | _ => exact clocked_stopped s _ hs

/-! ### What resets the units -/

/-- An answer that leaves SYS_RST_N low leaves the units in their reset state. -/
def AnswerHeld (o : Host.Outcome State Fault Refusal) : Prop := ∀ t, o = .next t → HeldInReset t

theorem AnswerHeld.of_next {t : State} (h : HeldInReset t) : AnswerHeld (.next t) := fun u hu => by
  cases hu
  exact h

theorem heldInReset_of_high {s : State} (h : s.pmu.sysRstN = true) : HeldInReset s := fun hlow => by
  rw [h] at hlow
  cases hlow

/-- A reset of the DEVICE scope resets every unit, the memory system and DRAM (R640). -/
theorem unitsReset_deviceReset (s : State) : UnitsReset (deviceReset s) :=
  ⟨rfl, rfl, rfl, rfl, rfl, rfl, rfl, rfl, rfl, rfl, rfl, rfl, rfl, rfl⟩

/-- The end of a command touches no unit but the side of the accesses made, which reset has set. -/
theorem UnitsReset.confine {s t : State} (hs : UnitsReset s) (ht : UnitsReset t) : UnitsReset (confine s t) := by
  obtain ⟨-, -, -, -, -, smem, -⟩ := hs
  obtain ⟨ltb, cfe, ctx, con, twin, mem, rest⟩ := ht
  exact ⟨ltb, cfe, ctx, con, twin, by rw [confine_mem, smem, mem], rest⟩

/-- A command that acts in every state, with SYS_RST_N low. -/
theorem AnswerHeld.aside {s t : State} (hlow : s.pmu.sysRstN = false) (hs : UnitsReset s) (ht : UnitsReset t) :
    AnswerHeld (aside s t) := by
  rw [Machine.aside, hiuRunning_of_low s hlow]
  exact .of_next fun _ => hs.confine ht

/-- An answer with SYS_RST_N high. -/
theorem answerHeld_aside_high {s t : State} (h : s.pmu.sysRstN = true) : AnswerHeld (aside s t) :=
  .of_next (heldInReset_of_high h)

/-- The state of a dip of the main rails before start-up (R639). -/
def railsDown (s : State) : State := onPmu (deviceReset s) fun p => { p with rails := false }

theorem exec_mainRailDip (s : State) : exec .mainRailDip s =
    aside (railsDown s) (if s.pmu.sysRstN then startUp (railsDown s) else railsDown s) := rfl

/-- A reset of the DEVICE scope, and a rise of SYS_RST_N, from every state. -/
theorem exec_resetsDevice_held (c : Instr) (s : State) (hc : resetsDevice c = true) : AnswerHeld (exec c s) := by
  unfold resetsDevice at hc
  split at hc
  · exact .of_next fun _ => unitsReset_deviceReset { s with aon := {} }
  · exact .of_next fun _ => unitsReset_deviceReset s
  · next straps =>
    show AnswerHeld (execSysRstNDeassert straps s)
    unfold execSysRstNDeassert
    split
    · next high => exact .of_next (heldInReset_of_high high)
    · exact answerHeld_aside_high rfl
  · rw [exec_mainRailDip]
    cases hr : s.pmu.sysRstN with
    | true => exact answerHeld_aside_high hr
    | false => exact .aside hr (unitsReset_deviceReset s) (unitsReset_deviceReset s)
  · cases hc

/-! ### Commands that act while SYS_RST_N is low -/

section
variable (s : State) (hlow : s.pmu.sysRstN = false)
include hlow

/-- The pads are not evaluated in reset (R639). -/
theorem pinSettle_of_low : pinSettle s = s := by simp [pinSettle, hiuRunning_of_low s hlow]

theorem UnitsReset.pinSettle (hu : UnitsReset s) : UnitsReset (pinSettle s) := by
  rw [pinSettle_of_low s hlow]
  exact hu

/-- A wake source is noted in the AON domain alone, while the groomer is in reset (R614). -/
theorem wake_of_low (cause : Nat) : ∃ a, wake s cause = { s with aon := a } := by
  unfold wake
  dsimp only
  split
  · rw [if_neg (by show ¬ s.pmu.sysRstN = true; simp [hlow])]
    exact ⟨_, rfl⟩
  · exact ⟨_, rfl⟩

/-- So is a tick of the calendar (R615). -/
theorem calendarTick_of_low : ∃ a, calendarTick s = { s with aon := a } := by
  unfold calendarTick
  dsimp only
  split
  · obtain ⟨a, ha⟩ := wake_of_low
      (onAon s fun a => { a with cal := s.aon.calNext.getD (calNext s.aon.cal), calNext := none }) hlow 1
    refine ⟨a, ?_⟩
    rw [ha, if_pos (by show (_ || !s.pmu.sysRstN) = true; simp [hlow])]
    rfl
  · rw [if_pos (by show (_ || !s.pmu.sysRstN) = true; simp [hlow])]
    exact ⟨_, rfl⟩

/-- A reset of the FUNCTION scope of units in their reset state (R640). -/
theorem unitsReset_functionReset (hu : UnitsReset s) (cause : FnCause) : UnitsReset (functionReset s cause) := by
  obtain ⟨-, -, -, -, -, mem, -, -, -, -, -, -, -, dram⟩ := hu
  obtain ⟨g, hg⟩ := katReset_eq s
  show UnitsReset (pinSettle (functionCleared s cause))
  have low : (functionCleared s cause).pmu.sysRstN = false := by
    rw [functionCleared, hg]
    exact hlow
  rw [pinSettle_of_low _ low, functionCleared, hg]
  refine ⟨rfl, rfl, rfl, rfl, rfl, ?_, rfl, rfl, rfl, rfl, rfl, rfl, rfl, dram⟩
  show ({ dramErr := s.mem.dramErr } : MemSys) = {}
  rw [mem]

/-- Units in their reset state stay in it, whatever command comes while SYS_RST_N is low: of the answers in a clock domain
none changes the state, and the commands that act in every state reach the AON domain, the host interface and the pins. -/
theorem exec_held_of_low (hu : UnitsReset s) (c : Instr) : AnswerHeld (exec c s) := by
  have stands : AnswerHeld (.next s) := .of_next fun _ => hu
  have notClocked {t : State} : AnswerHeld (clocked s t) := by rwa [clocked_stopped s t (running_of_low s hlow)]
  have notGroomed {t : State} : AnswerHeld (groomed s t) := by rwa [groomed_stopped s t (by simp [grmRunning, hlow])]
  have notServed {t : State} : AnswerHeld (served s t) := by rwa [served_stopped s t (hiuRunning_of_low s hlow)]
  have acts {t : State} (ht : UnitsReset t) : AnswerHeld (aside s t) := .aside hlow hu ht
  cases c with
  | vddAonRise | sysRstNAssert | sysRstNDeassert | mainRailDip => exact exec_resetsDevice_held _ s rfl
  | calendarTick =>
    obtain ⟨a, ha⟩ := calendarTick_of_low s hlow
    exact acts (by rw [ha]; exact hu)
  | wakeIn =>
    obtain ⟨a, ha⟩ := wake_of_low s hlow 2
    exact acts (by rw [ha]; exact hu)
  | groomerWatchdog => exact acts (by rw [hlow, Bool.and_false, if_neg Bool.false_ne_true]; exact hu)
  | perstNAssert => exact acts (unitsReset_functionReset s hlow hu .perst)
  | perstNDeassert => exact acts hu
  | pinInputChange | tapReset | samplePreload | idcode | clamp | highz | bypass => exact acts (.pinSettle _ hlow hu)
  | extest shift =>
    refine acts ?_
    unfold extestEffect
    split
    · exact .pinSettle _ hlow hu
    · exact .pinSettle _ hlow hu
  | dvfsReevaluate | dvfsChangeComplete | powerSample | thermalSample => exact notGroomed
  | broadcastWrite | poisonedWrite | msixUnmask | hiuIrqAck | hiuSwint | resizableBar | ltbSrcWrite | ltbEnable
  | cqRelease | ringEnable | ringDisable | ctx0Load | syncInit | l2cSetway | mmuInv | sringEnable | sringDisable
  | dspPlaneMap | dspScalerMap | tgEnable | tgDisable | csiEnable | csiDisable | hltTwinEnable | resume | vzlRetrain
  | pstateActive | pstateStandby | pstateOff | pinCfgWrite | pinSet | pinClr | pinTgl | pinEnSet | pinEnClr
  | pinEnTgl | i2cXfer | configurationRequest | registerWrite | sqDoorbell | bar4Read | notReadyRead | recordCommit
  | snapshotTimer | hotReset | linkDown | functionLevelReset | functionResetEnd | bootRom | firmwareCheck
  | boardRecord | lp5Training | selfTestAndMap | ready | thermtrip | standbyEntry | standbyExit | offReady
  | debounceExpiry | i2cDone | i2cTimeout | pcieLinkUp | mailboxResponse | getVersion | getBoot | setCalendar
  | setAlarm | readCounters | readLog | requestKat | requestDrain | writeSnapshot | fwInstall =>
    exact notServed
  | bar4Write off bytes =>
    show AnswerHeld (bar4WriteVia (bar4Base s) off bytes s)
    unfold bar4WriteVia
    dsimp only
    split
    · exact notServed
    · exact notServed
  | pairLowRead path | pairHighRead path =>
    cases path with
    | host => exact notServed
    | spit => exact notClocked
  | pairLowWrite path | pairHighWrite path =>
    cases path with
    | host => exact notServed
    | spit => exact stands
  | synthesisedLineEvent pos =>
    cases pos with
    | none => exact notClocked
    | some k => exact notClocked
  | scalerLoad m =>
    show AnswerHeld (execScalerLoad m s)
    unfold execScalerLoad
    split
    · exact notClocked
    · exact stands
  | _ => exact notClocked

end

/-! ### Steps -/

/-- Every command keeps the invariant: with SYS_RST_N high, only a reset of the DEVICE scope takes it low. -/
theorem exec_held (s : State) (hs : HeldInReset s) (c : Instr) : AnswerHeld (exec c s) := by
  cases hlow : s.pmu.sysRstN with
  | false => exact exec_held_of_low s hlow (hs hlow) c
  | true =>
    cases hc : resetsDevice c with
    | true => exact exec_resetsDevice_held c s hc
    | false =>
      obtain ⟨t, ht, -, level⟩ := (exec_form c s hc).keeps
      rw [ht]
      exact .of_next (heldInReset_of_high (level.trans hlow))

/-- Settles O22: a step is a command, or a cycle, which passes only with SYS_RST_N high. -/
theorem stepKeepsUnitsHeldInReset : Obligations.StepKeepsUnitsHeldInReset := by
  intro s t hs ht
  unfold step at ht
  split at ht
  · obtain ⟨u, hu, -, level⟩ := clocked_next s (coreTick s)
    cases hlow : s.pmu.sysRstN with
    | true =>
      rw [idle, hu] at ht
      cases ht
      exact heldInReset_of_high (level.trans hlow)
    | false =>
      rw [idle, clocked_stopped s _ (running_of_low s hlow)] at ht
      cases ht
      exact hs
  · next c rest _ => exact exec_held { s with pending := rest } hs c t ht

/-- Settles O23: State.reset has every unit in its reset state, and no line stands in its L2. -/
theorem resetHoldsTheUnits : Obligations.ResetHoldsTheUnits := by
  have units : UnitsReset State.reset := ⟨rfl, rfl, rfl, rfl, rfl, rfl, rfl, rfl, rfl, rfl, rfl, rfl, rfl, rfl⟩
  have noLine (key w : Nat) (l : Line) : (l2Set State.reset key).ways[w]? ≠ some (some l) := by
    have empty : (l2Set State.reset key).ways = List.replicate 16 none := rfl
    rw [empty, List.getElem?_replicate]
    split <;> simp
  exact ⟨rfl, rfl, fun _ => units, rfl, fun key => ⟨rfl, fun w l h => absurd h (noLine key w l)⟩, rfl, rfl⟩

/-! ### SYS_RST_N -/

/-- A register that a reset keeps in the store reads as before. -/
theorem storeGet_filter_kept {β : Type} (d : Nat → β) (m : Store β) (p : Nat × β → Bool) (k : Nat)
    (h : ∀ v, p (k, v) = true) : storeGet d (m.filter p) k = storeGet d m k := by
  induction m with
  | nil => rfl
  | cons e m ih =>
    obtain ⟨j, v⟩ := e
    by_cases hj : j = k
    · subst hj
      rw [List.filter_cons_of_pos (h v), storeGet, storeGet, if_pos rfl, if_pos rfl]
    · rw [List.filter_cons]
      split
      · rw [storeGet, storeGet, if_neg hj, if_neg hj, ih]
      · rw [storeGet, if_neg hj, ih]

/-- Settles O44: the effect is a reset of the DEVICE scope, which filters the register store by keptByDevice. -/
theorem sysRstNResetsTheDevice : Obligations.SysRstNResetsTheDevice := fun s =>
  ⟨_, rfl, rfl, unitsReset_deviceReset s, rfl, rfl, rfl,
    fun off dropped => storeGet_filter_dropped regReset _ _ off fun _ => dropped,
    fun off kept => storeGet_filter_kept regReset _ _ off fun _ => kept⟩

/-! ### Completion -/

/-- The end of a cycle is no command of the PMU. -/
theorem cycleEnd_pmu (s t : State) : (cycleEnd s t).pmu = t.pmu := by
  rw [cycleEnd, conSettle_pmu, irqSettle_pmu, pmu_of_padsOnly (padsOnly_padFollow s t)]

theorem cycleEnd_dram (s t : State) : (cycleEnd s t).dram = t.dram := by
  rw [← confine_dram s]
  exact (sameMemory_after s t).dram

theorem afterAside_pmu (s t : State) : (afterAside s t).pmu = { t.pmu with sysRstN := s.pmu.sysRstN } := by
  unfold afterAside
  split
  · rw [confine_pmu, cycleEnd_pmu]
  · rw [confine_pmu]

theorem afterAside_dram (s t : State) : (afterAside s t).dram = t.dram := by
  unfold afterAside
  split
  · rw [confine_dram, cycleEnd_dram]
  · rw [confine_dram]

/-- Settles O14: resets that end in no cycle of the block are their effect; the others act in every state, and start-up is
answered in the domain of the HIU. -/
theorem resetAndStartUpCommandsComplete : Obligations.ResetAndStartUpCommandsComplete := by
  refine ⟨?vddAonRise, ?groomerWatchdog, ?sysRstNAssert, ?sysRstNDeassert, ?mainRailDip, ?perstNAssert, ?hotReset, ?linkDown,
    ?functionLevelReset, ?functionResetEnd, ?bootRom, ?firmwareCheck, ?boardRecord, ?lp5Training, ?selfTestAndMap, ?ready,
    ?perstNDeassert, ?pcieLinkUp⟩
  case vddAonRise | groomerWatchdog | sysRstNAssert | perstNAssert | perstNDeassert => exact fun s => rfl
  case sysRstNDeassert =>
    refine fun s straps hlow => ⟨_, ?_, rfl⟩
    show execSysRstNDeassert straps s = _
    rw [execSysRstNDeassert, if_neg (by simp [hlow])]
    rfl
  case mainRailDip =>
    refine fun s => ⟨afterAside (railsDown s) (if s.pmu.sysRstN then startUp (railsDown s) else railsDown s),
      exec_mainRailDip s, ?_, ?_, ?_, fun high => ?_⟩
    · rw [afterAside_pmu]
      split <;> rfl
    · rw [afterAside_pmu]
      rfl
    · rw [afterAside_dram]
      split <;> rfl
    · rw [afterAside_pmu, if_pos high]
      rfl
  case hotReset | linkDown | functionLevelReset | functionResetEnd | ready => exact fun s h => served_running s _ h
  case boardRecord | lp5Training => exact fun s h _ => served_running s _ h
  case bootRom | firmwareCheck | selfTestAndMap => exact fun s h _ _ => served_running s _ h
  case pcieLinkUp => exact fun s h _ _ _ _ => served_running s _ h

/-! ### A thermal trip -/

/-- The trip holds every pin and stops the clocks (R652, R673). -/
theorem thermTrip_eq (s : State) (h : hiuRunning s = true) :
    thermTrip s = onPins (onPmu (pinHold s) fun p => { p with tripped := true }) fun p => { p with frozen := true } := by
  simp [thermTrip, h]

/-- Nothing that a unit drives changes at a trip. -/
theorem padOutputs_thermTrip (s : State) (h : hiuRunning s = true) : padOutputs (thermTrip s) = padOutputs s := by
  rw [thermTrip_eq s h]
  rfl

theorem after_aon (s t : State) (hp : padOutputs t = padOutputs s) : (after s t).aon = t.aon := by
  rw [after, confine_aon, cycleEnd_same s t hp, conSettle_aon, irqSettle_aon]

theorem after_grm (s t : State) (hp : padOutputs t = padOutputs s) : (after s t).grm = t.grm := by
  rw [after, confine_grm, cycleEnd_same s t hp, conSettle_grm, irqSettle_grm]

theorem running_of_tripped {s : State} (h : s.pmu.tripped = true) : running s = false := by simp [running, h]

theorem hiuRunning_of_tripped {s : State} (h : s.pmu.tripped = true) : hiuRunning s = false := by simp [hiuRunning, h]

theorem exec_thermtrip (s : State) (sensor : Fin 20) (h : hiuRunning s = true) :
    exec (.thermtrip sensor) s = .next (after s (thermTrip s)) := served_running s _ h

/-- Settles O58: the trip changes the PMU and the pins alone, and with it neither the units nor the HIU run. -/
theorem thermtripStopsTheUnits : Obligations.ThermtripStopsTheUnits := by
  intro s sensor hrun
  have same := padOutputs_thermTrip s hrun
  have tripped : (after s (thermTrip s)).pmu.tripped = true := by
    rw [after, confine_pmu, cycleEnd_pmu, thermTrip_eq s hrun]
    rfl
  have kept : RegsKept s (after s (thermTrip s)) [] := regsKept_after s _ [] same fun off _ =>
    rd_of_regs s _ (by rw [thermTrip_eq s hrun]; rfl) off
  refine ⟨after s (thermTrip s), exec_thermtrip s sensor hrun, tripped, running_of_tripped tripped, hiuRunning_of_tripped tripped,
    kept, ?_, ?_, ?_⟩
  · rw [after_aon s _ same, thermTrip_eq s hrun]
    rfl
  · rw [after_grm s _ same, thermTrip_eq s hrun]
    rfl
  · rw [after, confine_dram, cycleEnd_dram, thermTrip_eq s hrun]
    rfl

end Sys2Proof.Machine
end

section
/-!
The statements that each command of compression, twin pairs, device health and the groomer, and the pins completes with its
own effect: the units' clock answers a unit's command, the HIU's domain one of the groomer or of the pins, and a host request
writes its register where that is live. And the two of displays and cameras and of the Virzel fabric, each of which names
another effect for one row than exec has: CSI_EVENT_RELEASE (R488) and VZL_SIGNAL (R540, R583).
-/

namespace Sys2Proof.Machine

/-- Settles O9: each of the rows is a command of a unit, which answers while the units run. -/
theorem compressionCommandsComplete : Obligations.CompressionCommandsComplete := by
  refine ⟨?pack, ?unpack, ?cmpPackBlock, ?cmpUnpackBlock⟩
  case pack | unpack => exact fun s h => clocked_running s _ h
  case cmpPackBlock | cmpUnpackBlock => exact fun s h _ => clocked_running s _ h

/-- Settles O11: the twin logic's records and events are clocked, and its two registers are written by host requests. -/
theorem twinCommandsComplete : Obligations.TwinCommandsComplete := by
  refine ⟨?checkpoint, ?hltTwinEnable, ?hello, ?helloResend, ?desc, ?write, ?sync, ?lt, ?twinLtEvent, ?tgsync, ?ckpt,
    ?verdict, ?repeatEnd, ?loss, ?echoRequest, ?echo, ?strip, ?checkerTimeout, ?resume, ?katEnd⟩
  case checkpoint | hello | helloResend | desc | write | sync | lt | twinLtEvent | ckpt | verdict | loss | echoRequest
      | strip =>
    exact fun s h => clocked_running s _ h
  case tgsync | repeatEnd | echo | checkerTimeout => exact fun s h _ => clocked_running s _ h
  case katEnd => exact fun s h _ _ => clocked_running s _ h
  case hltTwinEnable | resume => exact fun s h _ hl => viaHiu_live _ _ _ s h hl

/-- Settles O13: health is clocked, the groomer answers in the HIU's domain, and the calendar and WAKE_IN act in every
state. -/
theorem healthAndGroomerCommandsComplete : Obligations.HealthAndGroomerCommandsComplete := by
  refine ⟨?katStart, ?ladderSettle, ?clusterPowerOff, ?periodicSweep, ?drainGraceExpiry, ?calendarTick, ?wakeIn,
    ?agingMeasurement, ?getVersion, ?getBoot, ?setCalendar, ?setAlarm, ?readCounters, ?readLog, ?requestKat, ?requestDrain,
    ?writeSnapshot, ?fwInstall, ?recordCommit, ?snapshotTimer, ?mailboxResponse⟩
  case katStart | ladderSettle | clusterPowerOff => exact fun s h _ => clocked_running s _ h
  case periodicSweep | drainGraceExpiry => exact fun s h => clocked_running s _ h
  case agingMeasurement => exact fun s h _ _ _ => clocked_running s _ h
  case calendarTick | wakeIn => exact fun s => rfl
  case getVersion | getBoot | setCalendar | setAlarm | readCounters | readLog | requestKat | requestDrain | writeSnapshot
      | snapshotTimer | mailboxResponse =>
    exact fun s h => served_running s _ h
  case recordCommit => exact fun s h _ => served_running s _ h
  case fwInstall => exact fun s h _ _ => served_running s _ h

/-- Settles O16: pin registers are written by host requests, the sync inputs are clocked, I2C and the debounce answer in the
HIU's domain, and the board's inputs and the test access port act in every state. -/
theorem pinCommandsComplete : Obligations.PinCommandsComplete := by
  refine ⟨?fsyncInEdge, ?lsyncInEdge, ?pinCfgWrite, ?pinSet, ?pinClr, ?pinTgl, ?pinEnSet, ?pinEnClr, ?pinEnTgl,
    ?pinInputChange, ?debounceExpiry, ?i2cXfer, ?i2cDone, ?i2cTimeout, ?tapReset, ?extest, ?samplePreload, ?idcode, ?clamp,
    ?highz, ?bypass⟩
  case fsyncInEdge | lsyncInEdge => exact fun s h => clocked_running s _ h
  case pinCfgWrite | pinSet | pinClr | pinTgl | i2cXfer => exact fun s h _ _ hl => viaHiu_live _ _ _ s h hl
  case pinEnSet | pinEnClr | pinEnTgl => exact fun s h _ hl => viaHiu_live _ _ _ s h hl
  case debounceExpiry => exact fun s h _ => served_running s _ h
  case i2cDone | i2cTimeout => exact fun s h _ _ => served_running s _ h
  case pinInputChange => exact fun s _ _ => rfl
  case extest | samplePreload => exact fun s _ => rfl
  case tapReset | idcode | clamp | highz | bypass => exact fun s => rfl

/-! ### CSI_EVENT_RELEASE -/

/-- While the units run, the bytes at the front of a port's queue are accepted, with the events held behind them. -/
theorem exec_csiEventRelease (s : State) (port : Fin 4) (h : running s = true) :
    exec (.csiEventRelease port) s = .next (after s (camRelease s port.val)) := clocked_running s _ h

/-- The end of a cycle leaves the camera ports as the command's effect has them. -/
theorem after_cam (s t : State) : (after s t).cam = t.cam := by
  obtain ⟨⟨_, _, _, _, _, _, hp⟩, -⟩ := padsOnly_padFollow s t
  rw [after, confine_cam, cycleEnd, conSettle_cam, irqSettle_cam, hp]

/-- Bytes captured before and after a synthesised line event, which is held behind the first of them. -/
def capturePort : CamPort := { queue := [.dram 0 [1], .synth, .dram 1 [2]], holds := [0] }

/-- The device in ACTIVE with those items waiting in CSI_0. -/
def capturing : State :=
  { State.reset with
    pmu := { State.reset.pmu with sysRstN := true }
    cam := capturePort :: List.replicate 3 {} }

theorem running_capturing : running capturing = true := by decide +kernel

/-- The release leaves the bytes captured after the event waiting; a drain of the port takes them too. -/
theorem queue_capturing : (camAt (camRelease capturing 0) 0).queue = [.dram 1 [2]] ∧
    (camAt (camDrain capturing 0) 0).queue = [] := by decide +kernel

/-- Refutes O10: its clause for CSI_EVENT_RELEASE drains the port, while exec leaves the bytes captured after the held event of
the port of capturing waiting (R488). -/
theorem not_displayAndCameraCommandsComplete : ¬ Obligations.DisplayAndCameraCommandsComplete := by
  intro ⟨_, _, _, _, _, _, _, _, _, _, _, _, _, _, _, _, _, _, drains⟩
  have drained : after capturing (camRelease capturing 0) = after capturing (camDrain capturing 0) :=
    Host.Outcome.next.inj ((exec_csiEventRelease capturing 0 running_capturing).symm.trans
      (drains capturing running_capturing 0))
  have sameCam := congrArg State.cam drained
  rw [after_cam, after_cam] at sameCam
  have sameQueue : (camAt (camRelease capturing 0) 0).queue = (camAt (camDrain capturing 0) 0).queue := by
    rw [camAt, camAt, sameCam]
  obtain ⟨released, empty⟩ := queue_capturing
  rw [released, empty] at sameQueue
  cases sameQueue

/-! ### VZL_SIGNAL -/

/-- While the units run, the SIGNAL at the front of the inbound queue is served unless it must wait. -/
theorem exec_vzlSignal (s : State) (h : running s = true) : exec .vzlSignal s = .next (after s (serveSignals s)) :=
  clocked_running s _ h

/-- The end of a cycle leaves the Virzel block as the command's effect has it. -/
theorem after_vzl (s t : State) : (after s t).vzl = t.vzl := by
  obtain ⟨⟨_, _, _, _, _, _, hp⟩, -⟩ := padsOnly_padFollow s t
  rw [after, confine_vzl, cycleEnd, conSettle_vzl, irqSettle_vzl, hp]

/-- A SIGNAL of object 0. -/
def signalPacket : VzlPkt := { h0 := 4 }

/-- The primary of a CHECKED pair in ACTIVE, whose context 0 takes remote signals, with that SIGNAL received and a sync change
waiting for its mirror record to fit. -/
def mirrorFull : State :=
  { State.reset with
    regs := [(Reg.hltTwinCtrl, 1), (Reg.hltTwinStatus, 2), (Reg.vzlInSig, 0x100)]
    pmu := { State.reset.pmu with sysRstN := true }
    ctx := { State.reset.ctx with syncQ := [.signal 0 1 0], slots := State.reset.ctx.slots.set 0 { state := .loaded } }
    vzl := { State.reset.vzl with inQ := [signalPacket] } }

theorem running_mirrorFull : running mirrorFull = true := by decide +kernel

/-- The SIGNAL waits at the front of the inbound queue; to serve it takes it off. -/
theorem inQ_mirrorFull : (serveSignals mirrorFull).vzl.inQ = [signalPacket] ∧
    (serve mirrorFull 4 serveSignal).vzl.inQ = [] := by decide +kernel

/-- Refutes O12: its clause for VZL_SIGNAL serves the SIGNAL at once, while exec has that of mirrorFull wait until its mirror
record fits (R540). -/
theorem not_fabricCommandsComplete : ¬ Obligations.FabricCommandsComplete := by
  intro ⟨_, _, _, _, _, _, _, _, _, _, _, _, _, servesNow, _⟩
  have served : after mirrorFull (serveSignals mirrorFull) = after mirrorFull (serve mirrorFull 4 serveSignal) :=
    Host.Outcome.next.inj ((exec_vzlSignal mirrorFull running_mirrorFull).symm.trans
      (servesNow mirrorFull running_mirrorFull))
  have sameVzl := congrArg State.vzl served
  rw [after_vzl, after_vzl] at sameVzl
  obtain ⟨waits, gone⟩ := inQ_mirrorFull
  rw [sameVzl, gone] at waits
  cases waits

end Sys2Proof.Machine
end

section
/-!
The statement on the calendar (R614, R615, R616): a tick turns a valid date and time into a valid one, and takes effect also
while the HIU does not run.
-/

namespace Sys2Proof.Machine

/-! ### Dates -/

/-- A calendar value's seconds, month and day are in range (R615). -/
def CalDate (v : DWord) : Prop :=
  fld v 10 17 < 86400 ∧ 1 ≤ fld v 32 4 ∧ fld v 32 4 ≤ 12 ∧ 1 ≤ fld v 27 5 ∧ fld v 27 5 ≤ monthDays (fld v 36 12) (fld v 32 4)

theorem monthDays_le (year month : Nat) : monthDays year month ≤ 31 := by
  unfold monthDays
  split
  · split <;> decide
  · split <;> decide

theorem one_le_monthDays (year month : Nat) : 1 ≤ monthDays year month := by
  unfold monthDays
  split
  · split <;> decide
  · split <;> decide

/-- The fields of a value that is made of fields in range. -/
theorem fld_calMake {valid year month day second sub : Nat} (hy : year < 2 ^ 12) (hm : month < 2 ^ 4)
    (hd : day < 2 ^ 5) (hs : second < 2 ^ 17) (hu : sub < 2 ^ 10) :
    let v : DWord := BitVec.ofNat 64 (calMake valid year month day second sub)
    fld v 10 17 = second ∧ fld v 27 5 = day ∧ fld v 32 4 = month ∧ fld v 36 12 = year := by
  simp only [fld, BitVec.toNat_ofNat, Nat.shiftRight_eq_div_pow, calMake]
  omega

/-- A value made of a date and time in range is a date. -/
theorem calDate_calMake {valid year month day second sub : Nat} (hy : year < 2 ^ 12) (hm : 1 ≤ month ∧ month ≤ 12)
    (hd : 1 ≤ day ∧ day ≤ monthDays year month) (hs : second < 86400) (hu : sub < 2 ^ 10) :
    CalDate (BitVec.ofNat 64 (calMake valid year month day second sub)) := by
  have := monthDays_le year month
  obtain ⟨fs, fd, fm, fy⟩ := fld_calMake (month := month) (day := day) (second := second) hy (by omega) (by omega) (by omega) hu
  rw [CalDate, fs, fd, fm, fy]
  omega

/-- A tick keeps the date valid: each field that overflows returns to its least value and carries into the next (R615). -/
theorem calDate_calNext (v : DWord) (h : CalDate v) : CalDate (calNext v) := by
  obtain ⟨hs, hm1, hm12, hd1, hd⟩ := h
  have year : fld v 36 12 < 2 ^ 12 := Nat.mod_lt _ (by decide)
  have firstDay (y m : Nat) : 1 ≤ 1 ∧ 1 ≤ monthDays y m := ⟨le_rfl, one_le_monthDays y m⟩
  unfold calNext
  dsimp only
  split
  · exact calDate_calMake year ⟨hm1, hm12⟩ ⟨hd1, hd⟩ hs (by omega)
  split
  · exact calDate_calMake year ⟨hm1, hm12⟩ ⟨hd1, hd⟩ (by omega) (by decide)
  split
  · exact calDate_calMake year ⟨hm1, hm12⟩ (by omega) (by decide) (by decide)
  split
  · exact calDate_calMake year (by omega) (firstDay _ _) (by decide) (by decide)
  split
  · exact calDate_calMake (by omega) (by decide) (firstDay _ _) (by decide) (by decide)
  · exact ⟨hs, hm1, hm12, hd1, hd⟩

/-! ### A tick -/

/-- The calendar and whether the HIU runs are the same in two states. -/
structure SameCalendar (s t : State) : Prop where
  cal : t.aon.cal = s.aon.cal
  calNext : t.aon.calNext = s.aon.calNext
  sysRstN : t.pmu.sysRstN = s.pmu.sysRstN
  tripped : t.pmu.tripped = s.pmu.tripped

namespace SameCalendar

variable {s t u : State}

theorem refl (s : State) : SameCalendar s s := ⟨rfl, rfl, rfl, rfl⟩

theorem trans (h : SameCalendar s t) (k : SameCalendar t u) : SameCalendar s u :=
  ⟨k.cal.trans h.cal, k.calNext.trans h.calNext, k.sysRstN.trans h.sysRstN, k.tripped.trans h.tripped⟩

theorem ite (p : Prop) [Decidable p] (ht : SameCalendar s t) (hu : SameCalendar s u) : SameCalendar s (if p then t else u) := by
  split
  · exact ht
  · exact hu

theorem foldl {α : Type} (f : State → α → State) (l : List α) (h : ∀ u a, SameCalendar u (f u a)) (s : State) :
    SameCalendar s (l.foldl f s) :=
  List.foldlRecOn (motive := SameCalendar s) l f (refl s) fun u hu a _ => hu.trans (h u a)

theorem wearAdd (h : SameCalendar s t) (i k : Nat) : SameCalendar s (wearAdd t i k) :=
  h.trans ⟨rfl, rfl, rfl, rfl⟩

theorem hiuRunning (h : SameCalendar s t) : hiuRunning t = hiuRunning s := by
  rw [Machine.hiuRunning, h.sysRstN, h.tripped, Machine.hiuRunning]

end SameCalendar

section
variable (s : State)

theorem sameCalendar_wearSeconds : SameCalendar s (wearSeconds s) := by
  unfold wearSeconds
  extract_lets bins powered hot counted
  have hbins : SameCalendar s bins :=
    .trans (.wearAdd (.refl s) _ _) (.foldl clusterSeconds _ (fun u c => .wearAdd (.refl u) _ _) _)
  have hpowered : SameCalendar bins powered := .ite _ (.refl bins) (.foldl _ _ (fun u c => .wearAdd (.refl u) _ _) _)
  have hcounted : SameCalendar s counted := (hbins.trans hpowered).wearAdd _ _
  exact .ite _ (hcounted.wearAdd _ _) hcounted

/-- A return from STANDBY is begun in the PMU's target, PMU_STATUS and PME. -/
theorem sameCalendar_wakeStandby : SameCalendar s (wakeStandby s) := by
  unfold wakeStandby
  dsimp only
  exact .ite _ (.refl s) (.ite _ ⟨rfl, rfl, rfl, rfl⟩ ⟨rfl, rfl, rfl, rfl⟩)

theorem sameCalendar_wake (cause : Nat) : SameCalendar s (wake s cause) := by
  have noted : SameCalendar s (onAon s fun a => { a with wakeCause := cause }) := ⟨rfl, rfl, rfl, rfl⟩
  have event {u : State} : SameCalendar u (setEv u Reg.grmEvents 5) := ⟨rfl, rfl, rfl, rfl⟩
  exact .ite _ (.ite _ ((noted.trans event).trans (sameCalendar_wakeStandby _)) noted) ⟨rfl, rfl, rfl, rfl⟩

/-- The state with the calendar one tick on: SET_CALENDAR's value, if one waits (R615, R616). -/
def calendarMoved : State := onAon s fun a => { a with cal := s.aon.calNext.getD (calNext s.aon.cal), calNext := none }

/-- While the HIU does not run, what else a tick does reaches wear counters and wake sources, and no calendar. -/
theorem sameCalendar_calendarTick (h : hiuRunning s = false) : SameCalendar (calendarMoved s) (calendarTick s) := by
  unfold calendarTick
  extract_lets old new moved woken seconds hours
  have hwoken : SameCalendar moved woken := .ite _ (sameCalendar_wake moved 1) (.refl moved)
  refine .ite _ hwoken ?_
  have hseconds : SameCalendar woken seconds := .ite _ (.refl woken) (sameCalendar_wearSeconds woken)
  have hhours : SameCalendar seconds hours := .ite _ (.refl seconds) ⟨rfl, rfl, rfl, rfl⟩
  have all := (hwoken.trans hseconds).trans hhours
  have stopped : hiuRunning hours = false := all.hiuRunning.trans h
  rw [stopped, Bool.and_false, if_neg Bool.false_ne_true]
  exact all

end

/-- Settles O59: calNext keeps a date valid, and the command's effect is calendarMoved as far as the calendar goes. -/
theorem calendarStaysADate : Obligations.CalendarStaysADate := by
  refine ⟨fun v hs hm1 hm12 hd1 hd => calDate_calNext v ⟨hs, hm1, hm12, hd1, hd⟩, fun s h => ?_⟩
  have same := sameCalendar_calendarTick s h
  refine ⟨confine s (calendarTick s), ?_, same.cal, same.calNext⟩
  show aside s (calendarTick s) = _
  rw [aside, h, if_neg Bool.false_ne_true]

end Sys2Proof.Machine
end

section
/-!
The statement on registers that ignore writes (R449, R453, R480, R495, R632, R675): which of the conditions of writeIgnored each
of its cases is.
-/

namespace Sys2Proof.Machine

section
variable {s : State} {off : Nat}

theorem writeIgnored_shadow (h : (shadowHome off).isSome = true) : writeIgnored s off = true := by
  simp only [writeIgnored, h, Bool.or_true, Bool.true_or]

theorem writeIgnored_tgFixed {m : Nat} (hm : m < 4) (he : tgEnabled s m = true) (hlow : Reg.tgCtrl m < off)
    (hhigh : off ≤ Reg.dsiPktDelay m) : writeIgnored s off = true := by
  have fixed : tgFixed s off = true := List.any_eq_true.2 ⟨m, List.mem_range.2 hm, by simp [he, hlow, hhigh]⟩
  simp only [writeIgnored, fixed, Bool.or_true, Bool.true_or]

theorem writeIgnored_csiFixed {n : Nat} (hn : n < 4) (he : csiEnabled s n = true) (hlow : Reg.csiCtrl n < off)
    (hhigh : off < Reg.csiFeSignal n) : writeIgnored s off = true := by
  have fixed : csiFixed s off = true := List.any_eq_true.2 ⟨n, List.mem_range.2 hn, by simp [he, hlow, hhigh]⟩
  simp only [writeIgnored, fixed, Bool.or_true, Bool.true_or]

theorem writeIgnored_stripRing {n : Nat} (hn : n < 16) (he : sringOn s n = true)
    (ho : off = Reg.sringSize n ∨ off = Reg.sringY0 n) : writeIgnored s off = true := by
  have fixed : ((List.range 16).any fun n =>
      sringOn s n && (decide (off = Reg.sringSize n) || decide (off = Reg.sringY0 n))) = true :=
    List.any_eq_true.2 ⟨n, List.mem_range.2 hn, by simp [he, ho]⟩
  simp only [writeIgnored, fixed, Bool.or_true, Bool.true_or]

theorem writeIgnored_request {k : Nat} (hk : k < 64) (hb : grmBusy s = true) (ho : off = Reg.grmReq k) :
    writeIgnored s off = true := by
  have low : Reg.grmReq 0 ≤ off := by simp only [ho, Reg.grmReq]; omega
  have high : off < Reg.grmReq 64 := by simp only [ho, Reg.grmReq]; omega
  simp only [writeIgnored, low, high, hb, decide_true, Bool.and_self, Bool.or_true, Bool.true_or]

theorem inGroomerI2c_of_owner {n : Nat} (hn : n < 2) (hg : i2cHost s n = false) (hlow : Reg.i2cCfg n ≤ off)
    (hhigh : off < Reg.i2cCfg (n + 1)) : inGroomerI2c s off = true := by
  simp only [Reg.i2cCfg] at hlow hhigh
  have controller : (off - Reg.i2cCfg 0) / 0x20 = n := by simp only [Reg.i2cCfg]; omega
  have low : Reg.i2cCfg 0 ≤ off := by simp only [Reg.i2cCfg]; omega
  have high : off < Reg.i2cCfg 2 := by simp only [Reg.i2cCfg]; omega
  simp only [inGroomerI2c, low, high, controller, hg, decide_true, Bool.not_false, Bool.and_self]

theorem writeIgnored_i2c {n : Nat} (hn : n < 2) (hg : i2cHost s n = false) (hlow : Reg.i2cCfg n ≤ off)
    (hhigh : off < Reg.i2cCfg (n + 1)) : writeIgnored s off = true := by
  simp only [writeIgnored, inGroomerI2c_of_owner hn hg hlow hhigh, Bool.or_true, Bool.true_or]

/-- A register that is no half of a pair and ignores writes leaves the state as it is. -/
theorem dwordWrite_ignored (v : Word) (hp : pairHalf off = .single) (hi : writeIgnored s off = true) : dwordWrite s off v = s := by
  unfold dwordWrite
  split
  · rfl
  · rw [hp]
    exact regWrite_ignored s off v hi

end

/-- Settles O29: each of the six kinds of register is one that writeIgnored names. -/
theorem writesThatAreIgnored : Obligations.WritesThatAreIgnored := by
  intro s off v hs hready ha hb hp hcase
  have ignored : writeIgnored s off.toNat = true := by
    rcases hcase with shadow | ⟨m, hm, he, hlow, hhigh⟩ | ⟨n, hn, he, hlow, hhigh⟩ | ⟨n, hn, he, ho⟩ | ⟨k, hk, ho, hbusy⟩ |
      ⟨n, hn, hg, hlow, hhigh⟩
    · exact writeIgnored_shadow shadow
    · exact writeIgnored_tgFixed hm he hlow hhigh
    · exact writeIgnored_csiFixed hn he hlow hhigh
    · exact writeIgnored_stripRing hn he ho
    · exact writeIgnored_request hk hbusy ho
    · exact writeIgnored_i2c hn hg hlow hhigh
  rw [exec_registerWrite_aligned s off v hs ha (liveAt_of_ready s _ hready) hb, dwordWrite_ignored v hp ignored]

end Sys2Proof.Machine
end

section
/-!
The statement on DSP_PLANE_MAP (R452): what a word's fields are after one of them is replaced, and after those that may change
are.
-/

namespace Sys2Proof.Machine

/-! ### Fields of a word -/

/-- A number with the w bits from bit lo on taken from another. -/
theorem replaced_eq (x lo w v : Nat) : x - (x >>> lo) % 2 ^ w * 2 ^ lo + v % 2 ^ w * 2 ^ lo =
    2 ^ lo * (2 ^ w * (x / 2 ^ lo / 2 ^ w) + v % 2 ^ w) + x % 2 ^ lo := by
  have whole := Nat.div_add_mod x (2 ^ lo)
  have upper := Nat.div_add_mod (x / 2 ^ lo) (2 ^ w)
  rw [Nat.shiftRight_eq_div_pow]
  rw [← upper, Nat.mul_add] at whole
  rw [Nat.mul_add, Nat.mul_comm _ (2 ^ lo), Nat.mul_comm _ (2 ^ lo)]
  omega

/-- A bit of a word with a field replaced is the new value's within the field, and as before outside it. -/
theorem bit_setFld {n : Nat} (x : BitVec n) (lo w v : Nat) {i : Nat} (hi : i < n) :
    bit (setFld x lo w v) i = if lo ≤ i ∧ i < lo + w then v.testBit (i - lo) else bit x i := by
  rw [bit, setFld, fld, replaced_eq, BitVec.getLsbD_ofNat, decide_eq_true hi, Bool.true_and,
    Nat.testBit_two_pow_mul_add _ (Nat.mod_lt _ (Nat.two_pow_pos lo)),
    Nat.testBit_two_pow_mul_add _ (Nat.mod_lt _ (Nat.two_pow_pos w))]
  by_cases below : i < lo
  · rw [if_pos below, if_neg (by omega), Nat.testBit_mod_two_pow, decide_eq_true below, Bool.true_and]
    rfl
  by_cases above : lo + w ≤ i
  · rw [if_neg below, if_neg (by omega), if_neg (by omega), Nat.testBit_div_two_pow, Nat.testBit_div_two_pow,
      show i - lo - w + w + lo = i by omega]
    rfl
  · have within : i - lo < w := by omega
    rw [if_neg below, if_pos within, if_pos (by omega), Nat.testBit_mod_two_pow, decide_eq_true within, Bool.true_and]

theorem testBit_fld {n : Nat} (x : BitVec n) (lo w j : Nat) : (fld x lo w).testBit j = (decide (j < w) && bit x (lo + j)) := by
  rw [fld, Nat.testBit_mod_two_pow, Nat.testBit_shiftRight]
  rfl

/-- The field that was replaced holds the new value. -/
theorem fld_setFld_same {n : Nat} (x : BitVec n) {lo w : Nat} (v : Nat) (h : lo + w ≤ n) : fld (setFld x lo w v) lo w = v % 2 ^ w := by
  refine Nat.eq_of_testBit_eq fun j => ?_
  rw [testBit_fld, Nat.testBit_mod_two_pow]
  by_cases hj : j < w
  · rw [bit_setFld x lo w v (by omega), if_pos (by omega), show lo + j - lo = j by omega]
  · rw [decide_eq_false hj, Bool.false_and, Bool.false_and]

/-- A field beside the one that was replaced is as before. -/
theorem fld_setFld_beside {n : Nat} (x : BitVec n) {lo w lo' w' : Nat} (v : Nat) (h : lo' + w' ≤ n)
    (beside : lo' + w' ≤ lo ∨ lo + w ≤ lo') : fld (setFld x lo w v) lo' w' = fld x lo' w' := by
  refine Nat.eq_of_testBit_eq fun j => ?_
  rw [testBit_fld, testBit_fld]
  by_cases hj : j < w'
  · rw [bit_setFld x lo w v (by omega), if_neg (by omega)]
  · rw [decide_eq_false hj, Bool.false_and, Bool.false_and]

/-- The fields of four bits that a list names and that may change take their value of v; the others keep theirs. -/
theorem fld_foldl_setFld (v : Word) (keep : Nat → Bool) (qs : List Nat) (w : Word) {r : Nat} (hr : r < 8) :
    fld (qs.foldl (fun w q => if keep q then w else setFld w (4 * q) 4 (fld v (4 * q) 4)) w) (4 * r) 4 =
      if r ∈ qs ∧ keep r = false then fld v (4 * r) 4 else fld w (4 * r) 4 := by
  induction qs generalizing w with
  | nil => simp
  | cons q qs ih =>
    rw [List.foldl_cons, ih]
    by_cases hq : r = q
    · subst hq
      have own : fld (setFld w (4 * r) 4 (fld v (4 * r) 4)) (4 * r) 4 = fld v (4 * r) 4 := by
        rw [fld_setFld_same w _ (by omega), fld, Nat.mod_mod]
      cases keep r <;> simp [own]
    · have others : fld (if keep q = true then w else setFld w (4 * q) 4 (fld v (4 * q) 4)) (4 * r) 4 = fld w (4 * r) 4 := by
        split
        · rfl
        · exact fld_setFld_beside w _ (by omega) (by omega)
      simp [others, hq]

/-- Each of the eight fields of a map word keeps its value or takes that of v. -/
theorem fld_mapFields (old v : Word) (keep : Nat → Bool) {q : Nat} (hq : q < 8) :
    fld (mapFields old v keep) (4 * q) 4 = if keep q = true then fld old (4 * q) 4 else fld v (4 * q) 4 := by
  rw [mapFields, fld_foldl_setFld v keep _ old hq]
  cases keep q <;> simp [hq]

/-! ### A write of a map word -/

/-- Whether a write of v keeps field q of a map word as it is (R452). -/
def mapKept (old v : Word) (blocked : Nat → Bool) (q : Nat) : Bool :=
  decide (fld v (4 * q) 4 ≠ fld old (4 * q) 4) && blocked q

section
variable (s : State) (reg : Nat) (v : Word) (blocked : Nat → Bool)

theorem mapWrite_eq : mapWrite s reg v blocked =
    let written := wr s reg (mapFields (rd s reg) v (mapKept (rd s reg) v blocked))
    if (List.range 8).any (mapKept (rd s reg) v blocked) then setEv written Reg.dspEvents 9 else written := rfl

theorem mapWrite_regsOnly (hh : reg ≠ Reg.hltStatus) (hp : reg ≠ Reg.pmuStatus) :
    RegsOnly s (mapWrite s reg v blocked) [reg, Reg.dspEvents] := by
  rw [mapWrite_eq]
  have written := (RegsOnly.refl s [reg, Reg.dspEvents]).wr reg (mapFields (rd s reg) v (mapKept (rd s reg) v blocked))
    (by simp) hh hp
  dsimp only
  split
  · exact written.setEv _ _ (by simp) (by decide) (by decide)
  · exact written

theorem rd_mapWrite_map (he : reg ≠ Reg.dspEvents) :
    rd (mapWrite s reg v blocked) reg = mapFields (rd s reg) v (mapKept (rd s reg) v blocked) := by
  rw [mapWrite_eq]
  dsimp only
  split
  · rw [rd_setEv, if_neg he, rd_wr_same]
  · rw [rd_wr_same]

theorem rd_mapWrite_events (he : reg ≠ Reg.dspEvents) : rd (mapWrite s reg v blocked) Reg.dspEvents =
    if (List.range 8).any (mapKept (rd s reg) v blocked) then rd s Reg.dspEvents ||| 512 else rd s Reg.dspEvents := by
  rw [mapWrite_eq]
  dsimp only
  split
  · rw [rd_setEv, if_pos rfl, rd_wr_ne _ _ _ _ he.symm]
    rfl
  · rw [rd_wr_ne _ _ _ _ he.symm]

end

/-- Settles O55: the command is a write of a map word, which replaces the fields that may change. -/
theorem planeMapKeepsBlockedFields : Obligations.PlaneMapKeepsBlockedFields := by
  intro s k v hs hready
  have events : Reg.dspPlaneMap0 + 4 * k.val ≠ Reg.dspEvents := by simp only [Reg.dspPlaneMap0, Reg.dspEvents]; omega
  have health : Reg.dspPlaneMap0 + 4 * k.val ≠ Reg.hltStatus := by simp only [Reg.dspPlaneMap0, Reg.hltStatus]; omega
  have power : Reg.dspPlaneMap0 + 4 * k.val ≠ Reg.pmuStatus := by simp only [Reg.dspPlaneMap0, Reg.pmuStatus]; omega
  have noAck : ∀ i < 4, Reg.dspPlaneMap0 + 4 * k.val ≠ Reg.hiuIrqAck i := by
    intro i hi
    simp only [Reg.dspPlaneMap0, Reg.hiuIrqAck]
    omega
  have effect : exec (.dspPlaneMap k v) s = .next (after s (planeMapWrite s k.val v)) :=
    viaHiu_live _ _ _ s hs (liveAt_of_ready s _ hready)
  have only : RegsOnly s (planeMapWrite s k.val v) _ := mapWrite_regsOnly s _ v _ health power
  obtain ⟨hregs, hunits, hpins⟩ := only.frame
  refine ⟨_, effect, hregs, hunits, hpins, ?_⟩
  rw [only.rd_after _ noAck, only.rd_after _ (by decide), planeMapWrite, rd_mapWrite_map s _ v _ events,
    rd_mapWrite_events s _ v _ events]
  refine ⟨fun q hq => ?_, ?_, fun ⟨q, hq, differs, blocked⟩ => ?_⟩
  · rw [fld_mapFields _ _ _ hq]
    simp only [mapKept, Bool.and_eq_true, decide_eq_true_eq]
  · split
    · exact .inr rfl
    · exact .inl rfl
  · rw [if_pos (List.any_eq_true.2 ⟨q, List.mem_range.2 hq, by rw [mapKept, decide_eq_true differs, blocked]; rfl⟩), bit_or]
    exact Bool.or_true _

end Sys2Proof.Machine
end

section
/-!
The statement on a power state that is refused (R653, R654): PMU_PSTATE is no condition of a power state, and the refusal is an
event of the PMU alone.
-/

namespace Sys2Proof.Machine

section
variable (s : State) (v : Word)

/-- Whether the front end is idle is read from its rings and descriptors. -/
theorem cfeStatus_wr_pmuPstate : cfeRead (wr s Reg.pmuPstate v) Reg.cfeStatus = cfeRead s Reg.cfeStatus := by
  have live : ready (wr s Reg.pmuPstate v) = ready s := by rw [ready, rd0_wr_ne _ _ _ _ (by decide), ready]
  have drain : draining (wr s Reg.pmuPstate v) = draining s := by rw [draining, rd0_wr_ne _ _ _ _ (by decide), draining]
  have enabled (n : Nat) : ringEnabled (wr s Reg.pmuPstate v) n = ringEnabled s n := by
    rw [ringEnabled, rd0_wr_ne _ _ _ _ (by simp only [Reg.ringCfg, Reg.pmuPstate]; omega), ringEnabled]
  have tail (n : Nat) : rd (wr s Reg.pmuPstate v) (Reg.ringSqTail n) = rd s (Reg.ringSqTail n) :=
    rd_wr_ne _ _ _ _ (by simp only [Reg.ringSqTail, Reg.pmuPstate]; omega)
  have head (n : Nat) : rd (wr s Reg.pmuPstate v) (Reg.ringSqHead n) = rd s (Reg.ringSqHead n) :=
    rd_wr_ne _ _ _ _ (by simp only [Reg.ringSqHead, Reg.pmuPstate]; omega)
  have chain (n : Nat) : chainGoing (wr s Reg.pmuPstate v) n = chainGoing s n := rfl
  simp only [cfeRead, live, drain, enabled, tail, head, chain, wr_cfe, if_true]

/-- The conditions of R654 are not those of PMU_PSTATE. -/
theorem pstateAllowed_wr_pmuPstate : pstateAllowed (wr s Reg.pmuPstate v) = pstateAllowed s := by
  have timing (m : Nat) : rd0 (wr s Reg.pmuPstate v) (Reg.tgCtrl m) = rd0 s (Reg.tgCtrl m) :=
    rd0_wr_ne _ _ _ _ (by simp only [Reg.tgCtrl, Reg.pmuPstate]; omega)
  have strips (r : Nat) : rd0 (wr s Reg.pmuPstate v) (Reg.sringCfg r) = rd0 s (Reg.sringCfg r) :=
    rd0_wr_ne _ _ _ _ (by simp only [Reg.sringCfg, Reg.pmuPstate]; omega)
  have cameras (n : Nat) : csiEnabled (wr s Reg.pmuPstate v) n = csiEnabled s n := by
    rw [csiEnabled, csiFld, rdF, rd_wr_ne _ _ _ _ (by simp only [Reg.csiCtrl, Reg.pmuPstate]; omega), csiEnabled, csiFld, rdF]
  have twin : twinState (wr s Reg.pmuPstate v) = twinState s := by rw [twinState, rd0_wr_ne _ _ _ _ (by decide), twinState]
  simp only [pstateAllowed, cfeStatus_wr_pmuPstate, timing, strips, cameras, twin, wr_hlt]

theorem pstate_wr_pmuPstate : pstate (wr s Reg.pmuPstate v) = pstate s := by
  rw [pstate, rdF, rd_wr_ne _ _ _ _ (by decide), pstate, rdF]

end

section
variable {s : State}

/-- A request for another power state is refused while a condition of R654 fails. -/
theorem pstateRequest_refused {target : Nat} (hp : pstate s ≠ target) (ha : pstateAllowed s = false) :
    pstateRequest s target = setEv s Reg.pmuEvents 5 := by
  simp [pstateRequest, hp, ha]

/-- TARGET is stored by a refused request too (log entry 26). -/
theorem pstateWrite_refused {v : Word} (hv : v = 1 ∨ v = 2) (hb : pstateBusy s = false) (hp : pstate s = 0)
    (ha : pstateAllowed s = false) : pstateWrite s v = setEv (wr s Reg.pmuPstate (v &&& 3)) Reg.pmuEvents 5 := by
  have refused {target : Nat} (ht : 0 ≠ target) :=
    pstateRequest_refused (s := wr s Reg.pmuPstate (v &&& 3)) (target := target) (by rwa [pstate_wr_pmuPstate, hp])
      (by rwa [pstateAllowed_wr_pmuPstate])
  rw [pstateWrite, hb, if_neg Bool.false_ne_true]
  rcases hv with rfl | rfl
  · exact refused (by decide)
  · exact refused (by decide)

theorem refusal_regsOnly (s : State) (v : Word) :
    RegsOnly s (setEv (wr s Reg.pmuPstate v) Reg.pmuEvents 5) [Reg.pmuPstate, Reg.pmuEvents] :=
  ((RegsOnly.refl s _).wr _ _ (by simp) (by decide) (by decide)).setEv _ _ (by simp) (by decide) (by decide)

end

/-- Settles O57: both requests are writes of PMU_PSTATE, which store TARGET and set PSTATE_REFUSED. -/
theorem refusedPowerStateStaysActive : Obligations.RefusedPowerStateStaysActive := by
  intro s c hs hready hp hb ha hc
  have live := liveAt_of_ready s Reg.pmuPstate hready
  obtain ⟨v, hv, effect⟩ : ∃ v : Word, (v = 1 ∨ v = 2) ∧ exec c s = .next (after s (pstateWrite s v)) := by
    rcases hc with rfl | rfl
    · exact ⟨1, .inl rfl, viaHiu_live _ _ _ s hs live⟩
    · exact ⟨2, .inr rfl, viaHiu_live _ _ _ s hs live⟩
  rw [pstateWrite_refused hv hb hp ha] at effect
  have only := refusal_regsOnly s (v &&& 3)
  obtain ⟨hregs, hunits, hpins⟩ := only.frame
  refine ⟨_, effect, ?_, hregs, hunits, hpins⟩
  rw [only.rd_after _ (by decide), rd_setEv, if_pos rfl, bit_or]
  exact Bool.or_true _

end Sys2Proof.Machine
end

section
/-!
The statement on PIN_SET, PIN_CLR and PIN_TGL (R662, R668): which registers the evaluation of the pads leaves as they are, and
what the three writes make of PIN_OUT.
-/

namespace Sys2Proof.Machine

/-! ### Registers that the pads leave as they are -/

/-- A register that the evaluation of the pads does not write: conflicts, events, edges and TAKEOVER are those that it does. -/
structure PadKept (off : Nat) : Prop where
  conflict : off ≠ Reg.pinConflict
  events : off ≠ Reg.pinEvents
  edges : ∀ i, off ≠ Reg.pinEdge i
  twinStatus : off ≠ Reg.hltTwinStatus

theorem rd_ite {a b : State} {off : Nat} {v : Word} (p : Prop) [Decidable p] (ha : rd a off = v) (hb : rd b off = v) :
    rd (if p then a else b) off = v := by
  split
  · exact ha
  · exact hb

section
variable {off : Nat} (h : PadKept off) (s : State)
include h

theorem rd_pinFlags : rd (pinFlags s) off = rd s off := by
  have event {u : State} (i : Nat) (hu : rd u off = rd s off) : rd (setEv u Reg.pinEvents i) off = rd s off := by
    rw [rd_setEv, if_neg h.events, hu]
  unfold pinFlags
  extract_lets i c flagged inert
  have hflagged : rd flagged off = rd s off := by rw [rd_wrN, if_neg h.conflict]; rfl
  have hinert : rd inert off = rd s off := rd_ite _ hflagged (event 1 hflagged)
  exact rd_ite _ hinert (event 0 hinert)

theorem rd_pinShow (k : Nat) : rd (pinShow s k) off = rd s off :=
  rd_ite _ rfl (rd_ite _ ((rd_setEv _ _ _ _).trans (if_neg (h.edges _))) rfl)

theorem rd_fnSettle : rd (fnSettle s) off = rd s off := by
  unfold fnSettle
  dsimp only
  exact (rd_wrF _ _ _ _ _ _).trans (if_neg h.twinStatus)

theorem rd_foldl_pinShow (l : List Nat) : rd (l.foldl pinShow s) off = rd s off :=
  List.foldlRecOn (motive := fun u => rd u off = rd s off) l pinShow rfl fun u hu k _ => (rd_pinShow h u k).trans hu

theorem rd_pinEvaluate : rd (pinEvaluate s) off = rd s off := by
  unfold pinEvaluate
  dsimp only
  rw [rd_fnSettle h, rd_foldl_pinShow h]
  split
  · exact rd_pinFlags h s
  · exact rd_pinFlags h s

theorem rd_pinSettle : rd (pinSettle s) off = rd s off := rd_ite _ (rd_pinEvaluate h s) rfl

theorem rd_padFollow (t : State) : rd (padFollow s t) off = rd t off := rd_ite _ rfl (rd_pinSettle h t)

/-- Nor does the end of a cycle write such a register, unless it is of outstanding vectors. -/
theorem PadKept.rd_after (t : State) (ha : ∀ i < 4, off ≠ Reg.hiuIrqAck i) : rd (after s t) off = rd t off := by
  rw [after, rd_confine, cycleEnd, rd_conSettle, rd_irqSettle _ off ha, rd_padFollow h]

end

/-- PIN_OUT, PIN_OE and PIN_CFG hold what the host writes. -/
theorem padKept_pinOut {b : Nat} (hb : b < 8) : PadKept (Reg.pinOut b) := by
  constructor <;> simp only [Reg.pinOut, Reg.pinConflict, Reg.pinEvents, Reg.pinEdge, Reg.hltTwinStatus] <;> omega

theorem padKept_pinOe (b : Nat) : PadKept (Reg.pinOe b) := by
  constructor <;> simp only [Reg.pinOe, Reg.pinConflict, Reg.pinEvents, Reg.pinEdge, Reg.hltTwinStatus] <;> omega

theorem padKept_pinCfg {k : Nat} (hk : k < 64) : PadKept (Reg.pinCfg k) := by
  constructor <;> simp only [Reg.pinCfg, Reg.pinConflict, Reg.pinEvents, Reg.pinEdge, Reg.hltTwinStatus] <;> omega

/-! ### Bits of HOST pins -/

/-- A sum of the powers of two that a predicate picks has those bits. -/
theorem testBit_foldl_pow (p : Nat → Prop) [DecidablePred p] (n i : Nat) :
    ((List.range n).foldl (fun a j => if p j then a + 2 ^ j else a) 0).testBit i = decide (i < n ∧ p i) ∧
      (List.range n).foldl (fun a j => if p j then a + 2 ^ j else a) 0 < 2 ^ n := by
  induction n with
  | zero => simp
  | succ n ih =>
    obtain ⟨bits, below⟩ := ih
    rw [List.range_succ, List.foldl_append, List.foldl_cons, List.foldl_nil, Nat.pow_succ]
    generalize (List.range n).foldl (fun a j => if p j then a + 2 ^ j else a) 0 = a at bits below ⊢
    have others (hi : i ≠ n) : decide (i < n + 1 ∧ p i) = decide (i < n ∧ p i) :=
      decide_eq_decide.2 (and_congr_left fun _ => by omega)
    by_cases hp : p n
    · rw [if_pos hp]
      refine ⟨?_, by omega⟩
      rw [show a + 2 ^ n = 2 ^ n * 1 + a by omega, Nat.testBit_two_pow_mul_add 1 below]
      by_cases hi : i = n
      · simp [hi, hp]
      · rw [others hi]
        split
        · exact bits
        · rw [Nat.testBit_lt_two_pow (Nat.one_lt_two_pow (by omega)), decide_eq_false (by omega)]
    · rw [if_neg hp]
      refine ⟨?_, by omega⟩
      by_cases hi : i = n
      · subst hi
        simp [bits, hp]
      · rw [others hi, bits]

/-- The host's bits of a bank are those of its HOST pins (R662). -/
theorem bit_hostBits (s : State) (b : Nat) {j : Nat} (hj : j < 32) :
    bit (hostBits s b) j = decide (j < 8 ∧ pinOwner s (8 * b + j) = 0) := by
  rw [hostBits, bit_ofNat _ _ hj]
  exact (testBit_foldl_pow (fun j => pinOwner s (8 * b + j) = 0) 8 j).1

/-! ### The three writes -/

/-- A write acts on words as f acts on a bit of PIN_OUT and the bit written. -/
def ActsBitwise (word : Word → Word → Word) (f : Bool → Bool → Bool) : Prop :=
  ∀ o m : Word, ∀ j < 32, bit (word o m) j = f (bit o j) (bit m j)

theorem actsBitwise_set : ActsBitwise (fun o m => o ||| m) fun o m => o || m := fun o m j _ => bit_or o m j

theorem actsBitwise_clear : ActsBitwise (fun o m => o &&& ~~~ m) fun o m => o && !m := fun o m _ hj => bit_clear o m _ hj

theorem actsBitwise_toggle : ActsBitwise (fun o m => o ^^^ m) fun o m => xor o m := fun _ _ _ _ => BitVec.getLsbD_xor ..

/-- Bit j of a bank's PIN_OUT after a write of v: there are eight, and v acts on those of HOST pins (R668). -/
theorem bit_pinOutWrite {word : Word → Word → Word} {f : Bool → Bool → Bool} (hf : ActsBitwise word f) (s : State) (b : Nat)
    (old v : Word) {j : Nat} (hj : j < 32) : bit (word old (v &&& hostBits s b) &&& 0xFF) j =
      (decide (j < 8) && f (bit old j) (bit v j && decide (pinOwner s (8 * b + j) = 0))) := by
  have low : ∀ j < 32, bit (0xFF : Word) j = decide (j < 8) := by decide
  have anded (x y : Word) : bit (x &&& y) j = (bit x j && bit y j) := BitVec.getLsbD_and ..
  rw [anded, hf _ _ j hj, anded, bit_hostBits s b hj, low j hj]
  by_cases h8 : j < 8 <;> simp [h8]

theorem rd0_pinOut (s : State) {b : Nat} (hb : b < 8) : rd0 s (Reg.pinOut b) = rd s (Reg.pinOut b) :=
  have reset : ∀ b < 8, regReset (Reg.pinOut b) = 0 := by decide +kernel
  rd0_eq_rd s _ (reset b hb)

/-- PIN_OUT of the bank is written, and then the pads are evaluated, which leaves that and every register that the host writes. -/
theorem rd_after_pinOutWrite (s : State) (b : Nat) (word : Word → Word → Word) (v : Word) {off : Nat} (h : PadKept off)
    (ha : ∀ i < 4, off ≠ Reg.hiuIrqAck i) : rd (after s (pinOutWrite s b word v)) off =
      if off = Reg.pinOut b then word (rd0 s (Reg.pinOut b)) (v &&& hostBits s b) &&& 0xFF else rd s off := by
  rw [h.rd_after s _ ha, pinOutWrite, rd_pinSettle h, rd_wr]

/-- Settles O56: each of the three commands is a write of PIN_OUT that acts bit by bit. -/
theorem pinWritesChangeHostBits : Obligations.PinWritesChangeHostBits := by
  intro s b v hs hready c f hc
  have live (off : Nat) := liveAt_of_ready s off hready
  obtain ⟨word, bitwise, effect⟩ : ∃ word, ActsBitwise word f ∧ exec c s = .next (after s (pinOutWrite s b.val word v)) := by
    rcases hc with ⟨rfl, rfl⟩ | ⟨rfl, rfl⟩ | ⟨rfl, rfl⟩
    · exact ⟨_, actsBitwise_set, viaHiu_live _ _ _ s hs (live _)⟩
    · exact ⟨_, actsBitwise_clear, viaHiu_live _ _ _ s hs (live _)⟩
    · exact ⟨_, actsBitwise_toggle, viaHiu_live _ _ _ s hs (live _)⟩
  refine ⟨_, effect, fun j hj => ?_, fun k hk hne => ?_, fun k hk => ?_, fun k hk => ?_⟩
  · rw [rd0_pinOut _ b.isLt, rd_after_pinOutWrite s _ word v (padKept_pinOut b.isLt)
      (by intro i hi; simp only [Reg.pinOut, Reg.hiuIrqAck]; omega), if_pos rfl]
    exact bit_pinOutWrite bitwise s b.val _ v hj
  · rw [rd_after_pinOutWrite s _ word v (padKept_pinOut hk) (by intro i hi; simp only [Reg.pinOut, Reg.hiuIrqAck]; omega),
      if_neg (by simp only [Reg.pinOut]; omega)]
  · rw [rd_after_pinOutWrite s _ word v (padKept_pinOe k) (by intro i hi; simp only [Reg.pinOe, Reg.hiuIrqAck]; omega),
      if_neg (by simp only [Reg.pinOe, Reg.pinOut]; omega)]
  · rw [rd_after_pinOutWrite s _ word v (padKept_pinCfg hk) (by intro i hi; simp only [Reg.pinCfg, Reg.hiuIrqAck]; omega),
      if_neg (by simp only [Reg.pinCfg, Reg.pinOut]; omega)]

end Sys2Proof.Machine
end
